-- ==== Sys2Proof/Registers.lean ====
section
/-!
DEFINITION. The names of the registers and the unit identifiers that the commands and the state are indexed by.
A register constructor stands for one register name of the spec's register tables (R13), its index in the name dropped:
`coreCalSlot` is CORE.CAL.SLOT[i].  The instance (die, cluster, core and the name's own indices) is an `Ix`.
-/

namespace Sys2Proof

/-- One register name of the spec, for each the rule whose tables describe it. -/
inductive Reg where
  | nirTimeStitchLo  -- NIR.TIME.STITCH_LO, 32 bits (01, R32)
  | nirTimeStitchHi  -- NIR.TIME.STITCH_HI, 32 bits (01, R32)
  | stwXingBridge  -- STW.XING.BRIDGE[e], 32 bits (01, R39)
  | stwXingStkRtn  -- STW.XING.STK_RTN[n], 32 bits (01, R39)
  | nirTimeStep  -- NIR.TIME.STEP, 32 bits (01, R44)
  | nirTimeStepAt  -- NIR.TIME.STEP_AT, 64 bits (01, R44)
  | nirTimeStepCount  -- NIR.TIME.STEP_COUNT, 32 bits (01, R44)
  | arrCfg  -- ARR.CFG, 32 bits (02, R98)
  | arrState  -- ARR.STATE, 32 bits (02, R98)
  | arrOps  -- ARR.OPS, 32 bits (02, R98)
  | arrClip  -- ARR.CLIP, 32 bits (02, R98)
  | arrAccrej  -- ARR.ACCREJ, 32 bits (02, R98)
  | arrQ2skip  -- ARR.Q2SKIP, 32 bits (02, R98)
  | arrErr  -- ARR.ERR, 32 bits (02, R98)
  | arrTallyOps  -- ARR.TALLY_OPS, 32 bits (02, R98)
  | arrTallyClip  -- ARR.TALLY_CLIP, 32 bits (02, R98)
  | arrTallyGen  -- ARR.TALLY_GEN, 32 bits (02, R98)
  | coreAgrp  -- CORE.AGRP[g], 64 bits (02, R98)
  | coreArrstat  -- CORE.ARRSTAT, 32 bits (02, R98)
  | arrTrim  -- ARR.TRIM[n], 32 bits (03, R125)
  | coreCalCfg  -- CORE.CAL.CFG, 32 bits (03, R125)
  | coreCalSlot  -- CORE.CAL.SLOT[i], 64 bits (03, R125)
  | coreCalStat  -- CORE.CAL.STAT, 32 bits (03, R125)
  | coreCalrecStamp  -- CORE.CALREC[a].STAMP, 64 bits (03, R125)
  | coreCalrecTemp  -- CORE.CALREC[a].TEMP, 32 bits (03, R125)
  | coreCalrecAge  -- CORE.CALREC[a].AGE, 32 bits (03, R125)
  | coreCalrecStat  -- CORE.CALREC[a].STAT, 32 bits (03, R125)
  | vecPcntLayer  -- VEC.PCNT[k].LAYER, 32 bits (04, R163)
  | vecPcntElems  -- VEC.PCNT[k].ELEMS, 32 bits (04, R163)
  | vecPcntSatel  -- VEC.PCNT[k].SATEL, 32 bits (04, R163)
  | vecPcntZeroblk  -- VEC.PCNT[k].ZEROBLK, 32 bits (04, R163)
  | vecPcntFaults  -- VEC.PCNT[k].FAULTS, 32 bits (04, R163)
  | vecPcntScales  -- VEC.PCNT[k].SCALES, 32 bits (04, R163)
  | stwPrecStat  -- STW.PREC.STAT, 32 bits (04, R163)
  | stwPrecStorms  -- STW.PREC.STORMS, 32 bits (04, R163)
  | stwPrecEvcnt  -- STW.PREC.EVCNT, 32 bits (04, R163)
  | stwPrecLastwin  -- STW.PREC.LASTWIN, 64 bits (04, R163)
  | stwPrecThr  -- STW.PREC.THR[l], 64 bits (04, R163)
  | stwPrecLastA  -- STW.PREC.LAST[l].A, 64 bits (04, R163)
  | stwPrecLastB  -- STW.PREC.LAST[l].B, 64 bits (04, R163)
  | stwPrecLastC  -- STW.PREC.LAST[l].C, 64 bits (04, R163)
  | stwPrecLastWin  -- STW.PREC.LAST[l].WIN, 64 bits (04, R163)
  | coreSeqTask  -- CORE.SEQ.TASK, 32 bits (05, R195)
  | coreSeqLaunch  -- CORE.SEQ.LAUNCH, 64 bits (05, R195)
  | coreSeqPc  -- CORE.SEQ.PC, 32 bits (05, R195)
  | coreSeqSt  -- CORE.SEQ.ST[i], 64 bits (05, R195)
  | coreSeqBase  -- CORE.SEQ.BASE[k], 64 bits (05, R195)
  | coreSeqBound  -- CORE.SEQ.BOUND[k], 64 bits (05, R195)
  | coreCredCfg  -- CORE.CRED.CFG, 32 bits (05, R195)
  | coreCredUse  -- CORE.CRED.USE, 32 bits (05, R195)
  | coreCredLast  -- CORE.CRED.LAST, 32 bits (05, R195)
  | coreCredTab  -- CORE.CRED.TAB[i], 32 bits (05, R195)
  | coreCredEff  -- CORE.CRED.EFF[i], 32 bits (05, R195)
  | coreSfltRec  -- CORE.SFLT.REC, 32 bits (05, R195)
  | coreSfltCycle  -- CORE.SFLT.CYCLE, 32 bits (05, R195)
  | coreSfltStitch  -- CORE.SFLT.STITCH, 64 bits (05, R195)
  | coreSfltCnt  -- CORE.SFLT.CNT, 32 bits (05, R195)
  | cluCredCap  -- CLU.CRED.CAP, 64 bits (05, R195)
  | stwSchedFirst  -- STW.SCHED.FIRST, 64 bits (05, R195)
  | stwSchedFstitch  -- STW.SCHED.FSTITCH, 64 bits (05, R195)
  | stwSchedHalt  -- STW.SCHED.HALT, 64 bits (05, R195)
  | stwSchedCnt  -- STW.SCHED.CNT, 32 bits (05, R195)
  | stwSchedHaltlat  -- STW.SCHED.HALTLAT, 32 bits (05, R195)
  | vecCfgRnd  -- VEC.CFG.RND, 32 bits (06, R223)
  | vecCfgStat  -- VEC.CFG.STAT, 32 bits (06, R223)
  | vecCfgKey  -- VEC.CFG.KEY, 64 bits (06, R223)
  | vecCfgCtx  -- VEC.CFG.CTX, 64 bits (06, R223)
  | vecCfgTscale  -- VEC.CFG.TSCALE[i], 32 bits (06, R223)
  | vecCfgIssue  -- VEC.CFG.ISSUE, 32 bits (06, R223)
  | coreKvfRoleCfg0  -- CORE.KVF.ROLE[r].CFG0, 64 bits (07, R257)
  | coreKvfRoleCfg1  -- CORE.KVF.ROLE[r].CFG1, 64 bits (07, R257)
  | coreKvfRoleFree  -- CORE.KVF.ROLE[r].FREE, 32 bits (07, R257)
  | coreKvfRoleCnt  -- CORE.KVF.ROLE[r].CNT, 64 bits (07, R257)
  | coreKvfRoleHfree  -- CORE.KVF.ROLE[r].HFREE, 32 bits (07, R257)
  | coreKvfStat  -- CORE.KVF.STAT, 32 bits (07, R257)
  | srvKvCmd  -- SRV.KV.CMD, 64 bits (07, R257)
  | srvKvAt  -- SRV.KV.AT, 64 bits (07, R257)
  | srvKvResult  -- SRV.KV.RESULT, 64 bits (07, R257)
  | srvKvLen  -- SRV.KV.LEN[σ], 32 bits (07, R257)
  | coreSpadCfg  -- CORE.SPAD.CFG, 32 bits (08, R290)
  | coreSpadEcc  -- CORE.SPAD.ECC, 32 bits (08, R290)
  | coreSpadUeaddr  -- CORE.SPAD.UEADDR, 32 bits (08, R290)
  | cluSbufCfg  -- CLU.SBUF.CFG, 32 bits (08, R290)
  | cluSbufStat  -- CLU.SBUF.STAT, 32 bits (08, R290)
  | cluSbufHits  -- CLU.SBUF.HITS, 32 bits (08, R290)
  | cluSbufMisses  -- CLU.SBUF.MISSES, 32 bits (08, R290)
  | cluSbufInval  -- CLU.SBUF.INVAL, 32 bits (08, R290)
  | cluSbufFence  -- CLU.SBUF.FENCE, 32 bits (08, R290)
  | coreWinRej  -- CORE.WIN.REJ, 64 bits (08, R290)
  | xferChStat  -- XFER.CH[n].STAT, 32 bits (08, R290)
  | xferChLast  -- XFER.CH[n].LAST, 64 bits (08, R290)
  | xferChRej  -- XFER.CH[n].REJ, 32 bits (08, R290)
  | stkCfg  -- STK.CFG, 32 bits (08, R290)
  | stkStat  -- STK.STAT, 32 bits (08, R290)
  | stkEcc  -- STK.ECC, 32 bits (08, R290)
  | stkEcs  -- STK.ECS, 32 bits (08, R290)
  | stkDecl  -- STK.DECL[g], 32 bits (08, R290)
  | stwWincmdSel  -- STW.WINCMD.SEL, 32 bits (08, R290)
  | stwWincmdVal  -- STW.WINCMD.VAL[j], 64 bits (08, R290)
  | stwWincmdAt  -- STW.WINCMD.AT, 64 bits (08, R290)
  | stwWincmdResult  -- STW.WINCMD.RESULT, 32 bits (08, R290)
  | cluRtrRoute  -- CLU.RTR.ROUTE[n], 256 bits (09, R319)
  | cluRtrRlat  -- CLU.RTR.RLAT[n], 32 bits (09, R319)
  | cluRtrLink  -- CLU.RTR.LINK, 32 bits (09, R319)
  | cluRtrCnt  -- CLU.RTR.CNT, 64 bits (09, R319)
  | cluRtrErr  -- CLU.RTR.ERR, 64 bits (09, R319)
  | cluRtrErrstitch  -- CLU.RTR.ERRSTITCH, 64 bits (09, R319)
  | cluSynObj  -- CLU.SYN.OBJ[i], 32 bits (09, R319)
  | cluSynHsig  -- CLU.SYN.HSIG, 32 bits (09, R319)
  | cluSynStat  -- CLU.SYN.STAT, 32 bits (09, R319)
  | coreTallyGen  -- CORE.TALLY.GEN, 32 bits (09, R319)
  | stwTallyAddr  -- STW.TALLY.ADDR, 32 bits (09, R319)
  | stwTallyData  -- STW.TALLY.DATA, 64 bits (09, R319)
  | nirCinchAt  -- NIR.CINCH.AT, 64 bits (09, R319)
  | nirCinchResult  -- NIR.CINCH.RESULT, 32 bits (09, R319)
  | nirCinchT  -- NIR.CINCH.T, 64 bits (09, R319)
  | nirCinchCfg  -- NIR.CINCH.CFG, 32 bits (09, R319)
  | nirCinchMiss  -- NIR.CINCH.MISS, 32 bits (09, R319)
  | nirCinchCount  -- NIR.CINCH.COUNT, 32 bits (09, R319)
  | hrnPart  -- HRN.PART, 32 bits (10, R348)
  | hrnStat  -- HRN.STAT, 32 bits (10, R348)
  | hrnActiveId  -- HRN.ACTIVE_ID, 64 bits (10, R348)
  | hrnShadowId  -- HRN.SHADOW_ID, 64 bits (10, R348)
  | hrnActAt  -- HRN.ACT_AT, 64 bits (10, R348)
  | hrnLoadAddr  -- HRN.LOAD.ADDR, 64 bits (10, R348)
  | hrnLoadLen  -- HRN.LOAD.LEN, 64 bits (10, R348)
  | hrnLoadGo  -- HRN.LOAD.GO, 32 bits (10, R348)
  | hrnLoadResult  -- HRN.LOAD.RESULT, 64 bits (10, R348)
  | hrnLoadRecord  -- HRN.LOAD.RECORD, 32 bits (10, R348)
  | hrnSwapCtl  -- HRN.SWAP.CTL, 32 bits (10, R348)
  | hrnSwapAt  -- HRN.SWAP.AT, 64 bits (10, R348)
  | hrnSwapResult  -- HRN.SWAP.RESULT, 32 bits (10, R348)
  | hrnSwapT  -- HRN.SWAP.T, 64 bits (10, R348)
  | hrnLaunch  -- HRN.LAUNCH, 64 bits (10, R348)
  | hrnCnt  -- HRN.CNT, 64 bits (10, R348)
  | nirKeySlot  -- NIR.KEY.SLOT[k], 64 bits (10, R348)
  | nirKeyStat  -- NIR.KEY.STAT[k], 32 bits (10, R348)
  | srvCfg  -- SRV.CFG, 64 bits (11, R383)
  | srvStat  -- SRV.STAT, 32 bits (11, R383)
  | srvCnt  -- SRV.CNT, 64 bits (11, R383)
  | srvSubqBase  -- SRV.SUBQ.BASE, 64 bits (11, R383)
  | srvSubqCfg  -- SRV.SUBQ.CFG, 32 bits (11, R383)
  | srvSubqTail  -- SRV.SUBQ.TAIL, 32 bits (11, R383)
  | srvSubqHead  -- SRV.SUBQ.HEAD, 32 bits (11, R383)
  | srvReqCmd  -- SRV.REQ.CMD, 32 bits (11, R383)
  | srvReqResult  -- SRV.REQ.RESULT, 64 bits (11, R383)
  | srvLatGoal  -- SRV.LAT[c].GOAL, 64 bits (11, R383)
  | srvLatCnt  -- SRV.LAT[c].CNT, 64 bits (11, R383)
  | srvLatMax  -- SRV.LAT[c].MAX, 64 bits (11, R383)
  | srvRingBase  -- SRV.RING[r].BASE, 64 bits (11, R383)
  | srvRingCfg  -- SRV.RING[r].CFG, 64 bits (11, R383)
  | srvRingProd  -- SRV.RING[r].PROD, 32 bits (11, R383)
  | srvRingCons  -- SRV.RING[r].CONS, 32 bits (11, R383)
  | srvCtx  -- SRV.CTX[i], 128 bits (11, R383)
  | srvFrameCfg0  -- SRV.FRAME.CFG0, 64 bits (11, R383)
  | srvFrameCfg1  -- SRV.FRAME.CFG1, 64 bits (11, R383)
  | srvFrameVocab  -- SRV.FRAME.VOCAB, 32 bits (11, R383)
  | srvFrameUsable  -- SRV.FRAME.USABLE[w], 64 bits (11, R383)
  | srvFrameSmp  -- SRV.FRAME.SMP[j], 32 bits (11, R383)
  | srvCls  -- SRV.CLS[k], 64 bits (11, R383)
  | smpCfg  -- SMP.CFG, 64 bits (11, R383)
  | smpCnt  -- SMP.CNT, 64 bits (11, R383)
  | stwShardCmd  -- STW.SHARD.CMD, 32 bits (12, R408)
  | stwShardRaddr  -- STW.SHARD.RADDR, 64 bits (12, R408)
  | stwShardRkey  -- STW.SHARD.RKEY, 32 bits (12, R408)
  | stwShardLocal  -- STW.SHARD.LOCAL, 64 bits (12, R408)
  | stwShardExpect  -- STW.SHARD.EXPECT[j], 64 bits (12, R408)
  | stwShardStat  -- STW.SHARD.STAT, 64 bits (12, R408)
  | stwShardRef  -- STW.SHARD.REF, 64 bits (12, R408)
  | stwShardScfg  -- STW.SHARD.SCFG, 32 bits (12, R408)
  | stwShardDcnt  -- STW.SHARD.DCNT, 64 bits (12, R408)
  | coreWptrArr  -- CORE.WPTR.ARR[a], 32 bits (12, R408)
  | coreWptrScl  -- CORE.WPTR.SCL, 64 bits (12, R408)
  | coreWptrDigSlot  -- CORE.WPTR.DIG.SLOT[i], 64 bits (12, R408)
  | coreWptrDigStat  -- CORE.WPTR.DIG.STAT, 32 bits (12, R408)
  | chkCfg  -- CHK[n].CFG, 32 bits (12, R408)
  | chkRun  -- CHK[n].RUN, 64 bits (12, R408)
  | chkCnt  -- CHK[n].CNT, 64 bits (12, R408)
  | lnkChkAlive  -- LNK[p].CHK.ALIVE[v], 64 bits (12, R408)
  | srvFrameDig  -- SRV.FRAME.DIG, 64 bits (12, R408)
  | nirTorusId  -- NIR.TORUS.ID, 32 bits (13, R426)
  | nirTorusTcfg  -- NIR.TORUS.TCFG, 32 bits (13, R426)
  | nirTorusTstat  -- NIR.TORUS.TSTAT, 64 bits (13, R426)
  | lnkStat  -- LNK[p].STAT, 64 bits (13, R426)
  | lnkCtl  -- LNK[p].CTL, 32 bits (13, R426)
  | lnkCnt  -- LNK[p].CNT, 64 bits (13, R426)
  | hstPcieStat  -- HST.PCIE.STAT, 32 bits (13, R437)
  | hstPcieCnt  -- HST.PCIE.CNT, 32 bits (13, R437)
  | hstPcieRefaddr  -- HST.PCIE.REFADDR, 64 bits (13, R437)
  | hstBar2sel  -- HST.BAR2SEL[h], 32 bits (13, R437)
  | stwHwin  -- STW.HWIN[j], 32 bits (13, R437)
  | hstRdmaCnt  -- HST.RDMA.CNT, 64 bits (13, R437)
  | nirMgmtCfg  -- NIR.MGMT.CFG, 32 bits (13, R437)
  | nirPwrStat  -- NIR.PWR.STAT, 32 bits (14, R468)
  | nirPwrPin  -- NIR.PWR.PIN, 32 bits (14, R468)
  | nirPwrGov  -- NIR.PWR.GOV, 32 bits (14, R468)
  | nirPwrGovcnt  -- NIR.PWR.GOVCNT, 64 bits (14, R468)
  | nirBilSerial  -- NIR.BIL[b].SERIAL, 64 bits (14, R468)
  | nirBilStat  -- NIR.BIL[b].STAT, 32 bits (14, R468)
  | nirBilWear  -- NIR.BIL[b].WEAR, 64 bits (14, R468)
  | nirBilMeas  -- NIR.BIL[b].MEAS, 32 bits (14, R468)
  | stwPwrRail  -- STW.PWR.RAIL, 32 bits (14, R468)
  | stwPwrIdie  -- STW.PWR.IDIE, 32 bits (14, R468)
  | stwPwrSeqCmd  -- STW.PWR.SEQ.CMD, 32 bits (14, R468)
  | stwPwrSeqAt  -- STW.PWR.SEQ.AT, 64 bits (14, R468)
  | stwPwrSeqResult  -- STW.PWR.SEQ.RESULT, 32 bits (14, R468)
  | stwPwrCnt  -- STW.PWR.CNT, 64 bits (14, R468)
  | cluPwrStat  -- CLU.PWR.STAT, 32 bits (14, R468)
  | cluPwrMeas  -- CLU.PWR.MEAS, 32 bits (14, R468)
  | cluPwrCnt  -- CLU.PWR.CNT, 64 bits (14, R468)
  | tlmRef  -- TLM.REF, 32 bits (15, R491)
  | tlmUrg  -- TLM.URG, 32 bits (15, R491)
  | tlmCnt  -- TLM.CNT, 64 bits (15, R491)
  | tlmDac  -- TLM.DAC, 32 bits (15, R491)
  | tlmDacFaultyB  -- TLM.DAC.FAULTY_B, 32 bits (15, R491)
  | tlmQ  -- TLM.Q, 64 bits (15, R491)
  | tlmAccSum  -- TLM.ACC[k].SUM, 64 bits (15, R491)
  | tlmAccRange  -- TLM.ACC[k].RANGE, 32 bits (15, R491)
  | tlmCh  -- TLM.CH[n], 64 bits (15, R491)
  | stwThmDie  -- STW.THM.DIE, 64 bits (15, R491)
  | stwThmCt  -- STW.THM.CT[i], 32 bits (15, R491)
  | nirCoolMeas  -- NIR.COOL.MEAS, 64 bits (15, R491)
  | nirCoolCfg  -- NIR.COOL.CFG, 32 bits (15, R491)
  | nirCoolMargin  -- NIR.COOL.MARGIN, 64 bits (15, R491)
  | nirThmStat  -- NIR.THM.STAT, 32 bits (15, R491)
  | nirThmSdrec  -- NIR.THM.SDREC, 64 bits (15, R491)
  | nirKindleStat  -- NIR.KINDLE.STAT, 32 bits (16, R517)
  | nirKindleCmd  -- NIR.KINDLE.CMD, 32 bits (16, R517)
  | nirKindleCfg  -- NIR.KINDLE.CFG, 32 bits (16, R517)
  | nirEvqBase  -- NIR.EVQ.BASE, 64 bits (16, R517)
  | nirEvqCfg  -- NIR.EVQ.CFG, 32 bits (16, R517)
  | nirEvqProd  -- NIR.EVQ.PROD, 32 bits (16, R517)
  | nirEvqCnt  -- NIR.EVQ.CNT, 32 bits (16, R517)
  | nirEmberStat  -- NIR.EMBER.STAT, 32 bits (16, R517)
  | nirEmberCmd  -- NIR.EMBER.CMD, 32 bits (16, R517)
  | nirEmberCfg  -- NIR.EMBER.CFG, 32 bits (16, R517)
  | srvFaultHalt  -- SRV.FAULT.HALT, 64 bits (16, R517)
  | srvFaultCnt  -- SRV.FAULT.CNT, 64 bits (16, R517)
  | nirIdInfo  -- NIR.ID.INFO, 32 bits (17, R535)
  | nirIdSerial  -- NIR.ID.SERIAL, 64 bits (17, R535)
  | nirIdMac  -- NIR.ID.MAC, 64 bits (17, R535)
  | nirIdLimits  -- NIR.ID.LIMITS, 64 bits (17, R535)
  | nirIdSites  -- NIR.ID.SITES, 32 bits (17, R535)
  | cluSbufScrub  -- CLU.SBUF.SCRUB, 32 bits (08, R290)
  | cluSbufEcc  -- CLU.SBUF.ECC, 32 bits (08, R290)
  | cluWinRej  -- CLU.WIN.REJ, 64 bits (08, R290)
  | stkWinRej  -- STK.WIN.REJ, 64 bits (08, R290)
  | cluTallyGen  -- CLU.TALLY.GEN, 32 bits (09, R319)
  | stwTallyGen  -- STW.TALLY.GEN, 32 bits (09, R319)
  | nirTallyAddr  -- NIR.TALLY.ADDR, 32 bits (09, R319)
  | nirTallyData  -- NIR.TALLY.DATA, 64 bits (09, R319)
  | srvRingProdaddr  -- SRV.RING[r].PRODADDR, 64 bits (11, R383)
  | stwShardLen  -- STW.SHARD.LEN, 64 bits (12, R408)
  | stwShardRefDigest  -- STW.SHARD.REF.DIGEST[j], 64 bits (12, R408)
  | lnkChkCfg  -- LNK[p].CHK.CFG, 32 bits (12, R408)
  | lnkChkCnt  -- LNK[p].CHK.CNT, 64 bits (12, R408)
  | nirBilLot  -- NIR.BIL[b].LOT, 64 bits (14, R468)
  | nirEvqProdaddr  -- NIR.EVQ.PRODADDR, 64 bits (16, R517)
  | nirEvqCons  -- NIR.EVQ.CONS, 32 bits (16, R517)
  | coreDesc  -- CORE.DESC[d], 256 bits (06, R223)
  | coreWin  -- CORE.WIN[i], 128 bits (08, R282)
  | cluWin  -- CLU.WIN[i], 128 bits (08, R282)
  | stkWin  -- STK.WIN[i], 128 bits (08, R282)
  | coreKvfRoleHome  -- CORE.KVF.ROLE[r].HOME[h], 32 bits (07, R257)
  | coreKvfRoleSeat  -- CORE.KVF.ROLE[r].SEAT[σ], 64 bits (07, R232)
  | coreKvfRoleSlot  -- CORE.KVF.ROLE[r].SLOT[s], 32 bits (07, R232)
  | hstQp  -- HST.QP[q], 512 bits (13, R433)
  | hstTflow  -- HST.TFLOW[p][r], 512 bits (13, R435)
  | hstMr  -- HST.MR[k], 256 bits (13, R434)
  | nirMgmtPeer  -- NIR.MGMT.PEER[i], 128 bits (13, R437)
  | hstMsix  -- HST.MSIX[v], 128 bits (13, R427)
  | hstPba  -- HST.PBA[w], 64 bits (13, R427)
  | nirKindleRep  -- NIR.KINDLE.REP[s], 320 bits (16, R499)
  | nirFpHead  -- NIR.FP.HEAD, 256 bits (16, R500)
  | nirFpDie  -- NIR.FP.DIE[d], 512 bits (16, R500)
  | nirFpClu  -- NIR.FP.CLU[d][i], 128 bits (16, R500)
  deriving DecidableEq, Repr

/-- The instance of a register: the die, cluster and core it belongs to (0 where the unit has none) and the
register name's own indices in order (R13): `n` the first, `m` the second. -/
structure Ix where
  die : Nat := 0
  clu : Nat := 0
  core : Nat := 0
  n : Nat := 0
  m : Nat := 0
  deriving DecidableEq, Repr

/-- A named field of a register: the register, its lowest bit and its width. -/
structure Fld where
  reg : Reg
  lo : Nat
  width : Nat
  deriving DecidableEq, Repr

/-- The key of one field of one register instance in the register file of the state. -/
structure FKey where
  reg : Reg
  lo : Nat
  ix : Ix
  deriving DecidableEq, Repr

end Sys2Proof
end

