-- ==== Sys2Proof/Word.lean ====
section
/-!
DEFINITION. The word types and the identifiers of units: dies, clusters, cores, array engines, partitions (R2, R6, R20).
-/

namespace Sys2Proof

abbrev Byte := BitVec 8
abbrev Word32 := BitVec 32
abbrev Word64 := BitVec 64

/-- A 48-bit fabric address (R11). -/
abbrev Addr := BitVec 48

abbrev DieIx := Fin 24
abbrev CluIx := Fin 128
abbrev PartIx := Fin 8

/-- A cluster of a die: cluster index y × 16 + x. -/
structure CluId where
  die : DieIx
  clu : CluIx
  deriving DecidableEq, Repr

/-- A core of a cluster. -/
structure CoreId where
  die : DieIx
  clu : CluIx
  core : Fin 4
  deriving DecidableEq, Repr

/-- An array engine of a core. -/
structure ArrId where
  die : DieIx
  clu : CluIx
  core : Fin 4
  arr : Fin 64
  deriving DecidableEq, Repr

def CoreId.cluId (c : CoreId) : CluId := ⟨c.die, c.clu⟩
def ArrId.coreId (a : ArrId) : CoreId := ⟨a.die, a.clu, a.core⟩
def CoreId.arr (c : CoreId) (a : Fin 64) : ArrId := ⟨c.die, c.clu, c.core, a⟩

def CoreId.ix (c : CoreId) (n : Nat := 0) (m : Nat := 0) : Ix := ⟨c.die, c.clu, c.core, n, m⟩
def CluId.ix (c : CluId) (n : Nat := 0) (m : Nat := 0) : Ix := ⟨c.die, c.clu, 0, n, m⟩
def ArrId.ix (a : ArrId) (m : Nat := 0) : Ix := ⟨a.die, a.clu, a.core, a.arr, m⟩

/-- Instance of a register of die d's steward. -/
def Ix.stw (d : Nat) (n : Nat := 0) (m : Nat := 0) : Ix := ⟨d, 0, 0, n, m⟩

/-- Instance of a register of Nirdo or of a serving block: only the name's own indices. -/
def Ix.mod (n : Nat := 0) (m : Nat := 0) : Ix := ⟨0, 0, 0, n, m⟩

/-- A memory unit that can be fenced (R287, R289): a shared-buffer unit, a channel group of a stack side, a region. -/
inductive FenceUnit where
  | sbuf (c : CluId) (u : Fin 8)
  | group (d : DieIx) (side : Fin 2) (g : Fin 4)
  | region (c : CluId)
  deriving DecidableEq, Repr

/-- A memory bank with a wheel: a scratchpad bank, or a bank of a shared-buffer unit (R258, R267). -/
inductive BankId where
  | spad (c : CoreId) (bank : Fin 8)
  | sbuf (c : CluId) (u : Fin 8) (bank : Fin 8)
  deriving DecidableEq, Repr

/-- How a stack read ended (R277): no error, the retry succeeded, the retry failed. -/
inductive ReadEcc where
  | clean | retried | failed
  deriving DecidableEq, Repr

/-- A link frame (R413): the 192 header bits of Tables 13.2 and 13.3, and its payload. -/
structure Frame where
  hdr : BitVec 192
  data : List Byte
  deriving DecidableEq, Repr

/-- Who asks for a clock step (R43, R425, R466, R513). -/
inductive StepSource where
  | ceil | governor | thermal | root | ember
  deriving DecidableEq, Repr

/-- What stage K3 found on a stack side: whether it trained, lanes repaired, return latency at step 5. -/
structure SideTest where
  die : DieIx
  side : Fin 2
  trained : Bool
  lanes : Nat
  rtn : Fin 4096
  deriving DecidableEq, Repr

/-- What stage K4 measured: links that failed their pattern tests (cluster, router port), bridge latency from a die over an edge,
halt-line latency by die, stack return latency by die, side and step. -/
structure LinkTests where
  failed : List (CluId × Fin 7)
  bridge : List (DieIx × Fin 4 × Fin 256)
  halt : List (DieIx × Fin 32)
  rtn : List (DieIx × Fin 2 × Fin 6 × Fin 4096)
  deriving DecidableEq, Repr

/-- What the known-answer run of stage K6 found (Table 16.2): arrays, cores and
shared-buffer units that failed twice, clusters whose loop-back tests failed, and whether every engine has a result. -/
structure KnownAnswers where
  arrays : List ArrId
  cores : List CoreId
  sbufs : List (CluId × Fin 8)
  unpowerable : List CluId
  complete : Bool
  deriving DecidableEq, Repr

/-- A kindling command of the console (R436): a full kindling, an ember entry or exit of a partition or of the module. -/
inductive ConsoleKindle where
  | full
  | enter (scope : Option PartIx)
  | leave (scope : Option PartIx)
  deriving DecidableEq, Repr

/-- The operand fields of a form-VR instruction (Table 06.8). -/
structure VrOperands where
  d : Fin 32
  a : Fin 32
  b : Fin 32
  c : Fin 32
  ty : Fin 4
  bs : Bool
  sub : Fin 8
  aux8 : Fin 256
  deriving DecidableEq, Repr

end Sys2Proof
end

