-- ==== Sys2Proof/Syntax.lean ====
section
/-!
DEFINITION. The commands of the block: one constructor per row of spec/opcode_table.json.
An operand is what the operation names or what the event brings from outside the block (a measurement, a frame, a value on
the bus); everything else an operation needs is in the state.
-/

namespace Sys2Proof

/-- The commands, in the table's order, those without operands last. -/
inductive Instr where
  /-- REGISTER_WRITE (R14). 32 or 64 bits from word w of the register -/
  | registerWrite (r : Reg) (ix : Ix) (w : Fin 16) (wide : Bool) (v : Word64)
  /-- RC_COUNTER_READ (R16). Lowest bit of the field; a hardware increment in the same cycle -/
  | rcCounterRead (r : Reg) (ix : Ix) (lo : Fin 512) (inc : Bool)
  /-- STEWARD_COMMAND (R27). -/
  | stewardCommand (d : DieIx)
  /-- HOST_STITCH_REQUEST (R28). -/
  | hostStitchRequest (c : CluId) (on : Bool) (t : BitVec 64)
  /-- CLOCK_STEP_REQUEST (R43). -/
  | clockStepRequest (src : StepSource)
  /-- CLOCK_STEP_ANNOUNCE (R42). The stitch Nirdo names. -/
  | clockStepAnnounce (at_ : BitVec 64)
  /-- STANDBY_PLL_LOCK_LOSS (R44). -/
  | standbyPllLockLoss (d : DieIx)
  /-- PLL_RELOCK (R41). -/
  | pllRelock (d : DieIx)
  /-- CEIL_STEP_WRITE (R45). -/
  | ceilStepWrite (v : Fin 8)
  /-- SET_EXCHANGE (R52). The named exchange stitch has come on a core. -/
  | setExchange (c : CoreId)
  /-- BUNDLE_ISSUE (R171). -/
  | bundleIssue (c : CoreId)
  /-- STITCH_LAUNCH (R172). -/
  | stitchLaunch (c : CoreId)
  /-- SYNC_LAUNCH (R173). -/
  | syncLaunch (c : CoreId)
  /-- SYNC_TIMEOUT (R173). -/
  | syncTimeout (c : CoreId)
  /-- PARTITION_HALT (R190). -/
  | partitionHalt (p : PartIx)
  /-- SCHEDULE_FAULT_EVENT (R192). -/
  | scheduleFaultEvent (p : PartIx)
  /-- TASK_LAUNCH (R176). -/
  | taskLaunch (c : CoreId)
  /-- CREDIT_CAP_CHANGE (R185). -/
  | creditCapChange (c : CluId)
  /-- CAP_ENFORCE_START (R185). -/
  | capEnforceStart (c : CluId)
  /-- AMV (R202). Exact array operation of a core's group, latch and first destination line. -/
  | amv (c : CoreId) (grp : Fin 16) (lat : Fin 8) (dst : Fin 1024)
  /-- AMVW (R202). Wide array operation. -/
  | amvw (c : CoreId) (grp : Fin 16) (lat : Fin 8) (dst : Fin 1024)
  /-- ARRAY_OP_COMPLETE (R74). An array's due operation completes. -/
  | arrayOpComplete (a : ArrId)
  /-- RESULT_LINE_WRITE (R81). The buffered line due in this cycle is written. -/
  | resultLineWrite (c : CoreId)
  /-- LDL (R203). Load an input latch from a half-line. -/
  | ldl (c : CoreId) (lat : Fin 8) (fmt : Fin 4) (src : Fin 2048)
  /-- LATCH_LANDING (R80). A due latch load lands. -/
  | latchLanding (c : CoreId)
  /-- XSET (R204). Schedule the set exchange. -/
  | xset (c : CoreId) (idx : Fin 4)
  /-- VADD (R206). -/
  | vadd (c : CoreId) (f : VrOperands)
  /-- VSUB (R206). -/
  | vsub (c : CoreId) (f : VrOperands)
  /-- VMUL (R206). -/
  | vmul (c : CoreId) (f : VrOperands)
  /-- VFMA (R206). -/
  | vfma (c : CoreId) (f : VrOperands)
  /-- VMAX (R206). -/
  | vmax (c : CoreId) (f : VrOperands)
  /-- VMIN (R206). -/
  | vmin (c : CoreId) (f : VrOperands)
  /-- VCMP (R206). -/
  | vcmp (c : CoreId) (f : VrOperands)
  /-- VSEL (R206). -/
  | vsel (c : CoreId) (f : VrOperands)
  /-- VMOV (R206). -/
  | vmov (c : CoreId) (f : VrOperands)
  /-- VMOVS (R206). -/
  | vmovs (c : CoreId) (f : VrOperands)
  /-- VCVT (R207). -/
  | vcvt (c : CoreId) (f : VrOperands)
  /-- VSWP (R206). -/
  | vswp (c : CoreId) (f : VrOperands)
  /-- VRSUM (R208). -/
  | vrsum (c : CoreId) (f : VrOperands)
  /-- VRMAX (R206). -/
  | vrmax (c : CoreId) (f : VrOperands)
  /-- VEXP (R206). -/
  | vexp (c : CoreId) (f : VrOperands)
  /-- VRCP (R206). -/
  | vrcp (c : CoreId) (f : VrOperands)
  /-- VRSQ (R206). -/
  | vrsq (c : CoreId) (f : VrOperands)
  /-- VSMX (R216). -/
  | vsmx (c : CoreId) (d src : Fin 32) (m : Fin 4) (n : Fin 16) (first : Bool)
  /-- VLD (R210). -/
  | vld (c : CoreId) (d : Fin 32) (ofs : Fin 8192) (ty : Fin 8) (ind : Bool) (z : Fin 16)
  /-- VST (R210). -/
  | vst (c : CoreId) (src : Fin 32) (ofs : Fin 8192) (ty : Fin 8) (ind : Bool) (z : Fin 16)
  /-- VLDS (R210). -/
  | vlds (c : CoreId) (d : Fin 16) (sz : Fin 4) (ofs : Fin 262144) (ind : Bool) (z : Fin 16)
  /-- VSTS (R210). -/
  | vsts (c : CoreId) (src : Fin 16) (sz : Fin 4) (ofs : Fin 262144) (ind : Bool) (z : Fin 16)
  /-- VECTOR_RESULT_WRITEBACK (R199). Every due result becomes the register's held value. -/
  | vectorResultWriteback (c : CoreId)
  /-- QSC (R211). -/
  | qsc (c : CoreId) (src : Fin 32) (kind fmt : Fin 4) (tsi z : Fin 16) (k : Fin 4)
  /-- QNT (R212). -/
  | qnt (c : CoreId) (d src : Fin 32) (fmt kind pur k : Fin 4) (blk : Fin 128) (sub z : Fin 16)
  /-- VPSC (R213). -/
  | vpsc (c : CoreId) (a : Fin 32) (line : Fin 1024) (ws : Fin 32) (z : Fin 16) (wf : Fin 4) (wid md li : Fin 2) (first : Bool) (k : Fin 4)
  /-- VDQ (R214). -/
  | vdq (c : CoreId) (d src : Fin 32) (fmt : Fin 4) (grp : Fin 8) (z : Fin 16) (k : Fin 4)
  /-- VQKT (R215). -/
  | vqkt (c : CoreId) (d x : Fin 32) (tile : Fin 1024) (sv : Fin 32) (ss : Fin 4) (fmt h : Fin 2) (first : Bool) (k : Fin 4)
  /-- VPVT (R215). -/
  | vpvt (c : CoreId) (d x : Fin 32) (tile : Fin 1024) (sv : Fin 32) (ss : Fin 4) (fmt h : Fin 2) (first : Bool) (k : Fin 4)
  /-- VCTX (R217). -/
  | vctx (c : CoreId) (ks ps xs : Fin 16) (layer : Fin 256)
  /-- END (R218). -/
  | end_ (c : CoreId)
  /-- JMP (R218). -/
  | jmp (c : CoreId) (tgt : Fin 2048)
  /-- LOOP (R218). -/
  | loop_ (c : CoreId) (nM1 : Fin 65536)
  /-- ELP (R218). -/
  | elp (c : CoreId)
  /-- STLD (R219). -/
  | stld (c : CoreId) (i mode j : Fin 4) (imm : BitVec 24)
  /-- XFER (R221). -/
  | xfer (c : CoreId) (d : Fin 64)
  /-- SIG (R222). Signal through descriptor d. -/
  | sig (c : CoreId) (d : Fin 64)
  /-- SIGL (R304). -/
  | sigl (c : CoreId) (obj : Fin 128) (inc : Fin 256)
  /-- SRST (R304). -/
  | srst (c : CoreId) (obj : Fin 128)
  /-- SLI (R219). -/
  | sli (c : CoreId) (z : Fin 16) (imm : BitVec 20)
  /-- SLH (R219). -/
  | slh (c : CoreId) (z : Fin 16) (imm : BitVec 12)
  /-- SADD (R219). -/
  | sadd (c : CoreId) (z a : Fin 16) (imm : BitVec 20)
  /-- ROW_WRITE (R89). Weight-plane write of rows at an offset of core c. -/
  | rowWrite (c : CoreId) (ofs : Nat) (data : List Byte)
  /-- ROW_READBACK (R90). Weight-plane readback of n bytes. -/
  | rowReadback (c : CoreId) (ofs n : Nat)
  /-- ARRAY_CLEAR_DONE (R92). -/
  | arrayClearDone (a : ArrId)
  /-- AGE_UPDATE (R100), for one cluster. -/
  | ageUpdate (c : CluId)
  /-- CAL_SLOT_START (R108). Calibration entry i of a core has a slot at this stitch. -/
  | calSlotStart (c : CoreId) (i : Fin 8)
  /-- CAL_SLOT_END (R104). -/
  | calSlotEnd (c : CoreId) (i : Fin 8)
  /-- PRECISION_WINDOW_END (R155). -/
  | precisionWindowEnd (die : DieIx)
  /-- PRECISION_FLAG_NOTICE (R156). -/
  | precisionFlagNotice (die : DieIx)
  /-- PRECISION_LEAD_EVALUATE (R157). -/
  | precisionLeadEvaluate (p : PartIx)
  /-- KV_APPEND (R236). -/
  | kvAppend (c : CoreId) (r : Fin 2)
  /-- KV_STAGING (R237). -/
  | kvStaging (c : CoreId) (r : Fin 2) (k : Fin 64)
  /-- SEAT_OPEN (R250). -/
  | seatOpen (p : PartIx) (σ : Fin 512) (t : BitVec 64)
  /-- SEAT_FREE (R249). -/
  | seatFree (p : PartIx) (σ : Fin 512) (t : BitVec 64)
  /-- FORK (R247). -/
  | fork (p : PartIx) (src dst : Fin 512) (npos : Fin 131072) (t : BitVec 64)
  /-- SPILL (R252). -/
  | spill (p : PartIx) (σ : Fin 512) (i0 : Fin 131072) (n : Fin 1024) (t : BitVec 64)
  /-- RECALL (R252). -/
  | recall (p : PartIx) (σ : Fin 512) (i0 : Fin 131072) (n : Fin 1024) (t : BitVec 64)
  /-- KV_COMMAND_EFFECT (R250). -/
  | kvCommandEffect (p : PartIx)
  /-- KV_COPY_DONE (R251). -/
  | kvCopyDone (i : Nat) (e : ReadEcc)
  /-- PASS_NOTICE (R254). -/
  | passNotice (c : CoreId) (r : Fin 2) (k : Fin 64) (σ : Fin 512)
  /-- RW_QUEUE_REQUEST (R261). A dynamic access within one line: a write of w, or a read of n bytes. -/
  | rwQueueRequest (port : Fin 2) (a : Addr) (w : Option (List Byte)) (n : Nat)
  /-- RW_ACCESS (R261). -/
  | rwAccess (b : BankId)
  /-- ECC_WRITEBACK (R265). -/
  | eccWriteback (b : BankId)
  /-- SCRUB_LINE (R266). flip: an upset the line has suffered (word, past correction). -/
  | scrubLine (b : BankId) (flip : Option (Fin 32 × Bool))
  /-- CACHE_INVALIDATE_ALL (R270). -/
  | cacheInvalidateAll (c : CluId)
  /-- STACK_LINE_REQUEST (R273). -/
  | stackLineRequest (c : CluId) (ch : Fin 16)
  /-- STACK_READ_RETURN (R37). -/
  | stackReadReturn (i : Nat) (e : ReadEcc)
  /-- STACK_WRITE (R276). -/
  | stackWrite (die : DieIx) (side : Fin 2)
  /-- TRANSFER_LAUNCH (R278). -/
  | transferLaunch (c : CluId) (ch : Fin 16)
  /-- TRANSFER_SOURCE_READ (R279). -/
  | transferSourceRead (c : CluId) (ch : Fin 16)
  /-- TRANSFER_ARRIVAL (R280). -/
  | transferArrival (id : Nat)
  /-- TRANSFER_LINE_LAND (R166). -/
  | transferLineLand (id : Nat)
  /-- TRANSFER_COMPLETION (R281). -/
  | transferCompletion (id : Nat)
  /-- WINDOW_COMMAND (R283). STW.WINCMD.AT of a die's steward is written. -/
  | windowCommand (die : DieIx) (at_ : BitVec 64)
  /-- WINDOW_COMMAND_EFFECT (R283). -/
  | windowCommandEffect (die : DieIx)
  /-- TENANT_CLEAR (R284). -/
  | tenantClear (p : PartIx)
  /-- STACK_CLEAR_DONE (R285). -/
  | stackClearDone (d : DieIx)
  /-- FENCE_DRAIN_END (R287). -/
  | fenceDrainEnd (u : FenceUnit)
  /-- UNIT_POWER_OFF (R287). -/
  | unitPowerOff (u : FenceUnit)
  /-- GROUP_ZERO_DONE (R288). -/
  | groupZeroDone (d : DieIx) (sd : Fin 2) (g : Fin 4)
  /-- DYNAMIC_FLIT_HOP (R300). Message i takes a hop; ok: its parity check passes. -/
  | dynamicFlitHop (i : Nat) (ok : Bool)
  /-- STATIC_LANE_ERROR (R301). A static-lane flit fails its check at c's port. -/
  | staticLaneError (c : CluId) (port : Fin 7) (lane : Fin 4)
  /-- SIGNAL_MESSAGE (R308). Message i of the fabric reaches its object. -/
  | signalMessage (i : Nat)
  /-- HSIG_WRITE (R304). -/
  | hsigWrite (c : CluId) (obj : Fin 128) (inc : Fin 256) (rst : Bool)
  /-- CINCH_REQUEST (R312). The host writes stitch t into NIR.CINCH.AT. -/
  | cinchRequest (t : BitVec 64)
  /-- CINCH_BROADCAST (R313). -/
  | cinchBroadcast (d : DieIx)
  /-- CINCH_COPY (R314). Units of die d; none: Nirdo. -/
  | cinchCopy (d : Option DieIx)
  /-- CINCH_REPORT (R318). -/
  | cinchReport (d : DieIx)
  /-- PARTITION_WRITE (R320). -/
  | partitionWrite (p : PartIx) (m : BitVec 24)
  /-- HARNESS_LOAD_GO (R326). -/
  | harnessLoadGo (p : PartIx)
  /-- HARNESS_LOAD_DONE (R327). -/
  | harnessLoadDone (p : PartIx)
  /-- KEY_RECORD (R325). -/
  | keyRecord (slot : Fin 36) (x y : BitVec 384) (signer : Fin 4) (sig : List Byte)
  /-- SWAP_REQUEST (R338). -/
  | swapRequest (p : PartIx) (t : BitVec 64)
  /-- PAUSE_START (R342). -/
  | pauseStart (p : PartIx)
  /-- SWAP_COMMIT (R338). -/
  | swapCommit (p : PartIx)
  /-- SWAP_ACTIVATION (R339). -/
  | swapActivation (p : PartIx)
  /-- HRN_LAUNCH (R343). -/
  | hrnLaunch (p : PartIx) (t : BitVec 64)
  /-- ACT_ARRAY_WRITE_DONE (R392). -/
  | actArrayWriteDone (i : Nat)
  /-- SUBQ_TAIL_WRITE (R350). -/
  | subqTailWrite (p : PartIx) (v : Word32)
  /-- DESCRIPTOR_READ (R350). `raw` is what a read of host memory returned. -/
  | descriptorRead (p : PartIx) (raw : List Byte)
  /-- PROMPT_COPY_DONE (R352). Status and token IDs of a copy from host memory. -/
  | promptCopyDone (p : PartIx) (status : Fin 16) (ids : List Word32)
  /-- SEAT_ADMISSION (R354). -/
  | seatAdmission (p : PartIx)
  /-- PREFILL_BOOKING (R362). -/
  | prefillBooking (p : PartIx)
  /-- PASS_START (R359). -/
  | passStart (id : Nat)
  /-- STREAM_ADMISSION (R365). -/
  | streamAdmission (p : PartIx)
  /-- PREFILL_PROMOTION (R366). -/
  | prefillPromotion (p : PartIx) (x : Fin 4096)
  /-- SAMPLER_SAMPLE (R373). The sampling pass `id` delivers its candidate list of (logit, token ID) pairs. -/
  | samplerSample (id : Nat) (cands : List (Word32 × Word32))
  /-- PASS_EMIT (R360). -/
  | passEmit (p : PartIx)
  /-- PASS_COMPLETE (R363). -/
  | passComplete (p : PartIx)
  /-- LATENCY_GOAL_INTERVAL (R377). -/
  | latencyGoalInterval (p : PartIx)
  /-- CANCEL (R378). -/
  | cancel (p : PartIx) (x : Fin 4096)
  /-- RELEASE (R375). -/
  | release (p : PartIx) (x : Fin 4096)
  /-- RING_RECORD_WRITE (R380). -/
  | ringRecordWrite (p : PartIx) (r : Fin 16)
  /-- RING_CONS_WRITE (R380). -/
  | ringConsWrite (p : PartIx) (r : Fin 16) (v : Word32)
  /-- RING_MSIX (R380). -/
  | ringMsix (p : PartIx) (r : Fin 16)
  /-- SHARD_FETCH (R386). Die and queue pair -/
  | shardFetch (d : DieIx) (q : Fin 256)
  /-- SHARD_VERIFY (R387). -/
  | shardVerify (d : DieIx)
  /-- SHARD_ABORT (R389). -/
  | shardAbort (d : DieIx)
  /-- RDMA_READ_RESPONSE (R386). Next bytes of the oldest request outstanding -/
  | rdmaReadResponse (d : DieIx) (data : List Byte)
  /-- SHARD_HASH_DONE (R388). -/
  | shardHashDone (d : DieIx)
  /-- QP_ERROR (R389). Queue pair and syndrome -/
  | qpError (q : Fin 256) (synd : Fin 256)
  /-- RELOAD_LINE_LAND (R395). Transfer -/
  | reloadLineLand (id : Nat)
  /-- DIGEST_SLOT_START (R397). Core and entry -/
  | digestSlotStart (c : CoreId) (i : Fin 4)
  /-- DIGEST_READBACK_DONE (R399). -/
  | digestReadbackDone (c : CoreId)
  /-- DIGEST_STACK_HASH_DONE (R400). -/
  | digestStackHashDone (c : CoreId)
  /-- SHARD_SWEEP (R401). -/
  | shardSweep (d : DieIx)
  /-- CHK_REGISTER_WRITE (R404). Cluster, channel, RUN or CFG, value -/
  | chkRegisterWrite (c : CluId) (ch : Fin 16) (run : Bool) (v : Word64)
  /-- TORUS_ID_WRITE (R411). -/
  | torusIdWrite (v : Word32)
  /-- LINK_TRAIN (R412). -/
  | linkTrain (p : Fin 6)
  /-- LINK_TRAINING_DONE (R412). Whether every lane locked within 100 ms -/
  | linkTrainingDone (p : Fin 6) (locked : Bool)
  /-- LINK_FRAME_CHECK_FAIL (R406). -/
  | linkFrameCheckFail (p : Fin 6)
  /-- WRITE_FRAME (R420). -/
  | writeFrame (p : Fin 6) (f : Frame)
  /-- COMPL_FRAME (R420). -/
  | complFrame (p : Fin 6) (f : Frame)
  /-- SIGNAL_FRAME (R419). -/
  | signalFrame (p : Fin 6) (f : Frame)
  /-- TSYNC_REQ (R422). Times of receipt and of the answer -/
  | tsyncReq (p : Fin 6) (f : Frame) (t2 t3 : Word64)
  /-- TSYNC_RESP (R422). Time of receipt -/
  | tsyncResp (p : Fin 6) (f : Frame) (t4 : Word64)
  /-- TSYNC_STEP (R425). -/
  | tsyncStep (p : Fin 6) (f : Frame)
  /-- LCTL_ACK (R416). -/
  | lctlAck (p : Fin 6) (f : Frame)
  /-- LCTL_NAK (R416). -/
  | lctlNak (p : Fin 6) (f : Frame)
  /-- LCTL_IDENT (R412). -/
  | lctlIdent (p : Fin 6) (f : Frame)
  /-- LCTL_SEND (R415). -/
  | lctlSend (p : Fin 6)
  /-- FRAME_FORWARD (R417). A received frame, or none for the module's own injection -/
  | frameForward (from_ : Option (Fin 6 × Frame))
  /-- LANE_LOCK_LOST (R416). -/
  | laneLockLost (p : Fin 6)
  /-- TIME_EXCHANGE (R424). Send time -/
  | timeExchange (t1 : Word64)
  /-- ATTACHMENT_SWITCH (R504). -/
  | attachmentSwitch (p : Fin 6)
  /-- BAR0_ACCESS (R428). A write with its value, or a read, of n bytes -/
  | bar0Access (ofs : BitVec 28) (w : Option Word64) (n : Nat)
  /-- BAR2_ACCESS (R431). Offset, bytes written or count read -/
  | bar2Access (ofs : BitVec 36) (w : Option (List Byte)) (n : Nat) (e : ReadEcc)
  /-- QP_ENABLE_WRITE (R433). -/
  | qpEnableWrite (q : Fin 256) (en : Bool)
  /-- RDMA_WRITE_REQUEST (R434). -/
  | rdmaWriteRequest (q : Fin 256) (psn : BitVec 24) (rkey : Word32) (va : Word64) (data : List Byte) (ecn : Bool)
  /-- RDMA_READ_REQUEST (R434). -/
  | rdmaReadRequest (q : Fin 256) (psn : BitVec 24) (rkey : Word32) (va : Word64) (n : Nat) (ecn : Bool) (e : ReadEcc)
  /-- RDMA_INVALID_REQUEST (R432). -/
  | rdmaInvalidRequest (q : Fin 256)
  /-- CNP_RECEIVE (R432). -/
  | cnpReceive (q : Fin 256)
  /-- TOKEN_DATAGRAM_SEND (R435). -/
  | tokenDatagramSend (p : PartIx) (r : Fin 16)
  /-- MGMT_READ32 (R437). -/
  | mgmtRead32 (src : BitVec 128) (tag : Byte) (ofs : Word32)
  /-- MGMT_WRITE32 (R437). -/
  | mgmtWrite32 (src : BitVec 128) (tag : Byte) (ofs : Word32) (v : Word64)
  /-- MGMT_READ64 (R437). -/
  | mgmtRead64 (src : BitVec 128) (tag : Byte) (ofs : Word32)
  /-- MGMT_WRITE64 (R437). -/
  | mgmtWrite64 (src : BitVec 128) (tag : Byte) (ofs : Word32) (v : Word64)
  /-- MGMT_CONSOLE_BYTES (R437). -/
  | mgmtConsoleBytes (src : BitVec 128) (tag : Byte) (bs : List Byte)
  /-- MGMT_BAD_OP (R437). -/
  | mgmtBadOp (src : BitVec 128) (op tag : Byte)
  /-- JTAG_SAMPLE_PRELOAD (R436). -/
  | jtagSamplePreload (pins preload : Nat)
  /-- JTAG_EXTEST (R436). -/
  | jtagExtest (pins : Nat)
  /-- JTAG_KEY_PROGRAM (R436). -/
  | jtagKeyProgram (slot : Fin 4) (x y : BitVec 384)
  /-- CONSOLE_REGISTER_READ (R436). -/
  | consoleRegisterRead (ofs : Word32) (wide : Bool)
  /-- CONSOLE_REGISTER_WRITE (R436). -/
  | consoleRegisterWrite (ofs : Word32) (wide : Bool) (v : Word64)
  /-- CONSOLE_KINDLING_COMMAND (R436). -/
  | consoleKindlingCommand (k : ConsoleKindle)
  /-- BUS_LOW (R439). Bus voltage in 10 mV -/
  | busLow (v : Fin 65536)
  /-- BUS_EMBER_RANGE (R439). Bus voltage in 10 mV -/
  | busEmberRange (v : Fin 65536)
  /-- BUS_UNDERVOLTAGE (R439). Bus voltage in 10 mV, and whether the hold-up allows the event -/
  | busUndervoltage (v : Fin 65536) (holdup : Bool)
  /-- BUS_HIGH (R439). Bus voltage in 10 mV -/
  | busHigh (v : Fin 65536)
  /-- BUS_OVERVOLTAGE (R439). Bus voltage in 10 mV, and whether the hold-up allows the event -/
  | busOvervoltage (v : Fin 65536) (holdup : Bool)
  /-- BUS_RESTORED (R439). Bus voltage in 10 mV -/
  | busRestored (v : Fin 65536)
  /-- BUS_POWER_ON (R492). Bus in 10 mV, identity area, manufacture lock, sockets changed while the bus was off -/
  | busPowerOn (v : Fin 65536) (ident : List Byte) (lock : Bool) (sockets : List (Fin 48 × Option (List Byte)))
  /-- BILLET_REPORT (R441). Output and input current in 0.25 A, baseplate temperature in 0.25 °C from −40 °C -/
  | billetReport (b : Fin 48) (iout iin : Fin 4096) (tbp : Fin 1024)
  /-- BILLET_TRIP (R446). Socket and cause of Table 14.14 -/
  | billetTrip (b : Fin 48) (cause : Fin 4)
  /-- BILLET_WITHDRAWN (R523). -/
  | billetWithdrawn (b : Fin 48)
  /-- REGION_CURRENT_REPORT (R452). Region, or none for the transit rail; mean current in 10 mA; droop sensor readings in mV -/
  | regionCurrentReport (d : DieIx) (i : Option CluIx) (cur : Fin 65536) (droop : List Nat)
  /-- PHASE_FAILURE (R454). -/
  | phaseFailure (c : CluId) (i : Fin 9)
  /-- REGION_ON (R462). -/
  | regionOn (c : CluId) (t : BitVec 64)
  /-- REGION_OFF (R462). -/
  | regionOff (c : CluId) (t : BitVec 64)
  /-- REGION_PREP_END (R456). The phases that fail their test -/
  | regionPrepEnd (c : CluId) (failing : BitVec 9)
  /-- REGION_HEADER_STAGE (R457). -/
  | regionHeaderStage (c : CluId)
  /-- REGION_WAIT_RECHECK (R457). -/
  | regionWaitRecheck (c : CluId)
  /-- REGION_SLOW_LADDER (R458). -/
  | regionSlowLadder (c : CluId)
  /-- REGION_CLEARING_END (R456). -/
  | regionClearingEnd (c : CluId)
  /-- REGION_POWER_DOWN (R460). -/
  | regionPowerDown (c : CluId)
  /-- REGION_HEADER_OPEN (R460). -/
  | regionHeaderOpen (c : CluId)
  /-- REGION_SHORT (R461). -/
  | regionShort (c : CluId)
  /-- GOVERNOR_INPUT_CHECK (R465). The input power has been above its limit for the stated time: the 100 µs peak, or the sustained limit -/
  | governorInputCheck (peak : Bool)
  /-- CONVERSION_SLOT (R470). Converter, result, and its temperature by the steward's calibration -/
  | conversionSlot (d : DieIx) (k : Fin 2) (code : Fin 4096) (temp : Int)
  /-- TELEMETRY_FRAME_END (R470). Latest readouts of the stacks' own sensors -/
  | telemetryFrameEnd (d : DieIx) (r0 r1 : Option Int)
  /-- CHANNEL_TRIGGER (R473). -/
  | channelTrigger (d : DieIx) (ch : Fin 512)
  /-- URGENT_CONVERSION (R475). -/
  | urgentConversion (d : DieIx) (k : Fin 2) (code : Fin 4096)
  /-- TLM_URG_WRITE (R476). -/
  | tlmUrgWrite (d : DieIx) (ch : Fin 512)
  /-- ACC_CLEAR (R474). -/
  | accClear (d : DieIx) (k : Fin 64)
  /-- QUEUE_READ (R474). -/
  | queueRead (d : DieIx)
  /-- MAIN_REF_ENABLE (R471). -/
  | mainRefEnable (d : DieIx) (en : Bool)
  /-- MAIN_REF_SETTLED (R471). -/
  | mainRefSettled (d : DieIx)
  /-- FALLBACK_SELECT (R471). -/
  | fallbackSelect (d : DieIx) (v : Fin 4)
  /-- FALLBACK_SETTLED (R471). -/
  | fallbackSettled (d : DieIx)
  /-- THERMAL_REPORT (R481). Whether the hold-up allows the event of a hard shutdown -/
  | thermalReport (d : DieIx) (holdup : Bool)
  /-- NIRDO_SAMPLE (R484). Bus voltage in 10 mV, input current in 10 mA, inlet and outlet codes when converted -/
  | nirdoSample (v i : Fin 65536) (temps : Option (Int × Int))
  /-- FLOW_PULSE (R485). Width of the pulse -/
  | flowPulse (ns : Nat)
  /-- KINDLE_STAGE_K0 (R443). Duration; conditions met; sockets whose identity memory does not answer; dies whose rail is not in regulation -/
  | kindleStageK0 (us : Word32) (supply coolant : Bool) (mute : BitVec 48) (railBad : BitVec 24)
  /-- KINDLE_STAGE_K1 (R30). Duration; reference present; dies with a PLL not locked -/
  | kindleStageK1 (us : Word32) (ref : Bool) (unlocked : BitVec 24)
  /-- KINDLE_STAGE_K2 (R493). Duration; dies whose steward fails; dies whose main reference has settled -/
  | kindleStageK2 (us : Word32) (failed mainOk : BitVec 24)
  /-- KINDLE_STAGE_K3 (R493). -/
  | kindleStageK3 (us : Word32) (tests : List SideTest)
  /-- KINDLE_STAGE_K4 (R493). -/
  | kindleStageK4 (us : Word32) (t : LinkTests)
  /-- KINDLE_STAGE_K5 (R423). -/
  | kindleStageK5 (us : Word32)
  /-- KINDLE_STAGE_K6 (R496). -/
  | kindleStageK6 (us : Word32) (r : KnownAnswers)
  /-- KINDLE_STAGE_K7 (R497). -/
  | kindleStageK7 (us : Word32)
  /-- STAGE_TIME_LIMIT (R493). Dies that have not finished the stage -/
  | stageTimeLimit (unfinished : BitVec 24)
  /-- ROUTE_TABLE_REWRITE (R502). -/
  | routeTableRewrite (die : DieIx)
  /-- EVENT_CONS_WRITE (R506). -/
  | eventConsWrite (v : Word32)
  /-- STEWARD_POLL_TIMEOUT (R509). -/
  | stewardPollTimeout (d : DieIx)
  /-- DIE_DARK (R509). -/
  | dieDark (d : DieIx)
  /-- GRACE_EXPIRY (R512). -/
  | graceExpiry (p : PartIx)
  /-- SERVING_RESUME (R510). -/
  | servingResume (p : PartIx)
  /-- EMBER_ENTER (R513). A partition, or none for the module -/
  | emberEnter (scope : Option PartIx)
  /-- EMBER_EXIT (R514). -/
  | emberExit (scope : Option PartIx)
  /-- EMBER_GATE (R513). -/
  | emberGate (scope : Option PartIx)
  /-- PCIE_CONFIG_WRITE (R506). Dword of configuration space and value -/
  | pcieConfigWrite (ofs : Fin 1024) (v : Word32)
  /-- BILLET_INSERTED (R523). Socket, and the identity memory the billet carries -/
  | billetInserted (b : Fin 48) (mem : List Byte)
  /-- BADTYPE_FRAME (R413). -/
  | badtypeFrame (p : Fin 6) (f : Frame)
  /-- PFC_FRAME (R432). Port, priority, pause quanta -/
  | pfcFrame (n : Fin 4) (prio : Fin 8) (quanta : Fin 65536)
  /-- QP_RETRY_TIMEOUT (R432). -/
  | qpRetryTimeout (q : Fin 256)
  /-- STITCH_BOUNDARY (R30). -/
  | stitchBoundary
  /-- STITCH_LO_READ (R33). -/
  | stitchLoRead
  /-- STEP_COMMIT (R44). -/
  | stepCommit
  /-- CLOCK_STEP_EFFECT (R194). -/
  | clockStepEffect
  /-- NOP (R170). An all-zero slot: nothing is issued. -/
  | nop
  /-- CREDIT_WINDOW_START (R181). -/
  | creditWindowStart
  /-- AGE_SAVE (R101). -/
  | ageSave
  /-- FUNCTION_LEVEL_RESET (R430). -/
  | functionLevelReset
  /-- PERST_ASSERT (R521). -/
  | perstAssert
  /-- READ_VIN (R436). -/
  | readVin
  /-- READ_IIN (R436). -/
  | readIin
  /-- READ_PIN (R436). -/
  | readPin
  /-- READ_TEMPERATURE_1 (R436). -/
  | readTemperature1
  /-- READ_TEMPERATURE_2 (R436). -/
  | readTemperature2
  /-- STATUS_WORD (R436). -/
  | statusWord
  /-- CLEAR_FAULTS (R436). -/
  | clearFaults
  /-- PMBUS_REVISION (R436). -/
  | pmbusRevision
  /-- MFR_ID (R436). -/
  | mfrId
  /-- MFR_MODEL (R436). -/
  | mfrModel
  /-- MFR_SERIAL (R436). -/
  | mfrSerial
  /-- SMBUS_UNKNOWN_COMMAND (R436). -/
  | smbusUnknownCommand
  /-- JTAG_BYPASS (R436). -/
  | jtagBypass
  /-- JTAG_IDCODE (R436). -/
  | jtagIdcode
  /-- BUS_LOW_REPEAT (R439). -/
  | busLowRepeat
  /-- BILLET_WEAR_UPDATE (R444). -/
  | billetWearUpdate
  /-- BILLET_WEAR_SAVE (R444). -/
  | billetWearSave
  /-- GOVERNOR_RELEASE (R466). -/
  | governorRelease
  /-- THERMAL_RAISE_REPEAT (R481). -/
  | thermalRaiseRepeat
  /-- THERMAL_RELEASE (R482). -/
  | thermalRelease
  /-- FLOW_EVALUATE (R485). -/
  | flowEvaluate
  /-- FLOW_LOSS (R486). -/
  | flowLoss
  /-- MARGIN_ESTIMATE (R487). -/
  | marginEstimate
  /-- INLET_EVALUATE (R488). -/
  | inletEvaluate
  /-- KINDLE_FULL (R492). -/
  | kindleFull
  /-- EVENT_WRITE (R506). -/
  | eventWrite
  /-- PERST_DEASSERT (R521). -/
  | perstDeassert
  deriving DecidableEq, Repr

end Sys2Proof
end

