-- ==== Sys2Proof/Decode.lean ====
section
/-!
DEFINITION. The command that a word of the opcode table spells.  No row of spec/opcode_table.json gives bits: its commands are
operations and events of the block, so no word spells one.
-/

namespace Sys2Proof

/-- The command spelled by the low `nbits` bits of `w`: none, since the table gives no row any bits.  [DESIGN CHOICE, log 6] -/
def decodeTableWord (_nbits _w : Nat) : Option Instr := none

end Sys2Proof
end

