-- ==== Sys2Proof/Config.lean ====
section
/-!
DEFINITION. What an implementation fixes and the values the spec leaves open: opaque constants without a body, so that no
proof can see a value of one.  Each is applied to what it may depend on, the last argument being a draw number of the state
where a fresh value is meant each time.
-/

namespace Sys2Proof

/-- A reload unit of a streaming harness: the arrays it fills, its stored bytes with block scales, and the largest re-issue interval of its
arrays in cycles (R53, R54). -/
structure ReloadUnit where
  arrays : Nat
  bytes : Nat
  interval : Nat
  deriving DecidableEq, Repr, Inhabited

/-- A reload plan: the tokens of a batch, and the units of a pass (R54). -/
structure ReloadPlan where
  batch : Nat
  units : List ReloadUnit
  deriving DecidableEq, Repr, Inhabited

end Sys2Proof

namespace Sys2Proof.Config

/-- Deviation of VEXP's result from the correctly rounded one, in ulps; used only inside the bound of R150.  [DESIGN CHOICE, log 67] -/
opaque expError : Word32 → Int
/-- Deviation of VRCP's result from the correctly rounded one, in ulps; used only inside the bound of R150. -/
opaque rcpError : Word32 → Int
/-- Deviation of VRSQ's result from the correctly rounded one, in ulps; used only inside the bound of R150. -/
opaque rsqError : Word32 → Int
/-- How far a converter departs from the ideal (Table 03.1), as a fraction of the stated amount: converter, source, temperature code, age in
1/16 h.  [DESIGN CHOICE, log 68] -/
opaque convDrift : Nat → Nat → Nat → Rat → Rat
/-- Noise, decision error and non-linearity of one conversion, in LSB of the exact-mode code: bit-column, draw number.  [DESIGN CHOICE, log 68] -/
opaque convNoise : Nat → Nat → Rat
/-- A conversion is one of the few whose code may differ from the count: true at a rate of at most 10^-e (Table 03.4): e, bit-column, draw
number.  [DESIGN CHOICE, log 192] -/
opaque convErr : Nat → Nat → Nat → Bool
/-- A free value where the spec states no result: which value it is, and a draw number. -/
opaque freeNat : Nat → Nat → Nat
/-- Code of a refused steward command in the COMMAND event (Table 16.11): the spec gives no code table.  [DESIGN CHOICE, log 70] -/
opaque commandCode : Nat → Nat

/-- The reload plan of a streaming harness (by HARNESS_ID): the spec gives it no layout.  [DESIGN CHOICE, log 71] -/
opaque reloadPlan : Nat → ReloadPlan
/-- Whether an entry of VEC.CFG.TSCALE (HARNESS_ID, core number, entry) holds the product of two other entries of the core, an activation's
tensor scale and a matrix's, and which: the spec does not say how a harness names them.  [DESIGN CHOICE, log 202] -/
opaque scaleProduct : Nat → Nat → Nat → Option (Nat × Nat)
/-- KV head of the attention set of a lane role (R228, R240): core number and role; the spec names no register that holds it.  [DESIGN CHOICE, log 186] -/
opaque kvHead : Nat → Nat → Nat
/-- Byte form of a key record for a slot and a key (R325): the spec gives none.  [DESIGN CHOICE, log 72] -/
opaque keyRecordBytes : Nat → Nat → Nat → List Byte

/-- Expected code of a converter's bandgap conversion (R472): die and converter; fused, so the spec gives no value.  [DESIGN CHOICE, log 75] -/
opaque bandgapCode : Nat → Nat → Nat

/-- Coding of a reading in the answer of a PMBus command (R436): the spec gives the commands and no data formats.  [DESIGN CHOICE, log 51] -/
opaque pmbusCode : Nat → Nat → Nat

/-- Whether the console's help command lists a kindling command (R436): the spec does not give the list.  [DESIGN CHOICE, log 76] -/
opaque consoleLists : Nat → Bool

/-- The JTAG identification code (R436), to which the spec gives no value. -/
opaque jtagId : Nat

end Sys2Proof.Config
end

