-- ==== Sys2Proof/Machine/Numeric.lean ====
section
/-!
DEFINITION. Number formats and rounding (chapter 04): the integer formats and their packing, BS8, quantising a block, the
counter-based generator, and FP32 arithmetic.  Values are formed exactly as rationals and rounded once.
-/

namespace Sys2Proof.Machine
open Sys2Proof

/-! ## Exact helpers -/

/-- 2^e for an integer exponent. -/
def pow2 (e : Int) : Rat := if 0 ≤ e then ((2 ^ e.toNat : Nat) : Rat) else 1 / ((2 ^ (-e).toNat : Nat) : Rat)

def ratAbs (q : Rat) : Rat := if q < 0 then -q else q

/-- floor (log2 q) of a positive rational. -/
def ratLog2 (q : Rat) : Int :=
  let e : Int := (q.num.toNat.log2 : Int) - (q.den.log2 : Int)
  if pow2 e ≤ q then e else e - 1

/-- Nearest integer, ties to even (R142). -/
def roundRne (v : Rat) : Int :=
  let f := v.floor
  let d := v - (f : Rat)
  if d < 1 / 2 then f else if 1 / 2 < d then f + 1 else if f % 2 = 0 then f else f + 1

/-- Stochastic rounding with a 16-bit draw (R142). -/
def roundSr (v : Rat) (r : Nat) : Int := ((v * 65536).floor + (r : Int)) / 65536

/-- Two's-complement value of the low `w` bits of `n`. -/
def signed (w n : Nat) : Int := (BitVec.ofNat w n).toInt

/-- The low `w` bits of an integer. -/
def lowBits (w : Nat) (i : Int) : Nat := (BitVec.ofInt w i).toNat

/-- Saturate an integer into [lo, hi]. -/
def satInt (lo hi i : Int) : Int := if i < lo then lo else if hi < i then hi else i

/-- Bits [lo + w - 1 : lo] of a number. -/
def bitsOf (n lo w : Nat) : Nat := (n >>> lo) % 2 ^ w

/-- Saturating count of width `w`. -/
def satAdd (w a b : Nat) : Nat := min (a + b) (2 ^ w - 1)

/-! ## Integer formats (R126, R127) -/

/-- Q formats; the two-bit code of a format is 0 Q8, 1 Q4, 2 Q3, 3 Q2 (Table 02.1). -/
inductive QFmt where
  | q8 | q4 | q3 | q2
  deriving DecidableEq, Repr

def QFmt.ofCode : Nat → QFmt
  | 0 => .q8
  | 1 => .q4
  | 2 => .q3
  | _ => .q2

def QFmt.code : QFmt → Nat
  | .q8 => 0 | .q4 => 1 | .q3 => 2 | .q2 => 3

def QFmt.bits : QFmt → Nat
  | .q8 => 8 | .q4 => 4 | .q3 => 3 | .q2 => 2

/-- Largest magnitude a quantising operation produces (Table 04.1). -/
def QFmt.qmax : QFmt → Int
  | .q8 => 127 | .q4 => 7 | .q3 => 3 | .q2 => 1

/-- Value of an element code; Q2 code 10 reads as 0 (R128). -/
def QFmt.value (f : QFmt) (code : Nat) : Int :=
  match f with
  | .q2 => if code % 4 = 1 then 1 else if code % 4 = 3 then -1 else 0
  | f => signed f.bits code

/-- Code of an element value. -/
def QFmt.encode (f : QFmt) (v : Int) : Nat := lowBits f.bits v

/-- Byte string as one little-endian number. -/
def bytesToNat : List Byte → Nat
  | [] => 0
  | b :: bs => b.toNat + 256 * bytesToNat bs

/-- The `n` low bytes of a number, little-endian. -/
def natToBytes : Nat → Nat → List Byte
  | 0, _ => []
  | n + 1, v => BitVec.ofNat 8 v :: natToBytes n (v / 256)

/-- Element i of a packed stream (R127): bits n·i to n·i + n − 1. -/
def unpackElt (f : QFmt) (stream i : Nat) : Nat := bitsOf stream (f.bits * i) f.bits

/-- The codes of `n` packed elements. -/
def unpackCodes (f : QFmt) (bs : List Byte) (n : Nat) : List Nat :=
  let s := bytesToNat bs
  (List.range n).map (unpackElt f s)

/-- Pack element codes into a stream, element 0 lowest (R127). -/
def packStream (f : QFmt) : List Nat → Nat
  | [] => 0
  | c :: cs => c % 2 ^ f.bits + 2 ^ f.bits * packStream f cs

def packCodes (f : QFmt) (cs : List Nat) : List Byte :=
  natToBytes ((f.bits * cs.length + 7) / 8) (packStream f cs)

/-! ## BS8 (R130-R132) -/

/-- Value of a BS8 scale byte. -/
def bs8Decode (b : Nat) : Rat :=
  if b = 0 ∨ b = 0xFF then 0
  else pow2 ((b / 8 : Nat) - 15) * (1 + ((b % 8 : Nat) : Rat) / 8)

/-- Round a positive scale up to the next BS8 value; the flag says it was capped. -/
def bs8EncodeUp (s : Rat) : Nat × Bool :=
  if 114688 < s then (0xFE, true)
  else if s ≤ 9 / 8 * pow2 (-15) then (0x01, false)
  else
    let e := ratLog2 s
    let m := ((s / pow2 e - 1) * 8).ceil
    if m = 8 then (((e + 1 + 15) * 8).toNat, false)
    else (((e + 15) * 8 + m).toNat, false)

/-! ## Generator (R144, R145) -/

/-- The generator of R144. -/
def srgen (key ctr : Word64) : Word32 :=
  let x := ctr ^^^ key
  let x := (x ^^^ (x >>> 30)) * 0xBF58476D1CE4E5B9#64
  let x := (x ^^^ (x >>> 27)) * 0x94D049BB133111EB#64
  let x := x ^^^ (x >>> 31)
  (x >>> 32).truncate 32

/-- The 16-bit draw of element i. -/
def draw (key ctr : Word64) (i : Nat) : Nat :=
  let w := (srgen key (ctr ||| BitVec.ofNat 64 (i / 2))).toNat
  if i % 2 = 0 then w % 65536 else w / 65536

/-- Generator counter (Table 04.6). -/
def rngCounter (purpose layer pos index : Nat) : Word64 :=
  BitVec.ofNat 64 ((purpose % 16) * 2 ^ 60 + (layer % 256) * 2 ^ 52 + (pos % 2 ^ 28) * 2 ^ 24 + index % 2 ^ 24)

/-! ## FP32 (R147) -/

/-- A binary32 operand as the vector engine reads it: subnormals are zero. -/
inductive FP where
  | nan
  | inf (neg : Bool)
  | zero (neg : Bool)
  | num (q : Rat)
  deriving DecidableEq, Repr

/-- The canonical NaN (R147). -/
def canonNaN : Word32 := 0x7FC00000#32

def FP.ofBits (w : Word32) : FP :=
  let n := w.toNat
  let neg := decide (2 ^ 31 ≤ n)
  let e := bitsOf n 23 8
  let m := bitsOf n 0 23
  if e = 255 then (if m = 0 then .inf neg else .nan)
  else if e = 0 then .zero neg
  else
    let v := ((2 ^ 23 + m : Nat) : Rat) * pow2 ((e : Int) - 150)
    .num (if neg then -v else v)

def signBit (neg : Bool) : Nat := if neg then 2 ^ 31 else 0
def infBits (neg : Bool) : Word32 := BitVec.ofNat 32 (signBit neg + 0x7F800000)
def zeroBits (neg : Bool) : Word32 := BitVec.ofNat 32 (signBit neg)

/-- Round a non-zero exact value to binary32, nearest even; a subnormal result is a zero of its sign, an overflow the
signed infinity (R147). -/
def f32Round (q : Rat) : Word32 :=
  let neg := decide (q < 0)
  let a := ratAbs q
  if a = 0 then zeroBits false
  else
    let e := max (ratLog2 a) (-126)
    let m := (roundRne (a / pow2 (e - 23))).toNat
    if m < 2 ^ 23 then zeroBits neg
    else
      let e' := if m = 2 ^ 24 then e + 1 else e
      let m' := if m = 2 ^ 24 then 2 ^ 23 else m
      if 127 < e' then infBits neg
      else BitVec.ofNat 32 (signBit neg + (e' + 127).toNat * 2 ^ 23 + (m' - 2 ^ 23))

def FP.isNeg : FP → Bool
  | .nan => false
  | .inf n => n
  | .zero n => n
  | .num q => decide (q < 0)

/-- FP32 bits of a value: results smaller than 2^-126 are zero, overflow is infinite (R147).  [DEDUCED, log 78] -/
def FP.toBits : FP → Word32
  | .nan => canonNaN
  | .inf n => infBits n
  | .zero n => zeroBits n
  | .num q => f32Round q

/-- Exact value; 0 for a zero, an infinity or a NaN. -/
def FP.val : FP → Rat
  | .num q => q
  | _ => 0

def FP.isNaN : FP → Bool
  | .nan => true
  | _ => false

def FP.isInf : FP → Bool
  | .inf _ => true
  | _ => false

/-- Exact sum of two operands before rounding. -/
def FP.add (x y : FP) : FP :=
  match x, y with
  | .nan, _ => .nan
  | _, .nan => .nan
  | .inf a, .inf b => if a = b then .inf a else .nan
  | .inf a, _ => .inf a
  | _, .inf b => .inf b
  | .zero a, .zero b => .zero (a && b)
  | .zero _, .num q => .num q
  | .num p, .zero _ => .num p
  | .num p, .num q => if p + q = 0 then .zero false else .num (p + q)

/-- Exact product of two operands before rounding. -/
def FP.mul (x y : FP) : FP :=
  let neg := xor x.isNeg y.isNeg
  match x, y with
  | .nan, _ => .nan
  | _, .nan => .nan
  | .inf _, .zero _ => .nan
  | .zero _, .inf _ => .nan
  | .inf _, _ => .inf neg
  | _, .inf _ => .inf neg
  | .zero _, _ => .zero neg
  | _, .zero _ => .zero neg
  | .num p, .num q => .num (p * q)

def FP.neg : FP → FP
  | .nan => .nan
  | .inf n => .inf (!n)
  | .zero n => .zero (!n)
  | .num q => .num (-q)

/-- FP32 addition (R147). -/
def f32Add (a b : Word32) : Word32 := (FP.add (.ofBits a) (.ofBits b)).toBits
def f32Sub (a b : Word32) : Word32 := (FP.add (.ofBits a) (FP.neg (.ofBits b))).toBits
/-- FP32 multiplication (R147). -/
def f32Mul (a b : Word32) : Word32 := (FP.mul (.ofBits a) (.ofBits b)).toBits
/-- a × b + c with one rounding. -/
def f32Fma (a b c : Word32) : Word32 := (FP.add (FP.mul (.ofBits a) (.ofBits b)) (.ofBits c)).toBits

/-- a < b as binary32 numbers; false when either is NaN. -/
def f32Lt (a b : Word32) : Bool :=
  match FP.ofBits a, FP.ofBits b with
  | .nan, _ => false
  | _, .nan => false
  | .inf x, .inf y => x && !y
  | .inf x, _ => x
  | _, .inf y => !y
  | x, y => decide (x.val < y.val)

def f32Eq (a b : Word32) : Bool :=
  match FP.ofBits a, FP.ofBits b with
  | .nan, _ => false
  | _, .nan => false
  | .inf x, .inf y => x == y
  | .inf _, _ => false
  | _, .inf _ => false
  | x, y => decide (x.val = y.val)

/-- The word with subnormals read as zero and NaN as the canonical NaN. -/
def f32Canon (a : Word32) : Word32 :=
  match FP.ofBits a with
  | .nan => canonNaN
  | .zero n => zeroBits n
  | _ => a

/-! ## Exponential, reciprocal, reciprocal square root (R150) -/

/-- ulp of a positive value's binade, never below that of the smallest normal. -/
def ulpOf (q : Rat) : Rat := pow2 (max (ratLog2 q) (-126) - 23)

/-- The word `d` ulps away from a positive normal word, if it is within `bound` ulps of the exact value and finite;
otherwise the word itself. -/
def withinUlps (exact : Rat) (ref : Word32) (d : Int) (bound : Nat) : Word32 :=
  let w := BitVec.ofInt 32 ((ref.toNat : Int) + d)
  match FP.ofBits ref, FP.ofBits w with
  | .num r, .num v =>
    if ratAbs (v - exact) ≤ (bound : Rat) * ulpOf (ratAbs r) then w else ref
  | _, _ => ref

/-- Fixed-point Taylor series of e^y, 0 ≤ y < 1, `k` terms left; `t` is the current term. -/
def expSeries (y scale : Nat) : Nat → Nat → Nat → Nat → Nat
  | 0, _, _, acc => acc
  | k + 1, i, t, acc =>
    let t' := t * y / scale / i
    expSeries y scale k (i + 1) t' (acc + t')

/-- x² in fixed point, repeated. -/
def squareTimes (scale : Nat) : Nat → Nat → Nat
  | 0, x => x
  | k + 1, x => squareTimes scale k (x * x / scale)

/-- e^q to a relative accuracy far below 2⁻¹⁰⁰ for |q| < 256: the series at |q| ÷ 256, squared eight times. -/
def expApprox (q : Rat) : Rat :=
  let scale := 2 ^ 320
  let y := (ratAbs q * ((2 ^ 312 : Nat) : Rat)).floor.toNat
  let s := expSeries y scale 64 1 scale scale
  let r : Rat := ((squareTimes scale 8 s : Nat) : Rat) / ((scale : Nat) : Rat)
  if q < 0 then 1 / r else r

/-- The exponential's input limit (R150). -/
def xMax : Word32 := 0x42B17217#32

/-- Exponential within 2 ulp (R150). -/
def f32Exp (a : Word32) : Word32 :=
  match FP.ofBits a with
  | .nan => canonNaN
  | .inf n => if n then zeroBits false else infBits false
  | .zero _ => withinUlps 1 0x3F800000#32 (Config.expError a) 2
  | .num q =>
    if f32Lt xMax a then infBits false
    else if q < -104 then zeroBits false
    else
      let e := expApprox q
      let r := f32Round e
      if r = zeroBits false then r else withinUlps e r (Config.expError a) 2

/-- Reciprocal within 1 ulp (R150). -/
def f32Rcp (a : Word32) : Word32 :=
  match FP.ofBits a with
  | .nan => canonNaN
  | .inf n => zeroBits n
  | .zero n => infBits n
  | .num q =>
    let r := f32Round (1 / ratAbs q)
    let w := withinUlps (1 / ratAbs q) r (Config.rcpError a) 1
    if q < 0 then w ||| 0x80000000#32 else w

/-- Integer square root by bits: the largest r with r² ≤ n, built from bit k − 1 down. -/
def isqrtBits (n : Nat) : Nat → Nat → Nat
  | 0, r => r
  | k + 1, r => if (r + 2 ^ k) * (r + 2 ^ k) ≤ n then isqrtBits n k (r + 2 ^ k) else isqrtBits n k r

/-- 1 ÷ √q to more than 90 significant bits. -/
def rsqApprox (q : Rat) : Rat :=
  let e := ratLog2 q / 2
  let n := ((pow2 (2 * e) / q) * ((2 ^ 200 : Nat) : Rat)).floor.toNat
  ((isqrtBits n 104 0 : Nat) : Rat) / ((2 ^ 100 : Nat) : Rat) * pow2 (-e)

/-- Reciprocal square root within 2 ulp (R150). -/
def f32Rsq (a : Word32) : Word32 :=
  match FP.ofBits a with
  | .nan => canonNaN
  | .inf n => if n then canonNaN else zeroBits false
  | .zero n => infBits n
  | .num q =>
    if q < 0 then canonNaN
    else
      let v := rsqApprox q
      withinUlps v (f32Round v) (Config.rsqError a) 2

/-! ## BF16 (R142, R148): a value in the top half of the word -/

/-- FP32 to BF16, nearest even; the result stands in bits [31:16]. -/
def bf16Rne (a : Word32) : Word32 :=
  match FP.ofBits a with
  | .nan => canonNaN
  | .inf n => infBits n
  | .zero n => zeroBits n
  | .num _ =>
    let n := a.toNat
    let lo := n % 65536
    let hi := n / 65536
    let up := decide (32768 < lo) || (decide (lo = 32768) && decide (hi % 2 = 1))
    BitVec.ofNat 32 ((if up then hi + 1 else hi) * 65536)

/-- FP32 to BF16, stochastic (R142): away from zero when the discarded bits plus the draw reach 65,536. -/
def bf16Sr (a : Word32) (r : Nat) : Word32 :=
  match FP.ofBits a with
  | .nan => canonNaN
  | .inf n => infBits n
  | .zero n => zeroBits n
  | .num _ =>
    let n := a.toNat
    let hi := n / 65536
    BitVec.ofNat 32 ((if 65536 ≤ n % 65536 + r then hi + 1 else hi) * 65536)

/-! ## Quantising a block (R140) -/

/-- Rounding mode of a site. -/
inductive RndMode where
  | rne
  | sr (key ctr : Word64)
  deriving DecidableEq, Repr

def RndMode.round (m : RndMode) (v : Rat) (i : Nat) : Int :=
  match m with
  | .rne => roundRne v
  | .sr key ctr => roundSr v (draw key ctr i)

/-- What quantising a block gives: element codes, scale bytes and counts. -/
structure Quantised where
  codes : List Nat
  scale : Nat
  satel : Nat
  zeroblk : Nat
  nonfin : Nat
  capped : Bool
  deriving DecidableEq, Repr

/-- Largest finite magnitude. -/
def blockAmax (xs : List FP) : Rat := xs.foldl (fun m x => max m (ratAbs x.val)) 0

/-- The scale byte a block of largest magnitude `amax` is given (R140): 0 for an all-zero block. -/
def chooseScale (amax T : Rat) (f : QFmt) : Nat × Bool :=
  if amax = 0 then (0, false) else bs8EncodeUp (amax / (T * (f.qmax : Rat)))

/-- One element before saturation. -/
def quantElt (x : FP) (step : Rat) (b : Nat) (f : QFmt) (m : RndMode) (i : Nat) : Int :=
  if b = 0 then 0
  else match x with
    | .nan => 0
    | .zero _ => m.round 0 i
    | .inf n => m.round (if n then -((f.qmax : Rat) + 1) else (f.qmax : Rat) + 1) i
    | .num q => m.round (q / step) i

/-- Quantise elements against scale byte b; index i counts from `base`. -/
def quantElts (xs : List FP) (T : Rat) (b : Nat) (f : QFmt) (m : RndMode) (base : Nat) : List (Int × Bool) :=
  let step := T * bs8Decode b
  xs.zipIdx.map fun p =>
    let r := quantElt p.1 step b f m (base + p.2)
    if f.qmax < r then (f.qmax, true) else if r < -f.qmax then (-f.qmax, true) else (r, false)

/-- Values of one block against a given scale (R140). -/
def quantiseWith (xs : List FP) (T : Rat) (b : Nat) (capped : Bool) (f : QFmt) (m : RndMode) (base : Nat) : Quantised :=
  let rs := quantElts xs T b f m base
  let zero := rs.all fun p => decide (p.1 = 0)
  { codes := rs.map fun p => f.encode p.1
    scale := if zero then 0 else b
    satel := (rs.filter fun p => p.2).length
    zeroblk := if zero then 1 else 0
    nonfin := (xs.filter fun x => x.isNaN || x.isInf).length
    capped := capped }

/-- A whole unpaired block. -/
def quantiseBlock (xs : List FP) (T : Rat) (f : QFmt) (m : RndMode) : Quantised :=
  let c := chooseScale (blockAmax xs) T f
  quantiseWith xs T c.1 c.2 f m 0

/-! ## Scaling partials (R137, R138) -/

/-- One integer partial times two decoded scales, rounded once. -/
def scalePartial (p : Int) (ca cw : Nat) : Word32 :=
  let q := (p : Rat) * bs8Decode ca * bs8Decode cw
  if q = 0 then zeroBits false else f32Round q

end Sys2Proof.Machine
end

