-- ==== Sys2Proof/Machine/Crypto.lean ====
section
/-!
DEFINITION. The signature and digests of harness images and shards (R324, R325, R384): SHA-256 and SHA-384 (FIPS 180-4) and
ECDSA verification over P-384 (FIPS 186-5), as those standards define them.
-/

namespace Sys2Proof.Machine
open Sys2Proof

/-! ## SHA-2 -/

/-- A natural number in n bytes, highest first. -/
def beBytes (n v : Nat) : List Byte := (natToBytes n v).reverse

def beToNat (bs : List Byte) : Nat := bytesToNat bs.reverse

/-- The first n primes, of those below 441. -/
def primes (n : Nat) : List Nat :=
  ((List.range 441).filter fun m => decide (2 ≤ m) && (List.range 19).all fun d => decide (m = d + 2) || decide (m % (d + 2) ≠ 0)).take n

/-- Largest number, from x up in the bits below b, whose k-th power is at most v. -/
def rootFrom (k v : Nat) : Nat → Nat → Nat
  | 0, x => x
  | b + 1, x => rootFrom k v b (if (x + 2 ^ b) ^ k ≤ v then x + 2 ^ b else x)

/-- First w bits of the fraction of a k-th root: what FIPS 180-4 takes its constants from. -/
def rootFraction (k w p : Nat) : Nat := rootFrom k (p * 2 ^ (k * w)) (w + 5) 0 % 2 ^ w

/-- Round constants: fractions of the cube roots of the first n primes.  [PRESUMED, log 116] -/
def shaConstants (w n : Nat) : List Nat := (primes n).map (rootFraction 3 w)

/-- First hash value of SHA-256: fractions of the square roots of the first eight primes. -/
def sha256Start : List Nat := (primes 8).map (rootFraction 2 32)

/-- First hash value of SHA-384: of the next eight. -/
def sha384Start : List Nat := ((primes 16).drop 8).map (rootFraction 2 64)

/-- What differs between the two functions: word width, rotations (two of Sigma0, Sigma1, sigma0, sigma1), round constants. -/
structure Sha where
  w : Nat
  s0 : Nat × Nat × Nat
  s1 : Nat × Nat × Nat
  g0 : Nat × Nat × Nat
  g1 : Nat × Nat × Nat
  k : List Nat

/-- SHA-256 (FIPS 180-4). -/
def Sha.v256 : Sha := ⟨32, (2, 13, 22), (6, 11, 25), (7, 18, 3), (17, 19, 10), shaConstants 32 64⟩
/-- SHA-384 (FIPS 180-4). -/
def Sha.v384 : Sha := ⟨64, (28, 34, 39), (14, 18, 41), (1, 8, 7), (19, 61, 6), shaConstants 64 80⟩

def Sha.rotr (h : Sha) (x n : Nat) : Nat := (x >>> n) ||| (x <<< (h.w - n)) % 2 ^ h.w

/-- Sigma functions of the rounds: three rotations. -/
def Sha.big (h : Sha) (r : Nat × Nat × Nat) (x : Nat) : Nat := h.rotr x r.1 ^^^ h.rotr x r.2.1 ^^^ h.rotr x r.2.2

/-- Sigma functions of the schedule: two rotations and a shift. -/
def Sha.small (h : Sha) (r : Nat × Nat × Nat) (x : Nat) : Nat := h.rotr x r.1 ^^^ h.rotr x r.2.1 ^^^ (x >>> r.2.2)

/-- The message schedule, newest word first, extended n times. -/
def Sha.sched (h : Sha) : Nat → List Nat → List Nat
  | 0, ws => ws
  | n + 1, ws =>
    let x := h.small h.g1 (ws.getD 1 0) + ws.getD 6 0 + h.small h.g0 (ws.getD 14 0) + ws.getD 15 0
    h.sched n (x % 2 ^ h.w :: ws)

/-- One round on the eight working words. -/
def Sha.round (h : Sha) (v : List Nat) (kw : Nat × Nat) : List Nat :=
  match v with
  | [a, b, c, d, e, f, g, x] =>
    let m := 2 ^ h.w
    let ch := (e &&& f) ^^^ ((m - 1 - e) &&& g)
    let maj := (a &&& b) ^^^ (a &&& c) ^^^ (b &&& c)
    let t1 := x + h.big h.s1 e + ch + kw.1 + kw.2
    [(t1 + h.big h.s0 a + maj) % m, a, b, c, (d + t1) % m, e, f, g]
  | _ => v

/-- One block. -/
def Sha.block (h : Sha) (hs : List Nat) (bs : List Byte) : List Nat :=
  let n := h.w / 8
  let ws := (List.range 16).map fun i => beToNat ((bs.drop (n * i)).take n)
  let sched := (h.sched (h.k.length - 16) ws.reverse).reverse
  let v := (h.k.zip sched).foldl h.round hs
  (hs.zip v).map fun p => (p.1 + p.2) % 2 ^ h.w

/-- The padded message. -/
def Sha.pad (h : Sha) (bs : List Byte) : List Byte :=
  let b := 2 * h.w
  let l := h.w / 4
  let z := (2 * b - 1 - l - bs.length % b) % b
  bs ++ [0x80#8] ++ List.replicate z 0#8 ++ beBytes l (8 * bs.length)

def Sha.blocks (h : Sha) (hs : List Nat) : Nat → List Byte → List Nat
  | 0, _ => hs
  | n + 1, bs => h.blocks (h.block hs (bs.take (2 * h.w))) n (bs.drop (2 * h.w))

/-- SHA-256 of a byte string. -/
def sha256 (bs : List Byte) : List Byte :=
  let p := Sha.v256.pad bs
  (Sha.v256.blocks sha256Start (p.length / 64) p).flatMap (beBytes 4)

/-- SHA-384 of a byte string. -/
def sha384 (bs : List Byte) : List Byte :=
  let p := Sha.v384.pad bs
  ((Sha.v384.blocks sha384Start (p.length / 128) p).flatMap (beBytes 8)).take 48

/-! ## P-384 -/

namespace P384

/-- The field prime of P-384. -/
def p : Nat := 2 ^ 384 - 2 ^ 128 - 2 ^ 96 + 2 ^ 32 - 1
/-- The order of P-384. -/
def n : Nat := 0xFFFFFFFFFFFFFFFFFFFFFFFFFFFFFFFFFFFFFFFFFFFFFFFFC7634D81F4372DDF581A0DB248B0A77AECEC196ACCC52973
def b : Nat := 0xB3312FA7E23EE7E4988E056BE3F82D19181D9C6EFE8141120314088F5013875AC656398D8A2ED19D2A85C8EDD3EC2AEF
def gx : Nat := 0xAA87CA22BE8B05378EB1C71EF320AD746E1D3B628BA79B9859F741E082542A385502F25DBF55296C3A545E3872760AB7
def gy : Nat := 0x3617DE4A96262C6F5D9E98BF9292DC29F8F41DBD289A147CE9DA3113B5F0B8C00A60B1CE1D7E819D7A431D7C90EA0E5F

/-- x ^ e modulo m, from the bits of e, highest first. -/
def powMod (x m : Nat) : List Bool → Nat → Nat
  | [], a => a
  | bit :: bits, a =>
    let a := a * a % m
    powMod x m bits (if bit then a * x % m else a)

def bitsDown (k : Nat) : List Bool := (List.range 384).map fun i => k.testBit (383 - i)

/-- Inverse modulo a prime. -/
def inv (x m : Nat) : Nat := powMod x m (bitsDown (m - 2)) 1

def sub (x y : Nat) : Nat := (x + p - y % p) % p

/-- A point of the curve; none is the point at infinity. -/
abbrev Point := Option (Nat × Nat)

def add : Point → Point → Point
  | none, q => q
  | q, none => q
  | some (x1, y1), some (x2, y2) =>
    if x1 = x2 ∧ (y1 + y2) % p = 0 then none
    else
      let lam := if x1 = x2 then sub (3 * x1 * x1) 3 * inv (2 * y1) p % p else sub y2 y1 * inv (sub x2 x1) p % p
      let x3 := sub (sub (lam * lam) x1) x2
      some (x3, sub (lam * sub x1 x3) y1)

def mul (q : Point) : List Bool → Point → Point
  | [], a => a
  | bit :: bits, a =>
    let a := add a a
    mul q bits (if bit then add a q else a)

def onCurve (x y : Nat) : Bool := decide (x < p) && decide (y < p) && decide (y * y % p = (sub (x * x * x) (3 * x) + b) % p)

end P384

/-- A signature (r, s, 48 bytes each, big-endian) over a message verifies under a public key (x, y) (R324). -/
def ecdsaVerify (key : Nat × Nat) (sig msg : List Byte) : Bool :=
  let r := beToNat (sig.take 48)
  let s := beToNat ((sig.drop 48).take 48)
  if r = 0 ∨ P384.n ≤ r ∨ s = 0 ∨ P384.n ≤ s ∨ ¬ P384.onCurve key.1 key.2 then false
  else
    let w := P384.inv s P384.n
    let e := beToNat (sha384 msg)
    match P384.add (P384.mul (some (P384.gx, P384.gy)) (P384.bitsDown (e * w % P384.n)) none)
        (P384.mul (some key) (P384.bitsDown (r * w % P384.n)) none) with
    | none => false
    | some q => decide (q.1 % P384.n = r)

/-- A key's fingerprint (R325): the first 8 bytes of the SHA-256 of the uncompressed point, digest byte 0 lowest. -/
def fingerprint (key : Nat × Nat) : Nat := bytesToNat ((sha256 (0x04#8 :: beBytes 48 key.1 ++ beBytes 48 key.2)).take 8)

end Sys2Proof.Machine
end

