-- ==== Sys2Proof/Machine/Map.lean ====
section
/-!
DEFINITION. Finite maps as association lists, and byte memory as one sorted list (Host.Cell) in canonical form.
-/

namespace Sys2Proof.Machine

/-- A finite map; at most one entry a key is kept by `Map.put`. -/
abbrev Map (κ ν : Type) := List (κ × ν)

/-- The value at a key. -/
def Map.find {κ ν : Type} [DecidableEq κ] (m : Map κ ν) (k : κ) : Option ν :=
  match m with
  | [] => none
  | (k', v) :: t => if k' = k then some v else Map.find t k

/-- Remove a key. -/
def Map.del {κ ν : Type} [DecidableEq κ] (m : Map κ ν) (k : κ) : Map κ ν :=
  match m with
  | [] => []
  | (k', v) :: t => if k' = k then Map.del t k else (k', v) :: Map.del t k

/-- Set a key. -/
def Map.put {κ ν : Type} [DecidableEq κ] (m : Map κ ν) (k : κ) (v : ν) : Map κ ν := (k, v) :: Map.del m k

/-- Value at a key, or a default. -/
def Map.getD {κ ν : Type} [DecidableEq κ] (m : Map κ ν) (k : κ) (d : ν) : ν :=
  match Map.find m k with
  | some v => v
  | none => d

/-- Byte memory: (address, byte) pairs, addresses rising, no byte equal to what an unlisted address reads as. -/
abbrev Memory := List (Nat × BitVec 8)

/-- What an address that nothing has written reads as. -/
def Memory.blank : BitVec 8 := 0#8

/-- The byte at an address.  [DESIGN CHOICE, log 61] -/
def Memory.read : Memory → Nat → BitVec 8
  | [], _ => Memory.blank
  | (a', b) :: t, a => if a' = a then b else if a < a' then Memory.blank else Memory.read t a

/-- Write a byte; the canonical form is kept. -/
def Memory.write (m : Memory) (a : Nat) (b : BitVec 8) : Memory :=
  match m with
  | [] => if b = Memory.blank then [] else [(a, b)]
  | (a', b') :: t =>
    if a < a' then (if b = Memory.blank then (a', b') :: t else (a, b) :: (a', b') :: t)
    else if a = a' then (if b = Memory.blank then t else (a, b) :: t)
    else (a', b') :: Memory.write t a b

/-- Every address is above `lo` in strictly rising order and no byte is blank. -/
def Memory.wfFrom : Option Nat → Memory → Bool
  | _, [] => true
  | lo, (a, b) :: t =>
    (match lo with
      | none => true
      | some l => decide (l < a)) && decide (b ≠ Memory.blank) && Memory.wfFrom (some a) t

/-- The canonical form. -/
def Memory.wf (m : Memory) : Bool := Memory.wfFrom none m

/-- n bytes from an address. -/
def Memory.readN (m : Memory) (a : Nat) : Nat → List (BitVec 8)
  | 0 => []
  | n + 1 => Memory.read m a :: Memory.readN m (a + 1) n

/-- Write bytes from an address on. -/
def Memory.writeList (m : Memory) (a : Nat) : List (BitVec 8) → Memory
  | [] => m
  | b :: bs => Memory.writeList (Memory.write m a b) (a + 1) bs

/-- Clear the bytes of an address range: their entries go. -/
def Memory.clearRange (m : Memory) (lo hi : Nat) : Memory :=
  m.filter fun p => decide (p.1 < lo) || decide (hi ≤ p.1)

end Sys2Proof.Machine
end

