-- ==== Sys2Proof/Machine/RegTable.lean ====
section
/-!
DEFINITION. The register tables of the spec: for each register its block, address, width and fields with type and reset
value (R13-R16 and the register lists at the end of every chapter).  A field's reset is what an unwritten field reads.
-/

namespace Sys2Proof.Machine

/-- Field types (R14, Table 00.8). -/
inductive FType where
  | rw | ro | wo | w1c | rc | rwh
  deriving DecidableEq, Repr

/-- One row of a register table: bits, type and reset value. -/
structure FieldSpec where
  lo : Nat
  width : Nat
  ty : FType
  reset : Nat
  deriving DecidableEq, Repr

/-- The unit a register block belongs to: an array engine's, core's or cluster's block in space 0x3 (R98, R195, R290),
a steward's block in its die window (R428), Nirdo's range, or a partition's serving block (R383). -/
inductive UnitClass where
  | arr | core | clu | stw | nir | srv
  deriving DecidableEq, Repr

/-- Where a register lies: its unit class, the offset of instance 0 in that unit's range, the step and count of the first
and of the second index, and its width in bits. -/
structure Place where
  cls : UnitClass
  base : Nat
  stepN : Nat
  countN : Nat
  stepM : Nat
  countM : Nat
  bits : Nat
  deriving DecidableEq, Repr

/-- Where each register lies (R32, R39, R44, R98, R125, R163, R195, R223, R257, R290, R319, R348, R383, R408, R426, R437,
R468, R491, R517, R535). -/
def Reg.place : Reg → Place
  | .nirTimeStitchLo => ⟨.nir, 0x0, 0, 1, 0, 1, 32⟩
  | .nirTimeStitchHi => ⟨.nir, 0x4, 0, 1, 0, 1, 32⟩
  | .stwXingBridge => ⟨.stw, 0x400, 4, 4, 0, 1, 32⟩
  | .stwXingStkRtn => ⟨.stw, 0x420, 4, 12, 0, 1, 32⟩
  | .nirTimeStep => ⟨.nir, 0x8, 0, 1, 0, 1, 32⟩
  | .nirTimeStepAt => ⟨.nir, 0x10, 0, 1, 0, 1, 64⟩
  | .nirTimeStepCount => ⟨.nir, 0x18, 0, 1, 0, 1, 32⟩
  | .arrCfg => ⟨.arr, 0x100000, 1024, 64, 0, 1, 32⟩
  | .arrState => ⟨.arr, 0x100004, 1024, 64, 0, 1, 32⟩
  | .arrOps => ⟨.arr, 0x100008, 1024, 64, 0, 1, 32⟩
  | .arrClip => ⟨.arr, 0x10000c, 1024, 64, 0, 1, 32⟩
  | .arrAccrej => ⟨.arr, 0x100010, 1024, 64, 0, 1, 32⟩
  | .arrQ2skip => ⟨.arr, 0x100014, 1024, 64, 0, 1, 32⟩
  | .arrErr => ⟨.arr, 0x100018, 1024, 64, 0, 1, 32⟩
  | .arrTallyOps => ⟨.arr, 0x100040, 1024, 64, 0, 1, 32⟩
  | .arrTallyClip => ⟨.arr, 0x100044, 1024, 64, 0, 1, 32⟩
  | .arrTallyGen => ⟨.arr, 0x100048, 1024, 64, 0, 1, 32⟩
  | .coreAgrp => ⟨.core, 0xf0000, 8, 16, 0, 1, 64⟩
  | .coreArrstat => ⟨.core, 0xf0100, 0, 1, 0, 1, 32⟩
  | .arrTrim => ⟨.arr, 0x100100, 1024, 64, 4, 32, 32⟩
  | .coreCalCfg => ⟨.core, 0xe0000, 0, 1, 0, 1, 32⟩
  | .coreCalSlot => ⟨.core, 0xe0010, 8, 8, 0, 1, 64⟩
  | .coreCalStat => ⟨.core, 0xe0080, 0, 1, 0, 1, 32⟩
  | .coreCalrecStamp => ⟨.core, 0xe0100, 32, 64, 0, 1, 64⟩
  | .coreCalrecTemp => ⟨.core, 0xe0108, 32, 64, 0, 1, 32⟩
  | .coreCalrecAge => ⟨.core, 0xe010c, 32, 64, 0, 1, 32⟩
  | .coreCalrecStat => ⟨.core, 0xe0110, 32, 64, 0, 1, 32⟩
  | .vecPcntLayer => ⟨.core, 0xd0000, 64, 4, 0, 1, 32⟩
  | .vecPcntElems => ⟨.core, 0xd0008, 64, 4, 0, 1, 32⟩
  | .vecPcntSatel => ⟨.core, 0xd000c, 64, 4, 0, 1, 32⟩
  | .vecPcntZeroblk => ⟨.core, 0xd0010, 64, 4, 0, 1, 32⟩
  | .vecPcntFaults => ⟨.core, 0xd0014, 64, 4, 0, 1, 32⟩
  | .vecPcntScales => ⟨.core, 0xd0018, 64, 4, 0, 1, 32⟩
  | .stwPrecStat => ⟨.stw, 0x2000, 0, 1, 0, 1, 32⟩
  | .stwPrecStorms => ⟨.stw, 0x2004, 0, 1, 0, 1, 32⟩
  | .stwPrecEvcnt => ⟨.stw, 0x2008, 0, 1, 0, 1, 32⟩
  | .stwPrecLastwin => ⟨.stw, 0x2010, 0, 1, 0, 1, 64⟩
  | .stwPrecThr => ⟨.stw, 0x2100, 8, 256, 0, 1, 64⟩
  | .stwPrecLastA => ⟨.stw, 0x3000, 32, 256, 0, 1, 64⟩
  | .stwPrecLastB => ⟨.stw, 0x3008, 32, 256, 0, 1, 64⟩
  | .stwPrecLastC => ⟨.stw, 0x3010, 32, 256, 0, 1, 64⟩
  | .stwPrecLastWin => ⟨.stw, 0x3018, 32, 256, 0, 1, 64⟩
  | .coreSeqTask => ⟨.core, 0xc0000, 0, 1, 0, 1, 32⟩
  | .coreSeqLaunch => ⟨.core, 0xc0008, 0, 1, 0, 1, 64⟩
  | .coreSeqPc => ⟨.core, 0xc0010, 0, 1, 0, 1, 32⟩
  | .coreSeqSt => ⟨.core, 0xc0020, 8, 4, 0, 1, 64⟩
  | .coreSeqBase => ⟨.core, 0xc0040, 16, 4, 0, 1, 64⟩
  | .coreSeqBound => ⟨.core, 0xc0048, 16, 4, 0, 1, 64⟩
  | .coreCredCfg => ⟨.core, 0xc0080, 0, 1, 0, 1, 32⟩
  | .coreCredUse => ⟨.core, 0xc0084, 0, 1, 0, 1, 32⟩
  | .coreCredLast => ⟨.core, 0xc0088, 0, 1, 0, 1, 32⟩
  | .coreCredTab => ⟨.core, 0xc00c0, 4, 16, 0, 1, 32⟩
  | .coreCredEff => ⟨.core, 0xc0180, 4, 16, 0, 1, 32⟩
  | .coreSfltRec => ⟨.core, 0xc0100, 0, 1, 0, 1, 32⟩
  | .coreSfltCycle => ⟨.core, 0xc0104, 0, 1, 0, 1, 32⟩
  | .coreSfltStitch => ⟨.core, 0xc0108, 0, 1, 0, 1, 64⟩
  | .coreSfltCnt => ⟨.core, 0xc0110, 0, 1, 0, 1, 32⟩
  | .cluCredCap => ⟨.clu, 0x20010000, 0, 1, 0, 1, 64⟩
  | .stwSchedFirst => ⟨.stw, 0x6000, 0, 1, 0, 1, 64⟩
  | .stwSchedFstitch => ⟨.stw, 0x6008, 0, 1, 0, 1, 64⟩
  | .stwSchedHalt => ⟨.stw, 0x6010, 0, 1, 0, 1, 64⟩
  | .stwSchedCnt => ⟨.stw, 0x6018, 0, 1, 0, 1, 32⟩
  | .stwSchedHaltlat => ⟨.stw, 0x6020, 0, 1, 0, 1, 32⟩
  | .vecCfgRnd => ⟨.core, 0xd1000, 0, 1, 0, 1, 32⟩
  | .vecCfgStat => ⟨.core, 0xd1004, 0, 1, 0, 1, 32⟩
  | .vecCfgKey => ⟨.core, 0xd1008, 0, 1, 0, 1, 64⟩
  | .vecCfgCtx => ⟨.core, 0xd1010, 0, 1, 0, 1, 64⟩
  | .vecCfgTscale => ⟨.core, 0xd1040, 4, 16, 0, 1, 32⟩
  | .vecCfgIssue => ⟨.core, 0xd1080, 0, 1, 0, 1, 32⟩
  | .coreKvfRoleCfg0 => ⟨.core, 0x120000, 64, 2, 0, 1, 64⟩
  | .coreKvfRoleCfg1 => ⟨.core, 0x120008, 64, 2, 0, 1, 64⟩
  | .coreKvfRoleFree => ⟨.core, 0x120010, 64, 2, 0, 1, 32⟩
  | .coreKvfRoleCnt => ⟨.core, 0x120018, 64, 2, 0, 1, 64⟩
  | .coreKvfRoleHfree => ⟨.core, 0x120020, 64, 2, 0, 1, 32⟩
  | .coreKvfStat => ⟨.core, 0x120100, 0, 1, 0, 1, 32⟩
  | .srvKvCmd => ⟨.srv, 0x40000, 0, 1, 0, 1, 64⟩
  | .srvKvAt => ⟨.srv, 0x40008, 0, 1, 0, 1, 64⟩
  | .srvKvResult => ⟨.srv, 0x40010, 0, 1, 0, 1, 64⟩
  | .srvKvLen => ⟨.srv, 0x41000, 0, 1, 4, 512, 32⟩
  | .coreSpadCfg => ⟨.core, 0x130000, 0, 1, 0, 1, 32⟩
  | .coreSpadEcc => ⟨.core, 0x130004, 0, 1, 0, 1, 32⟩
  | .coreSpadUeaddr => ⟨.core, 0x130008, 0, 1, 0, 1, 32⟩
  | .cluSbufCfg => ⟨.clu, 0x20020000, 0, 1, 0, 1, 32⟩
  | .cluSbufStat => ⟨.clu, 0x20020008, 0, 1, 0, 1, 32⟩
  | .cluSbufHits => ⟨.clu, 0x20020010, 0, 1, 0, 1, 32⟩
  | .cluSbufMisses => ⟨.clu, 0x20020014, 0, 1, 0, 1, 32⟩
  | .cluSbufInval => ⟨.clu, 0x20020018, 0, 1, 0, 1, 32⟩
  | .cluSbufFence => ⟨.clu, 0x20020020, 0, 1, 0, 1, 32⟩
  | .coreWinRej => ⟨.core, 0x131100, 0, 1, 0, 1, 64⟩
  | .xferChStat => ⟨.clu, 0x20030000, 32, 16, 0, 1, 32⟩
  | .xferChLast => ⟨.clu, 0x20030008, 32, 16, 0, 1, 64⟩
  | .xferChRej => ⟨.clu, 0x20030010, 32, 16, 0, 1, 32⟩
  | .stkCfg => ⟨.stw, 0x8000, 1024, 2, 0, 1, 32⟩
  | .stkStat => ⟨.stw, 0x8004, 1024, 2, 0, 1, 32⟩
  | .stkEcc => ⟨.stw, 0x8008, 1024, 2, 0, 1, 32⟩
  | .stkEcs => ⟨.stw, 0x800c, 1024, 2, 0, 1, 32⟩
  | .stkDecl => ⟨.stw, 0x8040, 1024, 2, 4, 4, 32⟩
  | .stwWincmdSel => ⟨.stw, 0x7000, 0, 1, 0, 1, 32⟩
  | .stwWincmdVal => ⟨.stw, 0x7008, 8, 2, 0, 1, 64⟩
  | .stwWincmdAt => ⟨.stw, 0x7018, 0, 1, 0, 1, 64⟩
  | .stwWincmdResult => ⟨.stw, 0x7020, 0, 1, 0, 1, 32⟩
  | .cluRtrRoute => ⟨.clu, 0x20040000, 32, 16, 0, 1, 256⟩
  | .cluRtrRlat => ⟨.clu, 0x20040200, 4, 16, 0, 1, 32⟩
  | .cluRtrLink => ⟨.clu, 0x20040240, 0, 1, 0, 1, 32⟩
  | .cluRtrCnt => ⟨.clu, 0x20040248, 0, 1, 0, 1, 64⟩
  | .cluRtrErr => ⟨.clu, 0x20040250, 0, 1, 0, 1, 64⟩
  | .cluRtrErrstitch => ⟨.clu, 0x20040258, 0, 1, 0, 1, 64⟩
  | .cluSynObj => ⟨.clu, 0x20050000, 4, 128, 0, 1, 32⟩
  | .cluSynHsig => ⟨.clu, 0x20050400, 0, 1, 0, 1, 32⟩
  | .cluSynStat => ⟨.clu, 0x20050408, 0, 1, 0, 1, 32⟩
  | .coreTallyGen => ⟨.core, 0x140000, 0, 1, 0, 1, 32⟩
  | .stwTallyAddr => ⟨.stw, 0xb008, 0, 1, 0, 1, 32⟩
  | .stwTallyData => ⟨.stw, 0xb010, 0, 1, 0, 1, 64⟩
  | .nirCinchAt => ⟨.nir, 0x1000, 0, 1, 0, 1, 64⟩
  | .nirCinchResult => ⟨.nir, 0x1008, 0, 1, 0, 1, 32⟩
  | .nirCinchT => ⟨.nir, 0x1010, 0, 1, 0, 1, 64⟩
  | .nirCinchCfg => ⟨.nir, 0x1018, 0, 1, 0, 1, 32⟩
  | .nirCinchMiss => ⟨.nir, 0x1020, 0, 1, 0, 1, 32⟩
  | .nirCinchCount => ⟨.nir, 0x1028, 0, 1, 0, 1, 32⟩
  | .hrnPart => ⟨.nir, 0x100000, 262144, 8, 0, 1, 32⟩
  | .hrnStat => ⟨.nir, 0x100008, 262144, 8, 0, 1, 32⟩
  | .hrnActiveId => ⟨.nir, 0x100010, 262144, 8, 0, 1, 64⟩
  | .hrnShadowId => ⟨.nir, 0x100018, 262144, 8, 0, 1, 64⟩
  | .hrnActAt => ⟨.nir, 0x100020, 262144, 8, 0, 1, 64⟩
  | .hrnLoadAddr => ⟨.nir, 0x100040, 262144, 8, 0, 1, 64⟩
  | .hrnLoadLen => ⟨.nir, 0x100048, 262144, 8, 0, 1, 64⟩
  | .hrnLoadGo => ⟨.nir, 0x100050, 262144, 8, 0, 1, 32⟩
  | .hrnLoadResult => ⟨.nir, 0x100058, 262144, 8, 0, 1, 64⟩
  | .hrnLoadRecord => ⟨.nir, 0x100060, 262144, 8, 0, 1, 32⟩
  | .hrnSwapCtl => ⟨.nir, 0x100080, 262144, 8, 0, 1, 32⟩
  | .hrnSwapAt => ⟨.nir, 0x100088, 262144, 8, 0, 1, 64⟩
  | .hrnSwapResult => ⟨.nir, 0x100090, 262144, 8, 0, 1, 32⟩
  | .hrnSwapT => ⟨.nir, 0x100098, 262144, 8, 0, 1, 64⟩
  | .hrnLaunch => ⟨.nir, 0x1000a0, 262144, 8, 0, 1, 64⟩
  | .hrnCnt => ⟨.nir, 0x1000b0, 262144, 8, 0, 1, 64⟩
  | .nirKeySlot => ⟨.nir, 0x2000, 32, 36, 0, 1, 64⟩
  | .nirKeyStat => ⟨.nir, 0x2008, 32, 36, 0, 1, 32⟩
  | .srvCfg => ⟨.srv, 0x0, 0, 1, 0, 1, 64⟩
  | .srvStat => ⟨.srv, 0x8, 0, 1, 0, 1, 32⟩
  | .srvCnt => ⟨.srv, 0x10, 0, 1, 0, 1, 64⟩
  | .srvSubqBase => ⟨.srv, 0x100, 0, 1, 0, 1, 64⟩
  | .srvSubqCfg => ⟨.srv, 0x108, 0, 1, 0, 1, 32⟩
  | .srvSubqTail => ⟨.srv, 0x110, 0, 1, 0, 1, 32⟩
  | .srvSubqHead => ⟨.srv, 0x118, 0, 1, 0, 1, 32⟩
  | .srvReqCmd => ⟨.srv, 0x200, 0, 1, 0, 1, 32⟩
  | .srvReqResult => ⟨.srv, 0x208, 0, 1, 0, 1, 64⟩
  | .srvLatGoal => ⟨.srv, 0x400, 0, 1, 32, 3, 64⟩
  | .srvLatCnt => ⟨.srv, 0x408, 0, 1, 32, 3, 64⟩
  | .srvLatMax => ⟨.srv, 0x410, 0, 1, 32, 3, 64⟩
  | .srvRingBase => ⟨.srv, 0x1000, 0, 1, 64, 16, 64⟩
  | .srvRingCfg => ⟨.srv, 0x1010, 0, 1, 64, 16, 64⟩
  | .srvRingProd => ⟨.srv, 0x1018, 0, 1, 64, 16, 32⟩
  | .srvRingCons => ⟨.srv, 0x1020, 0, 1, 64, 16, 32⟩
  | .srvCtx => ⟨.srv, 0x20000, 0, 1, 16, 4096, 128⟩
  | .srvFrameCfg0 => ⟨.srv, 0x60000, 0, 1, 0, 1, 64⟩
  | .srvFrameCfg1 => ⟨.srv, 0x60008, 0, 1, 0, 1, 64⟩
  | .srvFrameVocab => ⟨.srv, 0x60010, 0, 1, 0, 1, 32⟩
  | .srvFrameUsable => ⟨.srv, 0x60040, 0, 1, 8, 16, 64⟩
  | .srvFrameSmp => ⟨.srv, 0x60400, 0, 1, 4, 1024, 32⟩
  | .srvCls => ⟨.srv, 0x62000, 0, 1, 8, 16, 64⟩
  | .smpCfg => ⟨.stw, 0xc000, 0, 1, 0, 1, 64⟩
  | .smpCnt => ⟨.stw, 0xc008, 0, 1, 0, 1, 64⟩
  | .stwShardCmd => ⟨.stw, 0xd000, 0, 1, 0, 1, 32⟩
  | .stwShardRaddr => ⟨.stw, 0xd008, 0, 1, 0, 1, 64⟩
  | .stwShardRkey => ⟨.stw, 0xd010, 0, 1, 0, 1, 32⟩
  | .stwShardLocal => ⟨.stw, 0xd018, 0, 1, 0, 1, 64⟩
  | .stwShardExpect => ⟨.stw, 0xd040, 8, 4, 0, 1, 64⟩
  | .stwShardStat => ⟨.stw, 0xd080, 0, 1, 0, 1, 64⟩
  | .stwShardRef => ⟨.stw, 0xd100, 0, 1, 0, 1, 64⟩
  | .stwShardScfg => ⟨.stw, 0xd180, 0, 1, 0, 1, 32⟩
  | .stwShardDcnt => ⟨.stw, 0xd188, 0, 1, 0, 1, 64⟩
  | .coreWptrArr => ⟨.core, 0x150000, 4, 64, 0, 1, 32⟩
  | .coreWptrScl => ⟨.core, 0x150100, 0, 1, 0, 1, 64⟩
  | .coreWptrDigSlot => ⟨.core, 0x150200, 8, 4, 0, 1, 64⟩
  | .coreWptrDigStat => ⟨.core, 0x150240, 0, 1, 0, 1, 32⟩
  | .chkCfg => ⟨.clu, 0x20070000, 32, 16, 0, 1, 32⟩
  | .chkRun => ⟨.clu, 0x20070008, 32, 16, 0, 1, 64⟩
  | .chkCnt => ⟨.clu, 0x20070010, 32, 16, 0, 1, 64⟩
  | .lnkChkAlive => ⟨.nir, 0x500820, 65536, 6, 8, 4, 64⟩
  | .srvFrameDig => ⟨.srv, 0x60020, 0, 1, 0, 1, 64⟩
  | .nirTorusId => ⟨.nir, 0x3000, 0, 1, 0, 1, 32⟩
  | .nirTorusTcfg => ⟨.nir, 0x3008, 0, 1, 0, 1, 32⟩
  | .nirTorusTstat => ⟨.nir, 0x3010, 0, 1, 0, 1, 64⟩
  | .lnkStat => ⟨.nir, 0x500000, 65536, 6, 0, 1, 64⟩
  | .lnkCtl => ⟨.nir, 0x500008, 65536, 6, 0, 1, 32⟩
  | .lnkCnt => ⟨.nir, 0x500010, 65536, 6, 0, 1, 64⟩
  | .hstPcieStat => ⟨.nir, 0x400000, 0, 1, 0, 1, 32⟩
  | .hstPcieCnt => ⟨.nir, 0x400008, 0, 1, 0, 1, 32⟩
  | .hstPcieRefaddr => ⟨.nir, 0x400010, 0, 1, 0, 1, 64⟩
  | .hstBar2sel => ⟨.nir, 0x400020, 4, 2, 0, 1, 32⟩
  | .stwHwin => ⟨.stw, 0xe000, 8, 127, 0, 1, 32⟩
  | .hstRdmaCnt => ⟨.nir, 0x400100, 0, 1, 0, 1, 64⟩
  | .nirMgmtCfg => ⟨.nir, 0x4000, 0, 1, 0, 1, 32⟩
  | .nirPwrStat => ⟨.nir, 0x5000, 0, 1, 0, 1, 32⟩
  | .nirPwrPin => ⟨.nir, 0x5008, 0, 1, 0, 1, 32⟩
  | .nirPwrGov => ⟨.nir, 0x5010, 0, 1, 0, 1, 32⟩
  | .nirPwrGovcnt => ⟨.nir, 0x5018, 0, 1, 0, 1, 64⟩
  | .nirBilSerial => ⟨.nir, 0x6000, 64, 48, 0, 1, 64⟩
  | .nirBilStat => ⟨.nir, 0x6010, 64, 48, 0, 1, 32⟩
  | .nirBilWear => ⟨.nir, 0x6018, 64, 48, 0, 1, 64⟩
  | .nirBilMeas => ⟨.nir, 0x6020, 64, 48, 0, 1, 32⟩
  | .stwPwrRail => ⟨.stw, 0xf000, 0, 1, 0, 1, 32⟩
  | .stwPwrIdie => ⟨.stw, 0xf004, 0, 1, 0, 1, 32⟩
  | .stwPwrSeqCmd => ⟨.stw, 0xf008, 0, 1, 0, 1, 32⟩
  | .stwPwrSeqAt => ⟨.stw, 0xf010, 0, 1, 0, 1, 64⟩
  | .stwPwrSeqResult => ⟨.stw, 0xf018, 0, 1, 0, 1, 32⟩
  | .stwPwrCnt => ⟨.stw, 0xf020, 0, 1, 0, 1, 64⟩
  | .cluPwrStat => ⟨.clu, 0x20080000, 0, 1, 0, 1, 32⟩
  | .cluPwrMeas => ⟨.clu, 0x20080008, 0, 1, 0, 1, 32⟩
  | .cluPwrCnt => ⟨.clu, 0x20080010, 0, 1, 0, 1, 64⟩
  | .tlmRef => ⟨.stw, 0x1000, 0, 1, 0, 1, 32⟩
  | .tlmUrg => ⟨.stw, 0x1008, 0, 1, 0, 1, 32⟩
  | .tlmCnt => ⟨.stw, 0x1010, 0, 1, 0, 1, 64⟩
  | .tlmDac => ⟨.stw, 0x1018, 0, 1, 0, 1, 32⟩
  | .tlmDacFaultyB => ⟨.stw, 0x101c, 0, 1, 0, 1, 32⟩
  | .tlmQ => ⟨.stw, 0x1100, 0, 1, 0, 1, 64⟩
  | .tlmAccSum => ⟨.stw, 0x1400, 16, 64, 0, 1, 64⟩
  | .tlmAccRange => ⟨.stw, 0x1408, 16, 64, 0, 1, 32⟩
  | .tlmCh => ⟨.stw, 0x9000, 8, 512, 0, 1, 64⟩
  | .stwThmDie => ⟨.stw, 0x5000, 0, 1, 0, 1, 64⟩
  | .stwThmCt => ⟨.stw, 0x5100, 4, 128, 0, 1, 32⟩
  | .nirCoolMeas => ⟨.nir, 0x7000, 0, 1, 0, 1, 64⟩
  | .nirCoolCfg => ⟨.nir, 0x7008, 0, 1, 0, 1, 32⟩
  | .nirCoolMargin => ⟨.nir, 0x7010, 0, 1, 0, 1, 64⟩
  | .nirThmStat => ⟨.nir, 0x7080, 0, 1, 0, 1, 32⟩
  | .nirThmSdrec => ⟨.nir, 0x7088, 0, 1, 0, 1, 64⟩
  | .nirKindleStat => ⟨.nir, 0x9000, 0, 1, 0, 1, 32⟩
  | .nirKindleCmd => ⟨.nir, 0x9008, 0, 1, 0, 1, 32⟩
  | .nirKindleCfg => ⟨.nir, 0x9010, 0, 1, 0, 1, 32⟩
  | .nirEvqBase => ⟨.nir, 0x8000, 0, 1, 0, 1, 64⟩
  | .nirEvqCfg => ⟨.nir, 0x8010, 0, 1, 0, 1, 32⟩
  | .nirEvqProd => ⟨.nir, 0x8018, 0, 1, 0, 1, 32⟩
  | .nirEvqCnt => ⟨.nir, 0x8020, 0, 1, 0, 1, 32⟩
  | .nirEmberStat => ⟨.nir, 0xa000, 0, 1, 0, 1, 32⟩
  | .nirEmberCmd => ⟨.nir, 0xa008, 0, 1, 0, 1, 32⟩
  | .nirEmberCfg => ⟨.nir, 0xa010, 0, 1, 0, 1, 32⟩
  | .srvFaultHalt => ⟨.srv, 0x300, 0, 1, 0, 1, 64⟩
  | .srvFaultCnt => ⟨.srv, 0x308, 0, 1, 0, 1, 64⟩
  | .nirIdInfo => ⟨.nir, 0xb000, 0, 1, 0, 1, 32⟩
  | .nirIdSerial => ⟨.nir, 0xb008, 0, 1, 0, 1, 64⟩
  | .nirIdMac => ⟨.nir, 0xb010, 0, 1, 0, 1, 64⟩
  | .nirIdLimits => ⟨.nir, 0xb018, 0, 1, 0, 1, 64⟩
  | .nirIdSites => ⟨.nir, 0xb020, 0, 1, 0, 1, 32⟩
  | .cluSbufScrub => ⟨.clu, 0x20020028, 0, 1, 0, 1, 32⟩
  | .cluSbufEcc => ⟨.clu, 0x20020024, 0, 1, 0, 1, 32⟩
  | .cluWinRej => ⟨.clu, 0x20021100, 0, 1, 0, 1, 64⟩
  | .stkWinRej => ⟨.stw, 0xa100, 0, 1, 0, 1, 64⟩
  | .cluTallyGen => ⟨.clu, 0x20060000, 0, 1, 0, 1, 32⟩
  | .stwTallyGen => ⟨.stw, 0xb000, 0, 1, 0, 1, 32⟩
  | .nirTallyAddr => ⟨.nir, 0x1040, 0, 1, 0, 1, 32⟩
  | .nirTallyData => ⟨.nir, 0x1048, 0, 1, 0, 1, 64⟩
  | .srvRingProdaddr => ⟨.srv, 0x1008, 0, 1, 64, 16, 64⟩
  | .stwShardLen => ⟨.stw, 0xd020, 0, 1, 0, 1, 64⟩
  | .stwShardRefDigest => ⟨.stw, 0xd108, 8, 4, 0, 1, 64⟩
  | .lnkChkCfg => ⟨.nir, 0x500800, 65536, 6, 0, 1, 32⟩
  | .lnkChkCnt => ⟨.nir, 0x500810, 65536, 6, 0, 1, 64⟩
  | .nirBilLot => ⟨.nir, 0x6008, 64, 48, 0, 1, 64⟩
  | .nirEvqProdaddr => ⟨.nir, 0x8008, 0, 1, 0, 1, 64⟩
  | .nirEvqCons => ⟨.nir, 0x801c, 0, 1, 0, 1, 32⟩
  | .coreDesc => ⟨.core, 0xc2000, 32, 64, 0, 1, 256⟩
  | .coreWin => ⟨.core, 0x131000, 16, 16, 0, 1, 128⟩
  | .cluWin => ⟨.clu, 0x20021000, 16, 16, 0, 1, 128⟩
  | .stkWin => ⟨.stw, 0xa000, 16, 16, 0, 1, 128⟩
  | .coreKvfRoleHome => ⟨.core, 0x123400, 512, 2, 4, 127, 32⟩
  | .coreKvfRoleSeat => ⟨.core, 0x121000, 4096, 2, 8, 512, 64⟩
  | .coreKvfRoleSlot => ⟨.core, 0x123000, 512, 2, 4, 127, 32⟩
  | .hstQp => ⟨.nir, 0x410000, 64, 256, 0, 1, 512⟩
  | .hstTflow => ⟨.nir, 0x430000, 1024, 8, 64, 16, 512⟩
  | .hstMr => ⟨.nir, 0x420000, 32, 64, 0, 1, 256⟩
  | .nirMgmtPeer => ⟨.nir, 0x4010, 16, 4, 0, 1, 128⟩
  | .hstMsix => ⟨.nir, 0xf00000, 16, 2048, 0, 1, 128⟩
  | .hstPba => ⟨.nir, 0xf10000, 8, 32, 0, 1, 64⟩
  | .nirKindleRep => ⟨.nir, 0x9100, 64, 8, 0, 1, 320⟩
  | .nirFpHead => ⟨.nir, 0x600000, 0, 1, 0, 1, 256⟩
  | .nirFpDie => ⟨.nir, 0x600100, 256, 24, 0, 1, 512⟩
  | .nirFpClu => ⟨.nir, 0x602000, 2048, 24, 16, 128, 128⟩

/-- The fields of each register; bits named by no field are reserved and read 0 (R15). -/
def Reg.fields : Reg → List FieldSpec
  | .nirTimeStitchLo => [⟨0, 32, .ro, 0⟩]
  | .nirTimeStitchHi => [⟨0, 32, .ro, 0⟩]
  | .stwXingBridge => [⟨0, 8, .ro, 0⟩, ⟨8, 1, .ro, 0⟩, ⟨9, 1, .ro, 0⟩]
  | .stwXingStkRtn => [⟨0, 12, .ro, 0⟩, ⟨12, 1, .ro, 0⟩]
  | .nirTimeStep => [⟨0, 3, .ro, 5⟩, ⟨3, 3, .ro, 5⟩, ⟨6, 1, .ro, 0⟩, ⟨7, 1, .ro, 0⟩, ⟨8, 3, .rw, 0⟩]
  | .nirTimeStepAt => [⟨0, 64, .ro, 0⟩]
  | .nirTimeStepCount => [⟨0, 16, .rc, 0⟩, ⟨16, 16, .rc, 0⟩]
  | .arrCfg => [⟨0, 2, .rwh, 1⟩, ⟨2, 1, .rwh, 0⟩, ⟨3, 1, .rwh, 0⟩, ⟨4, 1, .ro, 0⟩]
  | .arrState => [⟨0, 3, .ro, 0⟩, ⟨3, 1, .ro, 0⟩]
  | .arrOps => [⟨0, 32, .ro, 0⟩]
  | .arrClip => [⟨0, 16, .rc, 0⟩]
  | .arrAccrej => [⟨0, 16, .rc, 0⟩, ⟨16, 16, .rc, 0⟩]
  | .arrQ2skip => [⟨0, 16, .rc, 0⟩]
  | .arrErr => [⟨0, 1, .w1c, 0⟩, ⟨1, 1, .w1c, 0⟩, ⟨2, 1, .w1c, 0⟩, ⟨3, 1, .w1c, 0⟩, ⟨4, 1, .w1c, 0⟩]
  | .arrTallyOps => [⟨0, 32, .ro, 0⟩]
  | .arrTallyClip => [⟨0, 16, .ro, 0⟩]
  | .arrTallyGen => [⟨0, 16, .ro, 0⟩]
  | .coreAgrp => [⟨0, 64, .rwh, 0⟩]
  | .coreArrstat => [⟨0, 1, .w1c, 0⟩, ⟨1, 1, .w1c, 0⟩, ⟨2, 1, .ro, 0⟩, ⟨3, 1, .ro, 0⟩, ⟨16, 8, .ro, 0⟩, ⟨24, 8, .ro, 0⟩]
  | .arrTrim => [⟨0, 6, .ro, 0⟩, ⟨8, 5, .ro, 0⟩, ⟨13, 1, .ro, 0⟩, ⟨14, 1, .ro, 0⟩, ⟨16, 8, .ro, 0⟩]
  | .coreCalCfg => [⟨0, 13, .rwh, 4096⟩, ⟨16, 3, .rwh, 4⟩]
  | .coreCalSlot => [⟨0, 16, .rwh, 0⟩, ⟨16, 16, .rwh, 0⟩, ⟨32, 4, .rwh, 0⟩, ⟨36, 1, .rwh, 0⟩]
  | .coreCalStat => [⟨0, 1, .ro, 0⟩, ⟨1, 3, .ro, 0⟩, ⟨8, 8, .ro, 0⟩, ⟨16, 8, .ro, 0⟩, ⟨24, 1, .w1c, 0⟩, ⟨25, 1, .w1c, 0⟩]
  | .coreCalrecStamp => [⟨0, 64, .ro, 0⟩]
  | .coreCalrecTemp => [⟨0, 10, .ro, 0⟩]
  | .coreCalrecAge => [⟨0, 32, .ro, 0⟩]
  | .coreCalrecStat => [⟨0, 1, .ro, 0⟩, ⟨1, 1, .ro, 0⟩, ⟨2, 1, .ro, 0⟩, ⟨3, 1, .ro, 0⟩, ⟨4, 4, .ro, 0⟩, ⟨8, 3, .ro, 0⟩]
  | .vecPcntLayer => [⟨0, 8, .rwh, 0⟩]
  | .vecPcntElems => [⟨0, 32, .ro, 0⟩]
  | .vecPcntSatel => [⟨0, 24, .ro, 0⟩]
  | .vecPcntZeroblk => [⟨0, 24, .ro, 0⟩]
  | .vecPcntFaults => [⟨0, 16, .ro, 0⟩, ⟨16, 16, .ro, 0⟩]
  | .vecPcntScales => [⟨0, 16, .ro, 0⟩, ⟨16, 16, .ro, 0⟩]
  | .stwPrecStat => [⟨0, 1, .ro, 0⟩, ⟨1, 1, .ro, 0⟩, ⟨2, 9, .ro, 0⟩]
  | .stwPrecStorms => [⟨0, 16, .rc, 0⟩, ⟨16, 16, .rc, 0⟩]
  | .stwPrecEvcnt => [⟨0, 16, .rc, 0⟩, ⟨16, 16, .rc, 0⟩]
  | .stwPrecLastwin => [⟨0, 64, .ro, 0⟩]
  | .stwPrecThr => [⟨0, 24, .rwh, 0⟩, ⟨24, 24, .rwh, 0⟩, ⟨48, 6, .rwh, 0⟩]
  | .stwPrecLastA => [⟨0, 24, .ro, 0⟩, ⟨24, 24, .ro, 0⟩, ⟨48, 6, .ro, 0⟩, ⟨54, 8, .ro, 0⟩]
  | .stwPrecLastB => [⟨0, 16, .ro, 0⟩, ⟨16, 16, .ro, 0⟩, ⟨32, 16, .ro, 0⟩, ⟨48, 16, .ro, 0⟩]
  | .stwPrecLastC => [⟨0, 40, .ro, 0⟩]
  | .stwPrecLastWin => [⟨0, 64, .ro, 0⟩]
  | .coreSeqTask => [⟨0, 11, .rwh, 0⟩, ⟨12, 3, .ro, 0⟩, ⟨15, 1, .ro, 0⟩]
  | .coreSeqLaunch => [⟨0, 64, .ro, 0⟩]
  | .coreSeqPc => [⟨0, 11, .ro, 0⟩, ⟨12, 3, .ro, 0⟩]
  | .coreSeqSt => [⟨0, 64, .ro, 0⟩]
  | .coreSeqBase => [⟨0, 39, .rwh, 0⟩]
  | .coreSeqBound => [⟨0, 40, .rwh, 0⟩]
  | .coreCredCfg => [⟨0, 4, .rwh, 0⟩, ⟨16, 7, .rwh, 0⟩, ⟨24, 4, .ro, 0⟩]
  | .coreCredUse => [⟨0, 15, .ro, 0⟩, ⟨16, 7, .ro, 0⟩]
  | .coreCredLast => [⟨0, 15, .ro, 0⟩, ⟨16, 7, .ro, 0⟩]
  | .coreCredTab => [⟨0, 15, .rwh, 0⟩]
  | .coreCredEff => [⟨0, 15, .ro, 0⟩]
  | .coreSfltRec => [⟨0, 1, .ro, 0⟩, ⟨1, 6, .ro, 0⟩, ⟨7, 2, .ro, 0⟩, ⟨9, 11, .ro, 0⟩, ⟨20, 8, .ro, 0⟩, ⟨28, 1, .ro, 0⟩]
  | .coreSfltCycle => [⟨0, 32, .ro, 0⟩]
  | .coreSfltStitch => [⟨0, 64, .ro, 0⟩]
  | .coreSfltCnt => [⟨0, 16, .rc, 0⟩]
  | .cluCredCap => [⟨0, 17, .ro, 65536⟩, ⟨32, 17, .ro, 0⟩, ⟨49, 1, .ro, 0⟩]
  | .stwSchedFirst => [⟨0, 5, .ro, 0⟩, ⟨5, 7, .ro, 0⟩, ⟨12, 2, .ro, 0⟩, ⟨14, 6, .ro, 0⟩, ⟨20, 2, .ro, 0⟩, ⟨22, 11, .ro, 0⟩, ⟨33, 8, .ro, 0⟩, ⟨63, 1, .ro, 0⟩]
  | .stwSchedFstitch => [⟨0, 64, .ro, 0⟩]
  | .stwSchedHalt => [⟨0, 64, .ro, 0⟩]
  | .stwSchedCnt => [⟨0, 16, .rc, 0⟩, ⟨16, 16, .rc, 0⟩]
  | .stwSchedHaltlat => [⟨0, 5, .ro, 0⟩, ⟨5, 1, .ro, 0⟩]
  | .vecCfgRnd => [⟨0, 1, .rwh, 0⟩, ⟨1, 1, .rwh, 0⟩, ⟨2, 1, .rwh, 0⟩]
  | .vecCfgStat => [⟨0, 1, .w1c, 0⟩, ⟨1, 1, .w1c, 0⟩, ⟨2, 1, .w1c, 0⟩, ⟨3, 1, .w1c, 0⟩]
  | .vecCfgKey => [⟨0, 64, .ro, 0⟩]
  | .vecCfgCtx => [⟨0, 8, .ro, 0⟩, ⟨8, 28, .ro, 0⟩, ⟨36, 12, .ro, 0⟩]
  | .vecCfgTscale => [⟨0, 32, .rwh, 1065353216⟩]
  | .vecCfgIssue => [⟨0, 16, .rc, 0⟩, ⟨16, 16, .rc, 0⟩]
  | .coreKvfRoleCfg0 => [⟨0, 1, .rwh, 0⟩, ⟨1, 6, .rwh, 0⟩, ⟨7, 6, .rwh, 0⟩, ⟨13, 1, .rwh, 0⟩, ⟨14, 3, .rwh, 0⟩, ⟨17, 7, .rwh, 0⟩, ⟨24, 10, .rwh, 0⟩, ⟨34, 10, .rwh, 0⟩, ⟨44, 10, .rwh, 0⟩, ⟨54, 5, .rwh, 0⟩]
  | .coreKvfRoleCfg1 => [⟨0, 31, .rwh, 0⟩, ⟨32, 16, .rwh, 0⟩, ⟨48, 8, .rwh, 0⟩, ⟨56, 7, .rwh, 0⟩]
  | .coreKvfRoleFree => [⟨0, 7, .ro, 127⟩, ⟨8, 7, .ro, 0⟩, ⟨16, 16, .ro, 0⟩]
  | .coreKvfRoleCnt => [⟨0, 32, .ro, 0⟩, ⟨32, 16, .rc, 0⟩, ⟨48, 16, .rc, 0⟩]
  | .coreKvfRoleHfree => [⟨0, 7, .ro, 127⟩, ⟨8, 7, .ro, 0⟩]
  | .coreKvfStat => [⟨0, 1, .w1c, 0⟩, ⟨1, 1, .ro, 0⟩]
  | .srvKvCmd => [⟨0, 4, .wo, 0⟩, ⟨4, 9, .wo, 0⟩, ⟨13, 9, .wo, 0⟩, ⟨22, 17, .wo, 0⟩, ⟨39, 10, .wo, 0⟩]
  | .srvKvAt => [⟨0, 64, .wo, 0⟩]
  | .srvKvResult => [⟨0, 4, .ro, 0⟩, ⟨4, 1, .ro, 0⟩, ⟨32, 32, .ro, 0⟩]
  | .srvKvLen => [⟨0, 17, .ro, 0⟩, ⟨17, 1, .ro, 0⟩, ⟨18, 1, .ro, 0⟩, ⟨19, 1, .ro, 0⟩]
  | .coreSpadCfg => [⟨0, 8, .rwh, 64⟩]
  | .coreSpadEcc => [⟨0, 16, .rc, 0⟩, ⟨16, 16, .rc, 0⟩]
  | .coreSpadUeaddr => [⟨0, 10, .ro, 0⟩, ⟨10, 5, .ro, 0⟩, ⟨15, 1, .w1c, 0⟩]
  | .cluSbufCfg => [⟨0, 16, .rwh, 0⟩]
  | .cluSbufStat => [⟨0, 16, .ro, 0⟩, ⟨16, 3, .ro, 0⟩]
  | .cluSbufHits => [⟨0, 32, .rc, 0⟩]
  | .cluSbufMisses => [⟨0, 24, .rc, 0⟩]
  | .cluSbufInval => [⟨0, 1, .wo, 0⟩]
  | .cluSbufFence => [⟨0, 16, .rc, 0⟩, ⟨16, 16, .rc, 0⟩]
  | .coreWinRej => [⟨0, 16, .rc, 0⟩, ⟨16, 16, .rc, 0⟩, ⟨32, 16, .rc, 0⟩]
  | .xferChStat => [⟨0, 4, .ro, 0⟩, ⟨4, 1, .ro, 0⟩, ⟨16, 16, .rc, 0⟩]
  | .xferChLast => [⟨0, 4, .ro, 0⟩, ⟨4, 6, .ro, 0⟩, ⟨10, 2, .ro, 0⟩, ⟨12, 1, .ro, 0⟩, ⟨13, 24, .ro, 0⟩]
  | .xferChRej => [⟨0, 16, .rc, 0⟩, ⟨16, 16, .rc, 0⟩]
  | .stkCfg => [⟨0, 4, .rwh, 15⟩]
  | .stkStat => [⟨0, 4, .ro, 0⟩, ⟨4, 4, .ro, 0⟩, ⟨8, 1, .ro, 0⟩, ⟨16, 8, .ro, 0⟩]
  | .stkEcc => [⟨0, 16, .rc, 0⟩, ⟨16, 16, .rc, 0⟩]
  | .stkEcs => [⟨0, 32, .ro, 0⟩]
  | .stkDecl => [⟨0, 20, .ro, 0⟩]
  | .stwWincmdSel => [⟨0, 2, .wo, 0⟩, ⟨2, 7, .wo, 0⟩, ⟨9, 2, .wo, 0⟩, ⟨11, 4, .wo, 0⟩]
  | .stwWincmdVal => [⟨0, 64, .wo, 0⟩]
  | .stwWincmdAt => [⟨0, 64, .wo, 0⟩]
  | .stwWincmdResult => [⟨0, 2, .ro, 0⟩]
  | .cluRtrRoute => [⟨0, 1, .rwh, 0⟩, ⟨1, 6, .rwh, 0⟩, ⟨28, 228, .rwh, 0⟩]
  | .cluRtrRlat => [⟨0, 11, .ro, 0⟩, ⟨11, 7, .ro, 0⟩, ⟨18, 1, .ro, 0⟩]
  | .cluRtrLink => [⟨2, 12, .ro, 0⟩]
  | .cluRtrCnt => [⟨0, 16, .rc, 0⟩, ⟨16, 16, .rc, 0⟩, ⟨32, 16, .rc, 0⟩, ⟨48, 16, .rc, 0⟩]
  | .cluRtrErr => [⟨0, 16, .rc, 0⟩, ⟨16, 3, .ro, 0⟩, ⟨19, 2, .ro, 0⟩, ⟨21, 1, .w1c, 0⟩]
  | .cluRtrErrstitch => [⟨0, 64, .ro, 0⟩]
  | .cluSynObj => [⟨0, 16, .ro, 0⟩, ⟨16, 1, .w1c, 0⟩]
  | .cluSynHsig => [⟨0, 7, .wo, 0⟩, ⟨7, 8, .wo, 0⟩, ⟨15, 1, .wo, 0⟩]
  | .cluSynStat => [⟨0, 16, .rc, 0⟩, ⟨16, 16, .rc, 0⟩]
  | .coreTallyGen => [⟨0, 16, .ro, 0⟩]
  | .stwTallyAddr => [⟨3, 13, .wo, 0⟩]
  | .stwTallyData => [⟨0, 64, .ro, 0⟩]
  | .nirCinchAt => [⟨0, 64, .wo, 0⟩]
  | .nirCinchResult => [⟨0, 2, .ro, 0⟩, ⟨2, 1, .ro, 0⟩, ⟨3, 1, .ro, 0⟩, ⟨16, 16, .ro, 0⟩]
  | .nirCinchT => [⟨0, 64, .ro, 0⟩]
  | .nirCinchCfg => [⟨0, 24, .rw, 65536⟩]
  | .nirCinchMiss => [⟨0, 24, .ro, 0⟩]
  | .nirCinchCount => [⟨0, 16, .rc, 0⟩, ⟨16, 16, .rc, 0⟩]
  | .hrnPart => [⟨0, 24, .rw, 0⟩]
  | .hrnStat => [⟨0, 1, .ro, 0⟩, ⟨1, 1, .ro, 0⟩, ⟨2, 1, .ro, 0⟩, ⟨3, 3, .ro, 0⟩, ⟨6, 1, .ro, 0⟩, ⟨7, 1, .ro, 0⟩, ⟨8, 1, .ro, 0⟩]
  | .hrnActiveId => [⟨0, 64, .ro, 0⟩]
  | .hrnShadowId => [⟨0, 64, .ro, 0⟩]
  | .hrnActAt => [⟨0, 64, .ro, 0⟩]
  | .hrnLoadAddr => [⟨0, 48, .rw, 0⟩]
  | .hrnLoadLen => [⟨0, 33, .rw, 0⟩]
  | .hrnLoadGo => [⟨0, 1, .wo, 0⟩]
  | .hrnLoadResult => [⟨0, 1, .ro, 0⟩, ⟨1, 5, .ro, 0⟩, ⟨6, 12, .ro, 0⟩, ⟨18, 1, .ro, 0⟩, ⟨32, 32, .ro, 0⟩]
  | .hrnLoadRecord => [⟨0, 32, .ro, 0⟩]
  | .hrnSwapCtl => [⟨0, 1, .rw, 0⟩, ⟨1, 1, .rw, 1⟩]
  | .hrnSwapAt => [⟨0, 64, .wo, 0⟩]
  | .hrnSwapResult => [⟨0, 3, .ro, 0⟩, ⟨3, 1, .ro, 0⟩, ⟨4, 1, .ro, 0⟩]
  | .hrnSwapT => [⟨0, 64, .ro, 0⟩]
  | .hrnLaunch => [⟨0, 64, .wo, 0⟩]
  | .hrnCnt => [⟨0, 16, .rc, 0⟩, ⟨16, 16, .rc, 0⟩, ⟨32, 16, .rc, 0⟩, ⟨48, 16, .rc, 0⟩]
  | .nirKeySlot => [⟨0, 64, .ro, 0⟩]
  | .nirKeyStat => [⟨0, 1, .ro, 0⟩, ⟨1, 1, .ro, 0⟩]
  | .srvCfg => [⟨0, 16, .rw, 64⟩, ⟨16, 1, .rw, 0⟩, ⟨32, 32, .rw, 0⟩]
  | .srvStat => [⟨0, 13, .ro, 0⟩, ⟨13, 10, .ro, 0⟩, ⟨23, 1, .ro, 0⟩, ⟨24, 1, .ro, 0⟩, ⟨25, 1, .ro, 0⟩]
  | .srvCnt => [⟨0, 16, .rc, 0⟩, ⟨16, 16, .rc, 0⟩, ⟨32, 16, .rc, 0⟩, ⟨48, 16, .rc, 0⟩]
  | .srvSubqBase => [⟨0, 64, .rw, 0⟩]
  | .srvSubqCfg => [⟨0, 5, .rw, 0⟩, ⟨5, 1, .rw, 0⟩]
  | .srvSubqTail => [⟨0, 32, .rw, 0⟩]
  | .srvSubqHead => [⟨0, 32, .ro, 0⟩]
  | .srvReqCmd => [⟨0, 12, .wo, 0⟩, ⟨12, 2, .wo, 0⟩]
  | .srvReqResult => [⟨0, 2, .ro, 0⟩, ⟨32, 32, .ro, 0⟩]
  | .srvLatGoal => [⟨0, 32, .rw, 0⟩, ⟨32, 32, .rw, 0⟩]
  | .srvLatCnt => [⟨0, 24, .rc, 0⟩, ⟨24, 32, .rc, 0⟩]
  | .srvLatMax => [⟨0, 32, .rc, 0⟩, ⟨32, 32, .rc, 0⟩]
  | .srvRingBase => [⟨0, 64, .rw, 0⟩]
  | .srvRingCfg => [⟨0, 1, .rw, 0⟩, ⟨1, 5, .rw, 0⟩, ⟨6, 11, .rw, 0⟩, ⟨17, 12, .rw, 1⟩, ⟨29, 16, .rw, 64⟩]
  | .srvRingProd => [⟨0, 32, .ro, 0⟩]
  | .srvRingCons => [⟨0, 32, .rw, 0⟩]
  | .srvCtx => [⟨0, 3, .ro, 0⟩, ⟨3, 1, .ro, 0⟩, ⟨4, 9, .ro, 0⟩, ⟨13, 5, .ro, 0⟩, ⟨18, 4, .ro, 0⟩, ⟨22, 16, .ro, 0⟩, ⟨64, 64, .ro, 0⟩]
  | .srvFrameCfg0 => [⟨0, 16, .rwh, 0⟩, ⟨16, 11, .rwh, 0⟩, ⟨27, 4, .rwh, 8⟩, ⟨31, 8, .rwh, 0⟩, ⟨39, 16, .rwh, 0⟩]
  | .srvFrameCfg1 => [⟨0, 16, .rwh, 0⟩, ⟨16, 16, .rwh, 0⟩, ⟨32, 16, .rwh, 64⟩]
  | .srvFrameVocab => [⟨0, 20, .rwh, 0⟩]
  | .srvFrameUsable => [⟨0, 64, .rwh, 0⟩]
  | .srvFrameSmp => [⟨0, 5, .rwh, 0⟩]
  | .srvCls => [⟨0, 1, .rwh, 0⟩, ⟨1, 6, .rwh, 0⟩, ⟨7, 7, .rwh, 0⟩, ⟨14, 16, .rwh, 0⟩]
  | .smpCfg => [⟨0, 39, .rwh, 0⟩]
  | .smpCnt => [⟨0, 32, .ro, 0⟩, ⟨32, 16, .rc, 0⟩, ⟨48, 16, .rc, 0⟩]
  | .stwShardCmd => [⟨0, 2, .wo, 0⟩, ⟨2, 8, .wo, 0⟩]
  | .stwShardRaddr => [⟨0, 64, .rw, 0⟩]
  | .stwShardRkey => [⟨0, 32, .rw, 0⟩]
  | .stwShardLocal => [⟨0, 39, .rw, 0⟩]
  | .stwShardExpect => [⟨0, 64, .rw, 0⟩]
  | .stwShardStat => [⟨0, 3, .ro, 0⟩, ⟨3, 4, .ro, 0⟩, ⟨7, 8, .ro, 0⟩, ⟨25, 39, .ro, 0⟩]
  | .stwShardRef => [⟨0, 39, .rwh, 0⟩]
  | .stwShardScfg => [⟨0, 24, .rwh, 0⟩]
  | .stwShardDcnt => [⟨0, 16, .rc, 0⟩, ⟨16, 16, .rc, 0⟩, ⟨32, 16, .rc, 0⟩, ⟨48, 16, .rc, 0⟩]
  | .coreWptrArr => [⟨0, 24, .rwh, 0⟩, ⟨24, 1, .rwh, 0⟩, ⟨25, 1, .ro, 0⟩]
  | .coreWptrScl => [⟨0, 24, .rwh, 0⟩, ⟨24, 10, .rwh, 0⟩, ⟨34, 10, .rwh, 0⟩]
  | .coreWptrDigSlot => [⟨0, 30, .rwh, 0⟩, ⟨30, 30, .rwh, 0⟩, ⟨60, 4, .rwh, 0⟩]
  | .coreWptrDigStat => [⟨0, 6, .ro, 0⟩, ⟨6, 1, .ro, 0⟩, ⟨16, 16, .rc, 0⟩]
  | .chkCfg => [⟨0, 2, .rw, 0⟩, ⟨2, 1, .rw, 0⟩, ⟨3, 1, .rw, 0⟩]
  | .chkRun => [⟨0, 64, .rw, 0⟩]
  | .chkCnt => [⟨0, 16, .rc, 0⟩, ⟨16, 16, .rc, 0⟩, ⟨32, 16, .rc, 0⟩]
  | .lnkChkAlive => [⟨0, 8, .ro, 0⟩, ⟨8, 8, .ro, 0⟩, ⟨16, 16, .rc, 0⟩, ⟨32, 16, .rc, 0⟩]
  | .srvFrameDig => [⟨0, 24, .rwh, 0⟩, ⟨24, 24, .rwh, 0⟩, ⟨48, 10, .rwh, 0⟩]
  | .nirTorusId => [⟨0, 16, .rw, 0⟩, ⟨16, 4, .rw, 0⟩, ⟨20, 4, .rw, 0⟩, ⟨24, 4, .rw, 0⟩]
  | .nirTorusTcfg => [⟨0, 3, .rw, 7⟩, ⟨3, 1, .rw, 0⟩, ⟨4, 1, .rw, 0⟩, ⟨5, 1, .rw, 0⟩]
  | .nirTorusTstat => [⟨0, 1, .ro, 0⟩, ⟨1, 5, .ro, 0⟩, ⟨16, 32, .ro, 0⟩]
  | .lnkStat => [⟨0, 3, .ro, 0⟩, ⟨3, 16, .ro, 0⟩, ⟨19, 13, .rw, 128⟩, ⟨32, 32, .ro, 0⟩]
  | .lnkCtl => [⟨0, 1, .wo, 0⟩]
  | .lnkCnt => [⟨0, 16, .rc, 0⟩, ⟨16, 16, .rc, 0⟩, ⟨32, 8, .rc, 0⟩, ⟨40, 8, .rc, 0⟩, ⟨48, 16, .rc, 0⟩]
  | .hstPcieStat => [⟨0, 3, .ro, 0⟩, ⟨3, 5, .ro, 0⟩, ⟨8, 1, .ro, 0⟩]
  | .hstPcieCnt => [⟨0, 16, .rc, 0⟩, ⟨16, 16, .rc, 0⟩]
  | .hstPcieRefaddr => [⟨0, 37, .ro, 0⟩, ⟨37, 1, .ro, 0⟩]
  | .hstBar2sel => [⟨0, 5, .rw, 0⟩]
  | .stwHwin => [⟨0, 7, .rw, 0⟩, ⟨7, 2, .rw, 0⟩, ⟨9, 14, .rw, 0⟩]
  | .hstRdmaCnt => [⟨0, 16, .rc, 0⟩, ⟨16, 16, .rc, 0⟩, ⟨32, 16, .rc, 0⟩, ⟨48, 16, .rc, 0⟩]
  | .nirMgmtCfg => [⟨0, 1, .rw, 0⟩, ⟨1, 4, .rw, 0⟩]
  | .nirPwrStat => [⟨0, 2, .ro, 0⟩, ⟨2, 3, .ro, 0⟩, ⟨16, 16, .ro, 0⟩]
  | .nirPwrPin => [⟨0, 16, .ro, 0⟩, ⟨16, 16, .ro, 0⟩]
  | .nirPwrGov => [⟨0, 16, .rw, 0⟩, ⟨16, 3, .ro, 0⟩]
  | .nirPwrGovcnt => [⟨0, 16, .rc, 0⟩, ⟨16, 16, .rc, 0⟩, ⟨32, 16, .rc, 0⟩, ⟨48, 16, .rc, 0⟩]
  | .nirBilSerial => [⟨0, 64, .ro, 0⟩]
  | .nirBilStat => [⟨0, 3, .ro, 0⟩, ⟨3, 3, .ro, 0⟩, ⟨6, 1, .ro, 0⟩, ⟨7, 1, .ro, 0⟩, ⟨16, 12, .ro, 0⟩]
  | .nirBilWear => [⟨0, 32, .ro, 0⟩, ⟨32, 16, .ro, 0⟩, ⟨48, 16, .ro, 0⟩]
  | .nirBilMeas => [⟨0, 12, .ro, 0⟩, ⟨12, 10, .ro, 0⟩]
  | .stwPwrRail => [⟨0, 6, .ro, 0⟩, ⟨16, 10, .ro, 0⟩]
  | .stwPwrIdie => [⟨0, 12, .ro, 0⟩]
  | .stwPwrSeqCmd => [⟨0, 2, .wo, 0⟩, ⟨2, 7, .wo, 0⟩]
  | .stwPwrSeqAt => [⟨0, 64, .wo, 0⟩]
  | .stwPwrSeqResult => [⟨0, 3, .ro, 0⟩]
  | .stwPwrCnt => [⟨0, 16, .rc, 0⟩, ⟨16, 16, .rc, 0⟩, ⟨32, 16, .rc, 0⟩, ⟨48, 16, .rc, 0⟩]
  | .cluPwrStat => [⟨0, 3, .ro, 0⟩, ⟨3, 1, .ro, 0⟩, ⟨4, 6, .ro, 0⟩, ⟨10, 9, .ro, 0⟩, ⟨19, 1, .ro, 0⟩, ⟨20, 4, .ro, 0⟩, ⟨24, 1, .w1c, 0⟩]
  | .cluPwrMeas => [⟨0, 10, .ro, 0⟩, ⟨10, 10, .ro, 0⟩, ⟨20, 8, .ro, 0⟩]
  | .cluPwrCnt => [⟨0, 16, .rc, 0⟩, ⟨16, 16, .rc, 0⟩, ⟨32, 16, .rc, 0⟩, ⟨48, 16, .rc, 0⟩]
  | .tlmRef => [⟨0, 1, .rw, 0⟩, ⟨1, 1, .ro, 0⟩, ⟨2, 2, .rw, 0⟩, ⟨4, 1, .ro, 0⟩]
  | .tlmUrg => [⟨0, 9, .wo, 0⟩]
  | .tlmCnt => [⟨0, 16, .rc, 0⟩, ⟨16, 12, .rc, 0⟩, ⟨28, 12, .rc, 0⟩, ⟨40, 8, .rc, 0⟩, ⟨48, 8, .rc, 0⟩, ⟨56, 8, .rc, 0⟩]
  | .tlmDac => [⟨0, 10, .rw, 0⟩, ⟨10, 1, .rw, 1⟩, ⟨16, 16, .ro, 0⟩]
  | .tlmDacFaultyB => [⟨0, 16, .ro, 0⟩]
  | .tlmQ => [⟨0, 64, .rc, 0⟩]
  | .tlmAccSum => [⟨0, 32, .ro, 0⟩, ⟨32, 20, .ro, 0⟩]
  | .tlmAccRange => [⟨0, 12, .ro, 4095⟩, ⟨12, 12, .ro, 0⟩, ⟨31, 1, .wo, 0⟩]
  | .tlmCh => [⟨0, 6, .rw, 0⟩, ⟨6, 3, .rw, 0⟩, ⟨9, 1, .rw, 0⟩, ⟨10, 2, .rw, 0⟩, ⟨12, 12, .rw, 0⟩, ⟨24, 16, .rw, 0⟩, ⟨40, 1, .rw, 0⟩, ⟨41, 6, .rw, 0⟩, ⟨47, 1, .rw, 0⟩]
  | .stwThmDie => [⟨0, 10, .ro, 0⟩, ⟨10, 7, .ro, 0⟩, ⟨17, 10, .ro, 0⟩, ⟨27, 10, .ro, 0⟩]
  | .stwThmCt => [⟨0, 10, .ro, 0⟩, ⟨10, 2, .ro, 0⟩, ⟨12, 2, .ro, 0⟩, ⟨14, 1, .ro, 0⟩, ⟨15, 1, .ro, 0⟩, ⟨16, 1, .ro, 0⟩]
  | .nirCoolMeas => [⟨0, 10, .ro, 0⟩, ⟨10, 10, .ro, 0⟩, ⟨20, 12, .ro, 0⟩, ⟨32, 12, .ro, 0⟩, ⟨44, 1, .ro, 0⟩, ⟨45, 1, .ro, 0⟩]
  | .nirCoolCfg => [⟨0, 14, .rw, 100⟩, ⟨14, 18, .rw, 4150⟩]
  | .nirCoolMargin => [⟨0, 16, .ro, 65535⟩, ⟨16, 16, .ro, 65535⟩, ⟨32, 16, .ro, 0⟩, ⟨48, 16, .ro, 0⟩]
  | .nirThmStat => [⟨0, 3, .ro, 0⟩, ⟨3, 5, .ro, 0⟩, ⟨8, 10, .ro, 0⟩, ⟨18, 1, .ro, 0⟩]
  | .nirThmSdrec => [⟨0, 3, .ro, 0⟩, ⟨3, 5, .ro, 0⟩, ⟨8, 1, .ro, 0⟩, ⟨9, 10, .ro, 0⟩, ⟨32, 32, .ro, 0⟩]
  | .nirKindleStat => [⟨0, 3, .ro, 0⟩, ⟨3, 3, .ro, 0⟩, ⟨6, 1, .ro, 0⟩, ⟨7, 3, .ro, 0⟩]
  | .nirKindleCmd => [⟨0, 2, .wo, 0⟩]
  | .nirKindleCfg => [⟨0, 16, .rw, 300⟩]
  | .nirEvqBase => [⟨0, 64, .rw, 0⟩]
  | .nirEvqCfg => [⟨0, 1, .rw, 0⟩, ⟨1, 5, .rw, 0⟩, ⟨6, 11, .rw, 0⟩]
  | .nirEvqProd => [⟨0, 32, .ro, 0⟩]
  | .nirEvqCnt => [⟨0, 11, .ro, 0⟩, ⟨16, 16, .rc, 0⟩]
  | .nirEmberStat => [⟨0, 1, .ro, 0⟩, ⟨1, 8, .ro, 0⟩, ⟨9, 3, .ro, 0⟩, ⟨12, 2, .ro, 0⟩]
  | .nirEmberCmd => [⟨0, 2, .wo, 0⟩, ⟨2, 1, .wo, 0⟩, ⟨3, 3, .wo, 0⟩]
  | .nirEmberCfg => [⟨0, 16, .rw, 10000⟩]
  | .srvFaultHalt => [⟨0, 64, .ro, 0⟩]
  | .srvFaultCnt => [⟨0, 16, .rc, 0⟩, ⟨16, 16, .rc, 0⟩, ⟨32, 16, .rc, 0⟩, ⟨48, 16, .ro, 0⟩]
  | .nirIdInfo => [⟨0, 8, .ro, 0⟩, ⟨8, 8, .ro, 0⟩, ⟨16, 16, .ro, 0⟩]
  | .nirIdSerial => [⟨0, 64, .ro, 0⟩]
  | .nirIdMac => [⟨0, 48, .ro, 0⟩]
  | .nirIdLimits => [⟨0, 16, .ro, 0⟩, ⟨16, 16, .ro, 0⟩, ⟨32, 16, .ro, 0⟩]
  | .nirIdSites => [⟨0, 24, .ro, 0⟩]
  | .cluSbufScrub => [⟨0, 8, .rwh, 64⟩]
  | .cluSbufEcc => [⟨0, 16, .rc, 0⟩, ⟨16, 16, .rc, 0⟩]
  | .cluWinRej => [⟨0, 16, .rc, 0⟩, ⟨16, 16, .rc, 0⟩, ⟨32, 16, .rc, 0⟩]
  | .stkWinRej => [⟨0, 16, .rc, 0⟩, ⟨16, 16, .rc, 0⟩, ⟨32, 16, .rc, 0⟩]
  | .cluTallyGen => [⟨0, 16, .ro, 0⟩]
  | .stwTallyGen => [⟨0, 16, .ro, 0⟩]
  | .nirTallyAddr => [⟨3, 13, .wo, 0⟩]
  | .nirTallyData => [⟨0, 64, .ro, 0⟩]
  | .srvRingProdaddr => [⟨0, 64, .rw, 0⟩]
  | .stwShardLen => [⟨0, 39, .rw, 0⟩]
  | .stwShardRefDigest => [⟨0, 64, .rwh, 0⟩]
  | .lnkChkCfg => [⟨0, 2, .rw, 0⟩, ⟨2, 1, .rw, 0⟩, ⟨3, 1, .rw, 0⟩]
  | .lnkChkCnt => [⟨0, 16, .rc, 0⟩, ⟨16, 16, .rc, 0⟩, ⟨32, 16, .rc, 0⟩]
  | .nirBilLot => [⟨0, 64, .ro, 0⟩]
  | .nirEvqProdaddr => [⟨0, 64, .rw, 0⟩]
  | .nirEvqCons => [⟨0, 32, .rw, 0⟩]
  | .coreDesc => [⟨0, 256, .rwh, 0⟩]
  | .coreWin => [⟨0, 1, .rwh, 0⟩, ⟨1, 1, .rwh, 0⟩, ⟨2, 4, .rwh, 0⟩, ⟨6, 6, .rwh, 0⟩, ⟨12, 1, .rwh, 0⟩, ⟨13, 16, .rwh, 0⟩, ⟨32, 39, .rwh, 0⟩, ⟨71, 40, .rwh, 0⟩]
  | .cluWin => [⟨0, 1, .rwh, 0⟩, ⟨1, 1, .rwh, 0⟩, ⟨2, 4, .rwh, 0⟩, ⟨6, 6, .rwh, 0⟩, ⟨12, 1, .rwh, 0⟩, ⟨13, 16, .rwh, 0⟩, ⟨32, 39, .rwh, 0⟩, ⟨71, 40, .rwh, 0⟩]
  | .stkWin => [⟨0, 1, .rwh, 0⟩, ⟨1, 1, .rwh, 0⟩, ⟨2, 4, .rwh, 0⟩, ⟨6, 6, .rwh, 0⟩, ⟨12, 1, .rwh, 0⟩, ⟨13, 16, .rwh, 0⟩, ⟨32, 39, .rwh, 0⟩, ⟨71, 40, .rwh, 0⟩]
  | .coreKvfRoleHome => [⟨0, 1, .rwh, 0⟩, ⟨1, 11, .rwh, 0⟩]
  | .coreKvfRoleSeat => [⟨0, 17, .ro, 0⟩, ⟨17, 7, .ro, 127⟩, ⟨24, 7, .ro, 0⟩, ⟨31, 7, .ro, 127⟩, ⟨38, 7, .ro, 0⟩, ⟨45, 1, .ro, 0⟩, ⟨46, 1, .ro, 0⟩, ⟨47, 1, .ro, 0⟩]
  | .coreKvfRoleSlot => [⟨0, 7, .ro, 127⟩, ⟨7, 6, .ro, 0⟩, ⟨13, 1, .ro, 0⟩, ⟨14, 1, .ro, 0⟩, ⟨16, 16, .ro, 0⟩]
  | .hstQp => [⟨0, 1, .rw, 0⟩, ⟨1, 1, .rw, 0⟩, ⟨2, 2, .rw, 0⟩, ⟨4, 3, .rw, 0⟩, ⟨7, 1, .rw, 0⟩, ⟨8, 8, .rw, 0⟩, ⟨16, 8, .ro, 0⟩, ⟨24, 8, .ro, 0⟩, ⟨32, 24, .rw, 0⟩, ⟨64, 24, .rw, 0⟩, ⟨96, 24, .rw, 0⟩, ⟨128, 128, .rw, 0⟩, ⟨256, 48, .rw, 0⟩, ⟨304, 6, .rw, 0⟩, ⟨312, 8, .rw, 0⟩, ⟨320, 8, .rw, 0⟩, ⟨328, 8, .rw, 0⟩]
  | .hstTflow => [⟨0, 1, .rw, 0⟩, ⟨1, 1, .rw, 0⟩, ⟨2, 2, .rw, 0⟩, ⟨4, 3, .rw, 0⟩, ⟨7, 1, .rw, 0⟩, ⟨8, 8, .rw, 0⟩, ⟨16, 8, .ro, 0⟩, ⟨24, 8, .ro, 0⟩, ⟨32, 16, .rw, 0⟩, ⟨64, 16, .rw, 0⟩, ⟨128, 128, .rw, 0⟩, ⟨256, 48, .rw, 0⟩, ⟨304, 6, .rw, 0⟩, ⟨312, 8, .rw, 0⟩]
  | .hstMr => [⟨0, 1, .rw, 0⟩, ⟨1, 1, .rw, 0⟩, ⟨2, 1, .rw, 0⟩, ⟨3, 5, .rw, 0⟩, ⟨32, 32, .rw, 0⟩, ⟨64, 64, .rw, 0⟩, ⟨128, 64, .rw, 0⟩]
  | .nirMgmtPeer => [⟨0, 128, .rw, 0⟩]
  | .hstMsix => [⟨0, 64, .rw, 0⟩, ⟨64, 32, .rw, 0⟩, ⟨96, 1, .rw, 1⟩]
  | .hstPba => [⟨0, 64, .ro, 0⟩]
  | .nirKindleRep => [⟨0, 3, .ro, 0⟩, ⟨3, 2, .ro, 0⟩, ⟨5, 1, .ro, 0⟩, ⟨6, 3, .ro, 0⟩, ⟨9, 32, .ro, 0⟩, ⟨41, 32, .ro, 0⟩, ⟨73, 24, .ro, 0⟩, ⟨97, 24, .ro, 0⟩, ⟨121, 32, .ro, 0⟩, ⟨153, 32, .ro, 0⟩, ⟨185, 32, .ro, 0⟩]
  | .nirFpHead => [⟨0, 8, .ro, 0⟩, ⟨8, 8, .ro, 0⟩, ⟨16, 8, .ro, 0⟩, ⟨32, 32, .ro, 0⟩, ⟨64, 64, .ro, 0⟩, ⟨128, 64, .ro, 0⟩]
  | .nirFpDie => [⟨0, 8, .ro, 0⟩, ⟨8, 8, .ro, 0⟩, ⟨16, 16, .ro, 0⟩, ⟨32, 2, .ro, 0⟩, ⟨34, 2, .ro, 0⟩, ⟨40, 8, .ro, 0⟩, ⟨48, 8, .ro, 0⟩, ⟨64, 8, .ro, 0⟩, ⟨72, 8, .ro, 0⟩, ⟨80, 16, .ro, 0⟩, ⟨96, 8, .ro, 0⟩, ⟨104, 8, .ro, 0⟩, ⟨112, 16, .ro, 0⟩, ⟨128, 8, .ro, 0⟩, ⟨136, 8, .ro, 0⟩, ⟨144, 16, .ro, 0⟩, ⟨160, 8, .ro, 0⟩, ⟨168, 8, .ro, 0⟩, ⟨176, 16, .ro, 0⟩, ⟨192, 16, .ro, 0⟩, ⟨208, 16, .ro, 0⟩, ⟨224, 16, .ro, 0⟩, ⟨240, 16, .ro, 0⟩, ⟨256, 16, .ro, 0⟩, ⟨272, 16, .ro, 0⟩, ⟨288, 16, .ro, 0⟩, ⟨304, 16, .ro, 0⟩, ⟨320, 16, .ro, 0⟩, ⟨336, 16, .ro, 0⟩, ⟨352, 16, .ro, 0⟩, ⟨368, 16, .ro, 0⟩, ⟨384, 32, .ro, 0⟩, ⟨416, 32, .ro, 0⟩, ⟨448, 16, .ro, 0⟩, ⟨464, 8, .ro, 0⟩, ⟨472, 8, .ro, 0⟩]
  | .nirFpClu => [⟨0, 8, .ro, 0⟩, ⟨8, 8, .ro, 0⟩, ⟨16, 16, .ro, 0⟩, ⟨32, 8, .ro, 0⟩, ⟨40, 8, .ro, 0⟩, ⟨48, 8, .ro, 0⟩, ⟨56, 8, .ro, 0⟩]

def Reg.part1 : List Reg :=
  [.nirTimeStitchLo, .nirTimeStitchHi, .stwXingBridge, .stwXingStkRtn, .nirTimeStep, .nirTimeStepAt, .nirTimeStepCount,
   .arrCfg, .arrState, .arrOps, .arrClip, .arrAccrej, .arrQ2skip, .arrErr, .arrTallyOps, .arrTallyClip, .arrTallyGen,
   .coreAgrp, .coreArrstat, .arrTrim, .coreCalCfg, .coreCalSlot, .coreCalStat, .coreCalrecStamp, .coreCalrecTemp,
   .coreCalrecAge, .coreCalrecStat, .vecPcntLayer, .vecPcntElems, .vecPcntSatel, .vecPcntZeroblk, .vecPcntFaults,
   .vecPcntScales, .stwPrecStat, .stwPrecStorms, .stwPrecEvcnt, .stwPrecLastwin, .stwPrecThr, .stwPrecLastA,
   .stwPrecLastB, .stwPrecLastC, .stwPrecLastWin, .coreSeqTask, .coreSeqLaunch, .coreSeqPc, .coreSeqSt, .coreSeqBase,
   .coreSeqBound, .coreCredCfg, .coreCredUse, .coreCredLast, .coreCredTab, .coreCredEff, .coreSfltRec, .coreSfltCycle,
   .coreSfltStitch, .coreSfltCnt, .cluCredCap, .stwSchedFirst, .stwSchedFstitch]

def Reg.part2 : List Reg :=
  [.stwSchedHalt, .stwSchedCnt, .stwSchedHaltlat, .vecCfgRnd, .vecCfgStat, .vecCfgKey, .vecCfgCtx, .vecCfgTscale,
   .vecCfgIssue, .coreKvfRoleCfg0, .coreKvfRoleCfg1, .coreKvfRoleFree, .coreKvfRoleCnt, .coreKvfRoleHfree, .coreKvfStat,
   .srvKvCmd, .srvKvAt, .srvKvResult, .srvKvLen, .coreSpadCfg, .coreSpadEcc, .coreSpadUeaddr, .cluSbufCfg, .cluSbufStat,
   .cluSbufHits, .cluSbufMisses, .cluSbufInval, .cluSbufFence, .coreWinRej, .xferChStat, .xferChLast, .xferChRej,
   .stkCfg, .stkStat, .stkEcc, .stkEcs, .stkDecl, .stwWincmdSel, .stwWincmdVal, .stwWincmdAt, .stwWincmdResult,
   .cluRtrRoute, .cluRtrRlat, .cluRtrLink, .cluRtrCnt, .cluRtrErr, .cluRtrErrstitch, .cluSynObj, .cluSynHsig,
   .cluSynStat, .coreTallyGen, .stwTallyAddr, .stwTallyData, .nirCinchAt, .nirCinchResult, .nirCinchT, .nirCinchCfg,
   .nirCinchMiss, .nirCinchCount, .hrnPart]

def Reg.part3 : List Reg :=
  [.hrnStat, .hrnActiveId, .hrnShadowId, .hrnActAt, .hrnLoadAddr, .hrnLoadLen, .hrnLoadGo, .hrnLoadResult,
   .hrnLoadRecord, .hrnSwapCtl, .hrnSwapAt, .hrnSwapResult, .hrnSwapT, .hrnLaunch, .hrnCnt, .nirKeySlot, .nirKeyStat,
   .srvCfg, .srvStat, .srvCnt, .srvSubqBase, .srvSubqCfg, .srvSubqTail, .srvSubqHead, .srvReqCmd, .srvReqResult,
   .srvLatGoal, .srvLatCnt, .srvLatMax, .srvRingBase, .srvRingCfg, .srvRingProd, .srvRingCons, .srvCtx, .srvFrameCfg0,
   .srvFrameCfg1, .srvFrameVocab, .srvFrameUsable, .srvFrameSmp, .srvCls, .smpCfg, .smpCnt, .stwShardCmd,
   .stwShardRaddr, .stwShardRkey, .stwShardLocal, .stwShardExpect, .stwShardStat, .stwShardRef, .stwShardScfg,
   .stwShardDcnt, .coreWptrArr, .coreWptrScl, .coreWptrDigSlot, .coreWptrDigStat, .chkCfg, .chkRun, .chkCnt,
   .lnkChkAlive, .srvFrameDig]

def Reg.part4 : List Reg :=
  [.nirTorusId, .nirTorusTcfg, .nirTorusTstat, .lnkStat, .lnkCtl, .lnkCnt, .hstPcieStat, .hstPcieCnt, .hstPcieRefaddr,
   .hstBar2sel, .stwHwin, .hstRdmaCnt, .nirMgmtCfg, .nirPwrStat, .nirPwrPin, .nirPwrGov, .nirPwrGovcnt, .nirBilSerial,
   .nirBilStat, .nirBilWear, .nirBilMeas, .stwPwrRail, .stwPwrIdie, .stwPwrSeqCmd, .stwPwrSeqAt, .stwPwrSeqResult,
   .stwPwrCnt, .cluPwrStat, .cluPwrMeas, .cluPwrCnt, .tlmRef, .tlmUrg, .tlmCnt, .tlmDac, .tlmDacFaultyB, .tlmQ,
   .tlmAccSum, .tlmAccRange, .tlmCh, .stwThmDie, .stwThmCt, .nirCoolMeas, .nirCoolCfg, .nirCoolMargin, .nirThmStat,
   .nirThmSdrec, .nirKindleStat, .nirKindleCmd, .nirKindleCfg, .nirEvqBase, .nirEvqCfg, .nirEvqProd, .nirEvqCnt,
   .nirEmberStat, .nirEmberCmd, .nirEmberCfg, .srvFaultHalt, .srvFaultCnt, .nirIdInfo, .nirIdSerial]

def Reg.part5 : List Reg :=
  [.nirIdMac, .nirIdLimits, .nirIdSites, .cluSbufScrub, .cluSbufEcc, .cluWinRej, .stkWinRej, .cluTallyGen, .stwTallyGen,
   .nirTallyAddr, .nirTallyData, .srvRingProdaddr, .stwShardLen, .stwShardRefDigest, .lnkChkCfg, .lnkChkCnt, .nirBilLot,
   .nirEvqProdaddr, .nirEvqCons, .coreDesc, .coreWin, .cluWin, .stkWin, .coreKvfRoleHome, .coreKvfRoleSeat,
   .coreKvfRoleSlot, .hstQp, .hstTflow, .hstMr, .nirMgmtPeer, .hstMsix, .hstPba, .nirKindleRep, .nirFpHead, .nirFpDie,
   .nirFpClu]

/-- Every register, in the order of the chapters. -/
def Reg.all : List Reg := Reg.part1 ++ Reg.part2 ++ Reg.part3 ++ Reg.part4 ++ Reg.part5

end Sys2Proof.Machine

/-! ## The fields by name: `F.<register>.<field>` -/

namespace Sys2Proof.F.nirTimeStitchLo
def count_lo : Fld := ⟨.nirTimeStitchLo, 0, 32⟩
end Sys2Proof.F.nirTimeStitchLo
namespace Sys2Proof.F.nirTimeStitchHi
def count_hi : Fld := ⟨.nirTimeStitchHi, 0, 32⟩
end Sys2Proof.F.nirTimeStitchHi
namespace Sys2Proof.F.stwXingBridge
def lat_cc : Fld := ⟨.stwXingBridge, 0, 8⟩
def valid : Fld := ⟨.stwXingBridge, 8, 1⟩
def unused : Fld := ⟨.stwXingBridge, 9, 1⟩
end Sys2Proof.F.stwXingBridge
namespace Sys2Proof.F.stwXingStkRtn
def lat_cc : Fld := ⟨.stwXingStkRtn, 0, 12⟩
def valid : Fld := ⟨.stwXingStkRtn, 12, 1⟩
end Sys2Proof.F.stwXingStkRtn
namespace Sys2Proof.F.nirTimeStep
def cur_step : Fld := ⟨.nirTimeStep, 0, 3⟩
def next_step : Fld := ⟨.nirTimeStep, 3, 3⟩
def pending : Fld := ⟨.nirTimeStep, 6, 1⟩
def standby_locked : Fld := ⟨.nirTimeStep, 7, 1⟩
def ceil_step : Fld := ⟨.nirTimeStep, 8, 3⟩
end Sys2Proof.F.nirTimeStep
namespace Sys2Proof.F.nirTimeStepAt
def stitch : Fld := ⟨.nirTimeStepAt, 0, 64⟩
end Sys2Proof.F.nirTimeStepAt
namespace Sys2Proof.F.nirTimeStepCount
def down : Fld := ⟨.nirTimeStepCount, 0, 16⟩
def up : Fld := ⟨.nirTimeStepCount, 16, 16⟩
end Sys2Proof.F.nirTimeStepCount
namespace Sys2Proof.F.arrCfg
def wfmt : Fld := ⟨.arrCfg, 0, 2⟩
def enable : Fld := ⟨.arrCfg, 2, 1⟩
def wide_ok : Fld := ⟨.arrCfg, 3, 1⟩
def set : Fld := ⟨.arrCfg, 4, 1⟩
end Sys2Proof.F.arrCfg
namespace Sys2Proof.F.arrState
def state : Fld := ⟨.arrState, 0, 3⟩
def loading : Fld := ⟨.arrState, 3, 1⟩
end Sys2Proof.F.arrState
namespace Sys2Proof.F.arrOps
def count : Fld := ⟨.arrOps, 0, 32⟩
end Sys2Proof.F.arrOps
namespace Sys2Proof.F.arrClip
def count : Fld := ⟨.arrClip, 0, 16⟩
end Sys2Proof.F.arrClip
namespace Sys2Proof.F.arrAccrej
def wr_rej : Fld := ⟨.arrAccrej, 0, 16⟩
def rd_rej : Fld := ⟨.arrAccrej, 16, 16⟩
end Sys2Proof.F.arrAccrej
namespace Sys2Proof.F.arrQ2skip
def count : Fld := ⟨.arrQ2skip, 0, 16⟩
end Sys2Proof.F.arrQ2skip
namespace Sys2Proof.F.arrErr
def sat : Fld := ⟨.arrErr, 0, 1⟩
def retired_use : Fld := ⟨.arrErr, 1, 1⟩
def busy_rej : Fld := ⟨.arrErr, 2, 1⟩
def q2_skip : Fld := ⟨.arrErr, 3, 1⟩
def align : Fld := ⟨.arrErr, 4, 1⟩
end Sys2Proof.F.arrErr
namespace Sys2Proof.F.arrTallyOps
def count : Fld := ⟨.arrTallyOps, 0, 32⟩
end Sys2Proof.F.arrTallyOps
namespace Sys2Proof.F.arrTallyClip
def count : Fld := ⟨.arrTallyClip, 0, 16⟩
end Sys2Proof.F.arrTallyClip
namespace Sys2Proof.F.arrTallyGen
def gen : Fld := ⟨.arrTallyGen, 0, 16⟩
end Sys2Proof.F.arrTallyGen
namespace Sys2Proof.F.coreAgrp
def mask : Fld := ⟨.coreAgrp, 0, 64⟩
end Sys2Proof.F.coreAgrp
namespace Sys2Proof.F.coreArrstat
def sat : Fld := ⟨.coreArrstat, 0, 1⟩
def errmark : Fld := ⟨.coreArrstat, 1, 1⟩
def compute_set : Fld := ⟨.coreArrstat, 2, 1⟩
def streaming : Fld := ⟨.coreArrstat, 3, 1⟩
def retired : Fld := ⟨.coreArrstat, 16, 8⟩
def mapped_out : Fld := ⟨.coreArrstat, 24, 8⟩
end Sys2Proof.F.coreArrstat
namespace Sys2Proof.F.arrTrim
def offs : Fld := ⟨.arrTrim, 0, 6⟩
def gain : Fld := ⟨.arrTrim, 8, 5⟩
def offs_lim : Fld := ⟨.arrTrim, 13, 1⟩
def gain_lim : Fld := ⟨.arrTrim, 14, 1⟩
def miss : Fld := ⟨.arrTrim, 16, 8⟩
end Sys2Proof.F.arrTrim
namespace Sys2Proof.F.coreCalCfg
def calint : Fld := ⟨.coreCalCfg, 0, 13⟩
def trig_dt : Fld := ⟨.coreCalCfg, 16, 3⟩
end Sys2Proof.F.coreCalCfg
namespace Sys2Proof.F.coreCalSlot
def period : Fld := ⟨.coreCalSlot, 0, 16⟩
def phase : Fld := ⟨.coreCalSlot, 16, 16⟩
def group : Fld := ⟨.coreCalSlot, 32, 4⟩
def mandatory : Fld := ⟨.coreCalSlot, 36, 1⟩
end Sys2Proof.F.coreCalSlot
namespace Sys2Proof.F.coreCalStat
def active : Fld := ⟨.coreCalStat, 0, 1⟩
def entry : Fld := ⟨.coreCalStat, 1, 3⟩
def stale_cnt : Fld := ⟨.coreCalStat, 8, 8⟩
def nocal_cnt : Fld := ⟨.coreCalStat, 16, 8⟩
def lag : Fld := ⟨.coreCalStat, 24, 1⟩
def retire : Fld := ⟨.coreCalStat, 25, 1⟩
end Sys2Proof.F.coreCalStat
namespace Sys2Proof.F.coreCalrecStamp
def stitch : Fld := ⟨.coreCalrecStamp, 0, 64⟩
end Sys2Proof.F.coreCalrecStamp
namespace Sys2Proof.F.coreCalrecTemp
def t_cal : Fld := ⟨.coreCalrecTemp, 0, 10⟩
end Sys2Proof.F.coreCalrecTemp
namespace Sys2Proof.F.coreCalrecAge
def eqh : Fld := ⟨.coreCalrecAge, 0, 32⟩
end Sys2Proof.F.coreCalrecAge
namespace Sys2Proof.F.coreCalrecStat
def valid : Fld := ⟨.coreCalrecStat, 0, 1⟩
def stale : Fld := ⟨.coreCalrecStat, 1, 1⟩
def pend : Fld := ⟨.coreCalrecStat, 2, 1⟩
def lag : Fld := ⟨.coreCalrecStat, 3, 1⟩
def miss_run : Fld := ⟨.coreCalrecStat, 4, 4⟩
def retire_why : Fld := ⟨.coreCalrecStat, 8, 3⟩
end Sys2Proof.F.coreCalrecStat
namespace Sys2Proof.F.vecPcntLayer
def layer : Fld := ⟨.vecPcntLayer, 0, 8⟩
end Sys2Proof.F.vecPcntLayer
namespace Sys2Proof.F.vecPcntElems
def count : Fld := ⟨.vecPcntElems, 0, 32⟩
end Sys2Proof.F.vecPcntElems
namespace Sys2Proof.F.vecPcntSatel
def count : Fld := ⟨.vecPcntSatel, 0, 24⟩
end Sys2Proof.F.vecPcntSatel
namespace Sys2Proof.F.vecPcntZeroblk
def count : Fld := ⟨.vecPcntZeroblk, 0, 24⟩
end Sys2Proof.F.vecPcntZeroblk
namespace Sys2Proof.F.vecPcntFaults
def tsfault : Fld := ⟨.vecPcntFaults, 0, 16⟩
def nonfin : Fld := ⟨.vecPcntFaults, 16, 16⟩
end Sys2Proof.F.vecPcntFaults
namespace Sys2Proof.F.vecPcntScales
def badscale : Fld := ⟨.vecPcntScales, 0, 16⟩
def arrsat : Fld := ⟨.vecPcntScales, 16, 16⟩
end Sys2Proof.F.vecPcntScales
namespace Sys2Proof.F.stwPrecStat
def lead : Fld := ⟨.stwPrecStat, 0, 1⟩
def storm : Fld := ⟨.stwPrecStat, 1, 1⟩
def flagged : Fld := ⟨.stwPrecStat, 2, 9⟩
end Sys2Proof.F.stwPrecStat
namespace Sys2Proof.F.stwPrecStorms
def storm_ev : Fld := ⟨.stwPrecStorms, 0, 16⟩
def storm_win : Fld := ⟨.stwPrecStorms, 16, 16⟩
end Sys2Proof.F.stwPrecStorms
namespace Sys2Proof.F.stwPrecEvcnt
def flag_ev : Fld := ⟨.stwPrecEvcnt, 0, 16⟩
def suppressed : Fld := ⟨.stwPrecEvcnt, 16, 16⟩
end Sys2Proof.F.stwPrecEvcnt
namespace Sys2Proof.F.stwPrecLastwin
def stitch : Fld := ⟨.stwPrecLastwin, 0, 64⟩
end Sys2Proof.F.stwPrecLastwin
namespace Sys2Proof.F.stwPrecThr
def sat_thr : Fld := ⟨.stwPrecThr, 0, 24⟩
def zero_thr : Fld := ⟨.stwPrecThr, 24, 24⟩
def en : Fld := ⟨.stwPrecThr, 48, 6⟩
end Sys2Proof.F.stwPrecThr
namespace Sys2Proof.F.stwPrecLastA
def satel : Fld := ⟨.stwPrecLastA, 0, 24⟩
def zeroblk : Fld := ⟨.stwPrecLastA, 24, 24⟩
def kinds : Fld := ⟨.stwPrecLastA, 48, 6⟩
def repeat_ : Fld := ⟨.stwPrecLastA, 54, 8⟩
end Sys2Proof.F.stwPrecLastA
namespace Sys2Proof.F.stwPrecLastB
def tsfault : Fld := ⟨.stwPrecLastB, 0, 16⟩
def nonfin : Fld := ⟨.stwPrecLastB, 16, 16⟩
def badscale : Fld := ⟨.stwPrecLastB, 32, 16⟩
def arrsat : Fld := ⟨.stwPrecLastB, 48, 16⟩
end Sys2Proof.F.stwPrecLastB
namespace Sys2Proof.F.stwPrecLastC
def elems : Fld := ⟨.stwPrecLastC, 0, 40⟩
end Sys2Proof.F.stwPrecLastC
namespace Sys2Proof.F.stwPrecLastWin
def stitch : Fld := ⟨.stwPrecLastWin, 0, 64⟩
end Sys2Proof.F.stwPrecLastWin
namespace Sys2Proof.F.coreSeqTask
def entry : Fld := ⟨.coreSeqTask, 0, 11⟩
def state : Fld := ⟨.coreSeqTask, 12, 3⟩
def anchor : Fld := ⟨.coreSeqTask, 15, 1⟩
end Sys2Proof.F.coreSeqTask
namespace Sys2Proof.F.coreSeqLaunch
def stitch : Fld := ⟨.coreSeqLaunch, 0, 64⟩
end Sys2Proof.F.coreSeqLaunch
namespace Sys2Proof.F.coreSeqPc
def pc : Fld := ⟨.coreSeqPc, 0, 11⟩
def loop_depth : Fld := ⟨.coreSeqPc, 12, 3⟩
end Sys2Proof.F.coreSeqPc
namespace Sys2Proof.F.coreSeqSt
def stitch : Fld := ⟨.coreSeqSt, 0, 64⟩
end Sys2Proof.F.coreSeqSt
namespace Sys2Proof.F.coreSeqBase
def base : Fld := ⟨.coreSeqBase, 0, 39⟩
end Sys2Proof.F.coreSeqBase
namespace Sys2Proof.F.coreSeqBound
def bound : Fld := ⟨.coreSeqBound, 0, 40⟩
end Sys2Proof.F.coreSeqBound
namespace Sys2Proof.F.coreCredCfg
def len_m1 : Fld := ⟨.coreCredCfg, 0, 4⟩
def peak : Fld := ⟨.coreCredCfg, 16, 7⟩
def cur_entry : Fld := ⟨.coreCredCfg, 24, 4⟩
end Sys2Proof.F.coreCredCfg
namespace Sys2Proof.F.coreCredUse
def used : Fld := ⟨.coreCredUse, 0, 15⟩
def peak_seen : Fld := ⟨.coreCredUse, 16, 7⟩
end Sys2Proof.F.coreCredUse
namespace Sys2Proof.F.coreCredLast
def used : Fld := ⟨.coreCredLast, 0, 15⟩
def peak_seen : Fld := ⟨.coreCredLast, 16, 7⟩
end Sys2Proof.F.coreCredLast
namespace Sys2Proof.F.coreCredTab
def budget : Fld := ⟨.coreCredTab, 0, 15⟩
end Sys2Proof.F.coreCredTab
namespace Sys2Proof.F.coreCredEff
def budget : Fld := ⟨.coreCredEff, 0, 15⟩
end Sys2Proof.F.coreCredEff
namespace Sys2Proof.F.coreSfltRec
def valid : Fld := ⟨.coreSfltRec, 0, 1⟩
def code : Fld := ⟨.coreSfltRec, 1, 6⟩
def src : Fld := ⟨.coreSfltRec, 7, 2⟩
def bundle : Fld := ⟨.coreSfltRec, 9, 11⟩
def detail : Fld := ⟨.coreSfltRec, 20, 8⟩
def secondary : Fld := ⟨.coreSfltRec, 28, 1⟩
end Sys2Proof.F.coreSfltRec
namespace Sys2Proof.F.coreSfltCycle
def cc : Fld := ⟨.coreSfltCycle, 0, 32⟩
end Sys2Proof.F.coreSfltCycle
namespace Sys2Proof.F.coreSfltStitch
def stitch : Fld := ⟨.coreSfltStitch, 0, 64⟩
end Sys2Proof.F.coreSfltStitch
namespace Sys2Proof.F.coreSfltCnt
def more : Fld := ⟨.coreSfltCnt, 0, 16⟩
end Sys2Proof.F.coreSfltCnt
namespace Sys2Proof.F.cluCredCap
def cap : Fld := ⟨.cluCredCap, 0, 17⟩
def decl : Fld := ⟨.cluCredCap, 32, 17⟩
def enforced : Fld := ⟨.cluCredCap, 49, 1⟩
end Sys2Proof.F.cluCredCap
namespace Sys2Proof.F.stwSchedFirst
def die : Fld := ⟨.stwSchedFirst, 0, 5⟩
def cluster : Fld := ⟨.stwSchedFirst, 5, 7⟩
def core : Fld := ⟨.stwSchedFirst, 12, 2⟩
def code : Fld := ⟨.stwSchedFirst, 14, 6⟩
def src : Fld := ⟨.stwSchedFirst, 20, 2⟩
def bundle : Fld := ⟨.stwSchedFirst, 22, 11⟩
def detail : Fld := ⟨.stwSchedFirst, 33, 8⟩
def valid : Fld := ⟨.stwSchedFirst, 63, 1⟩
end Sys2Proof.F.stwSchedFirst
namespace Sys2Proof.F.stwSchedFstitch
def stitch : Fld := ⟨.stwSchedFstitch, 0, 64⟩
end Sys2Proof.F.stwSchedFstitch
namespace Sys2Proof.F.stwSchedHalt
def stitch : Fld := ⟨.stwSchedHalt, 0, 64⟩
end Sys2Proof.F.stwSchedHalt
namespace Sys2Proof.F.stwSchedCnt
def faults : Fld := ⟨.stwSchedCnt, 0, 16⟩
def halts : Fld := ⟨.stwSchedCnt, 16, 16⟩
end Sys2Proof.F.stwSchedCnt
namespace Sys2Proof.F.stwSchedHaltlat
def lat_cc : Fld := ⟨.stwSchedHaltlat, 0, 5⟩
def valid : Fld := ⟨.stwSchedHaltlat, 5, 1⟩
end Sys2Proof.F.stwSchedHaltlat
namespace Sys2Proof.F.vecCfgRnd
def site0 : Fld := ⟨.vecCfgRnd, 0, 1⟩
def site1 : Fld := ⟨.vecCfgRnd, 1, 1⟩
def site2 : Fld := ⟨.vecCfgRnd, 2, 1⟩
end Sys2Proof.F.vecCfgRnd
namespace Sys2Proof.F.vecCfgStat
def nan : Fld := ⟨.vecCfgStat, 0, 1⟩
def ovf : Fld := ⟨.vecCfgStat, 1, 1⟩
def dz : Fld := ⟨.vecCfgStat, 2, 1⟩
def isat : Fld := ⟨.vecCfgStat, 3, 1⟩
end Sys2Proof.F.vecCfgStat
namespace Sys2Proof.F.vecCfgKey
def key : Fld := ⟨.vecCfgKey, 0, 64⟩
end Sys2Proof.F.vecCfgKey
namespace Sys2Proof.F.vecCfgCtx
def layer : Fld := ⟨.vecCfgCtx, 0, 8⟩
def pos : Fld := ⟨.vecCfgCtx, 8, 28⟩
def aux : Fld := ⟨.vecCfgCtx, 36, 12⟩
end Sys2Proof.F.vecCfgCtx
namespace Sys2Proof.F.vecCfgTscale
def t : Fld := ⟨.vecCfgTscale, 0, 32⟩
end Sys2Proof.F.vecCfgTscale
namespace Sys2Proof.F.vecCfgIssue
def undef : Fld := ⟨.vecCfgIssue, 0, 16⟩
def slotref : Fld := ⟨.vecCfgIssue, 16, 16⟩
end Sys2Proof.F.vecCfgIssue
namespace Sys2Proof.F.coreKvfRoleCfg0
def en : Fld := ⟨.coreKvfRoleCfg0, 0, 1⟩
def na_m1 : Fld := ⟨.coreKvfRoleCfg0, 1, 6⟩
def lane : Fld := ⟨.coreKvfRoleCfg0, 7, 6⟩
def kvfmt : Fld := ⟨.coreKvfRoleCfg0, 13, 1⟩
def g_m1 : Fld := ⟨.coreKvfRoleCfg0, 14, 3⟩
def nslot : Fld := ⟨.coreKvfRoleCfg0, 17, 7⟩
def hdrline : Fld := ⟨.coreKvfRoleCfg0, 24, 10⟩
def appline : Fld := ⟨.coreKvfRoleCfg0, 34, 10⟩
def ringline : Fld := ⟨.coreKvfRoleCfg0, 44, 10⟩
def aofs : Fld := ⟨.coreKvfRoleCfg0, 54, 5⟩
end Sys2Proof.F.coreKvfRoleCfg0
namespace Sys2Proof.F.coreKvfRoleCfg1
def stkbase : Fld := ⟨.coreKvfRoleCfg1, 0, 31⟩
def stkn : Fld := ⟨.coreKvfRoleCfg1, 32, 16⟩
def stage : Fld := ⟨.coreKvfRoleCfg1, 48, 8⟩
def nhome : Fld := ⟨.coreKvfRoleCfg1, 56, 7⟩
end Sys2Proof.F.coreKvfRoleCfg1
namespace Sys2Proof.F.coreKvfRoleFree
def head : Fld := ⟨.coreKvfRoleFree, 0, 7⟩
def count : Fld := ⟨.coreKvfRoleFree, 8, 7⟩
def stkfree : Fld := ⟨.coreKvfRoleFree, 16, 16⟩
end Sys2Proof.F.coreKvfRoleFree
namespace Sys2Proof.F.coreKvfRoleCnt
def appends : Fld := ⟨.coreKvfRoleCnt, 0, 32⟩
def errors : Fld := ⟨.coreKvfRoleCnt, 32, 16⟩
def spillrd : Fld := ⟨.coreKvfRoleCnt, 48, 16⟩
end Sys2Proof.F.coreKvfRoleCnt
namespace Sys2Proof.F.coreKvfRoleHfree
def head : Fld := ⟨.coreKvfRoleHfree, 0, 7⟩
def count : Fld := ⟨.coreKvfRoleHfree, 8, 7⟩
end Sys2Proof.F.coreKvfRoleHfree
namespace Sys2Proof.F.coreKvfStat
def broken : Fld := ⟨.coreKvfStat, 0, 1⟩
def copying : Fld := ⟨.coreKvfStat, 1, 1⟩
end Sys2Proof.F.coreKvfStat
namespace Sys2Proof.F.srvKvCmd
def op : Fld := ⟨.srvKvCmd, 0, 4⟩
def seat : Fld := ⟨.srvKvCmd, 4, 9⟩
def seat2 : Fld := ⟨.srvKvCmd, 13, 9⟩
def arg0 : Fld := ⟨.srvKvCmd, 22, 17⟩
def arg1 : Fld := ⟨.srvKvCmd, 39, 10⟩
end Sys2Proof.F.srvKvCmd
namespace Sys2Proof.F.srvKvAt
def stitch : Fld := ⟨.srvKvAt, 0, 64⟩
end Sys2Proof.F.srvKvAt
namespace Sys2Proof.F.srvKvResult
def status : Fld := ⟨.srvKvResult, 0, 4⟩
def done : Fld := ⟨.srvKvResult, 4, 1⟩
def t_lo : Fld := ⟨.srvKvResult, 32, 32⟩
end Sys2Proof.F.srvKvResult
namespace Sys2Proof.F.srvKvLen
def len : Fld := ⟨.srvKvLen, 0, 17⟩
def active : Fld := ⟨.srvKvLen, 17, 1⟩
def spill : Fld := ⟨.srvKvLen, 18, 1⟩
def broken : Fld := ⟨.srvKvLen, 19, 1⟩
end Sys2Proof.F.srvKvLen
namespace Sys2Proof.F.coreSpadCfg
def scrub_div : Fld := ⟨.coreSpadCfg, 0, 8⟩
end Sys2Proof.F.coreSpadCfg
namespace Sys2Proof.F.coreSpadEcc
def ce : Fld := ⟨.coreSpadEcc, 0, 16⟩
def ue : Fld := ⟨.coreSpadEcc, 16, 16⟩
end Sys2Proof.F.coreSpadEcc
namespace Sys2Proof.F.coreSpadUeaddr
def line : Fld := ⟨.coreSpadUeaddr, 0, 10⟩
def word : Fld := ⟨.coreSpadUeaddr, 10, 5⟩
def valid : Fld := ⟨.coreSpadUeaddr, 15, 1⟩
end Sys2Proof.F.coreSpadUeaddr
namespace Sys2Proof.F.cluSbufCfg
def mode : Fld := ⟨.cluSbufCfg, 0, 16⟩
end Sys2Proof.F.cluSbufCfg
namespace Sys2Proof.F.cluSbufStat
def state : Fld := ⟨.cluSbufStat, 0, 16⟩
def ncache : Fld := ⟨.cluSbufStat, 16, 3⟩
end Sys2Proof.F.cluSbufStat
namespace Sys2Proof.F.cluSbufHits
def count : Fld := ⟨.cluSbufHits, 0, 32⟩
end Sys2Proof.F.cluSbufHits
namespace Sys2Proof.F.cluSbufMisses
def count : Fld := ⟨.cluSbufMisses, 0, 24⟩
end Sys2Proof.F.cluSbufMisses
namespace Sys2Proof.F.cluSbufInval
def all : Fld := ⟨.cluSbufInval, 0, 1⟩
end Sys2Proof.F.cluSbufInval
namespace Sys2Proof.F.cluSbufFence
def refused : Fld := ⟨.cluSbufFence, 0, 16⟩
def late_lines : Fld := ⟨.cluSbufFence, 16, 16⟩
end Sys2Proof.F.cluSbufFence
namespace Sys2Proof.F.coreWinRej
def closed : Fld := ⟨.coreWinRej, 0, 16⟩
def source : Fld := ⟨.coreWinRej, 16, 16⟩
def range : Fld := ⟨.coreWinRej, 32, 16⟩
end Sys2Proof.F.coreWinRej
namespace Sys2Proof.F.xferChStat
def queued : Fld := ⟨.xferChStat, 0, 4⟩
def busy : Fld := ⟨.xferChStat, 4, 1⟩
def done : Fld := ⟨.xferChStat, 16, 16⟩
end Sys2Proof.F.xferChStat
namespace Sys2Proof.F.xferChLast
def status : Fld := ⟨.xferChLast, 0, 4⟩
def desc : Fld := ⟨.xferChLast, 4, 6⟩
def core : Fld := ⟨.xferChLast, 10, 2⟩
def static : Fld := ⟨.xferChLast, 12, 1⟩
def landed : Fld := ⟨.xferChLast, 13, 24⟩
end Sys2Proof.F.xferChLast
namespace Sys2Proof.F.xferChRej
def rejected : Fld := ⟨.xferChRej, 0, 16⟩
def full : Fld := ⟨.xferChRej, 16, 16⟩
end Sys2Proof.F.xferChRej
namespace Sys2Proof.F.stkCfg
def grp_on : Fld := ⟨.stkCfg, 0, 4⟩
end Sys2Proof.F.stkCfg
namespace Sys2Proof.F.stkStat
def grp_ready : Fld := ⟨.stkStat, 0, 4⟩
def grp_fencing : Fld := ⟨.stkStat, 4, 4⟩
def clearing : Fld := ⟨.stkStat, 8, 1⟩
def temp : Fld := ⟨.stkStat, 16, 8⟩
end Sys2Proof.F.stkStat
namespace Sys2Proof.F.stkEcc
def retry : Fld := ⟨.stkEcc, 0, 16⟩
def ue : Fld := ⟨.stkEcc, 16, 16⟩
end Sys2Proof.F.stkEcc
namespace Sys2Proof.F.stkEcs
def count : Fld := ⟨.stkEcs, 0, 32⟩
end Sys2Proof.F.stkEcs
namespace Sys2Proof.F.stkDecl
def maxbytes : Fld := ⟨.stkDecl, 0, 20⟩
end Sys2Proof.F.stkDecl
namespace Sys2Proof.F.stwWincmdSel
def table : Fld := ⟨.stwWincmdSel, 0, 2⟩
def cluster : Fld := ⟨.stwWincmdSel, 2, 7⟩
def core : Fld := ⟨.stwWincmdSel, 9, 2⟩
def entry : Fld := ⟨.stwWincmdSel, 11, 4⟩
end Sys2Proof.F.stwWincmdSel
namespace Sys2Proof.F.stwWincmdVal
def image : Fld := ⟨.stwWincmdVal, 0, 64⟩
end Sys2Proof.F.stwWincmdVal
namespace Sys2Proof.F.stwWincmdAt
def stitch : Fld := ⟨.stwWincmdAt, 0, 64⟩
end Sys2Proof.F.stwWincmdAt
namespace Sys2Proof.F.stwWincmdResult
def status : Fld := ⟨.stwWincmdResult, 0, 2⟩
end Sys2Proof.F.stwWincmdResult
namespace Sys2Proof.F.cluRtrRoute
def valid : Fld := ⟨.cluRtrRoute, 0, 1⟩
def nhop : Fld := ⟨.cluRtrRoute, 1, 6⟩
def hop : Fld := ⟨.cluRtrRoute, 28, 228⟩
end Sys2Proof.F.cluRtrRoute
namespace Sys2Proof.F.cluRtrRlat
def lat_cc : Fld := ⟨.cluRtrRlat, 0, 11⟩
def width : Fld := ⟨.cluRtrRlat, 11, 7⟩
def valid : Fld := ⟨.cluRtrRlat, 18, 1⟩
end Sys2Proof.F.cluRtrRlat
namespace Sys2Proof.F.cluRtrLink
def state : Fld := ⟨.cluRtrLink, 2, 12⟩
end Sys2Proof.F.cluRtrLink
namespace Sys2Proof.F.cluRtrCnt
def dynpkt : Fld := ⟨.cluRtrCnt, 0, 16⟩
def waits : Fld := ⟨.cluRtrCnt, 16, 16⟩
def sigmerge : Fld := ⟨.cluRtrCnt, 32, 16⟩
def sigdrop : Fld := ⟨.cluRtrCnt, 48, 16⟩
end Sys2Proof.F.cluRtrCnt
namespace Sys2Proof.F.cluRtrErr
def retry : Fld := ⟨.cluRtrErr, 0, 16⟩
def port : Fld := ⟨.cluRtrErr, 16, 3⟩
def lane : Fld := ⟨.cluRtrErr, 19, 2⟩
def static_err : Fld := ⟨.cluRtrErr, 21, 1⟩
end Sys2Proof.F.cluRtrErr
namespace Sys2Proof.F.cluRtrErrstitch
def stitch : Fld := ⟨.cluRtrErrstitch, 0, 64⟩
end Sys2Proof.F.cluRtrErrstitch
namespace Sys2Proof.F.cluSynObj
def count : Fld := ⟨.cluSynObj, 0, 16⟩
def ovf : Fld := ⟨.cluSynObj, 16, 1⟩
end Sys2Proof.F.cluSynObj
namespace Sys2Proof.F.cluSynHsig
def obj : Fld := ⟨.cluSynHsig, 0, 7⟩
def inc : Fld := ⟨.cluSynHsig, 7, 8⟩
def rst : Fld := ⟨.cluSynHsig, 15, 1⟩
end Sys2Proof.F.cluSynHsig
namespace Sys2Proof.F.cluSynStat
def signals : Fld := ⟨.cluSynStat, 0, 16⟩
def ovf : Fld := ⟨.cluSynStat, 16, 16⟩
end Sys2Proof.F.cluSynStat
namespace Sys2Proof.F.coreTallyGen
def gen : Fld := ⟨.coreTallyGen, 0, 16⟩
end Sys2Proof.F.coreTallyGen
namespace Sys2Proof.F.stwTallyAddr
def word : Fld := ⟨.stwTallyAddr, 3, 13⟩
end Sys2Proof.F.stwTallyAddr
namespace Sys2Proof.F.stwTallyData
def shadow : Fld := ⟨.stwTallyData, 0, 64⟩
end Sys2Proof.F.stwTallyData
namespace Sys2Proof.F.nirCinchAt
def stitch : Fld := ⟨.nirCinchAt, 0, 64⟩
end Sys2Proof.F.nirCinchAt
namespace Sys2Proof.F.nirCinchResult
def status : Fld := ⟨.nirCinchResult, 0, 2⟩
def pending : Fld := ⟨.nirCinchResult, 2, 1⟩
def done : Fld := ⟨.nirCinchResult, 3, 1⟩
def gen : Fld := ⟨.nirCinchResult, 16, 16⟩
end Sys2Proof.F.nirCinchResult
namespace Sys2Proof.F.nirCinchT
def stitch : Fld := ⟨.nirCinchT, 0, 64⟩
end Sys2Proof.F.nirCinchT
namespace Sys2Proof.F.nirCinchCfg
def min_spacing : Fld := ⟨.nirCinchCfg, 0, 24⟩
end Sys2Proof.F.nirCinchCfg
namespace Sys2Proof.F.nirCinchMiss
def dies : Fld := ⟨.nirCinchMiss, 0, 24⟩
end Sys2Proof.F.nirCinchMiss
namespace Sys2Proof.F.nirCinchCount
def done : Fld := ⟨.nirCinchCount, 0, 16⟩
def refused : Fld := ⟨.nirCinchCount, 16, 16⟩
end Sys2Proof.F.nirCinchCount
namespace Sys2Proof.F.hrnPart
def dies : Fld := ⟨.hrnPart, 0, 24⟩
end Sys2Proof.F.hrnPart
namespace Sys2Proof.F.hrnStat
def active_valid : Fld := ⟨.hrnStat, 0, 1⟩
def mode : Fld := ⟨.hrnStat, 1, 1⟩
def active_opkey : Fld := ⟨.hrnStat, 2, 1⟩
def shadow : Fld := ⟨.hrnStat, 3, 3⟩
def shadow_strict : Fld := ⟨.hrnStat, 6, 1⟩
def needs_pause : Fld := ⟨.hrnStat, 7, 1⟩
def shadow_patch : Fld := ⟨.hrnStat, 8, 1⟩
end Sys2Proof.F.hrnStat
namespace Sys2Proof.F.hrnActiveId
def id : Fld := ⟨.hrnActiveId, 0, 64⟩
end Sys2Proof.F.hrnActiveId
namespace Sys2Proof.F.hrnShadowId
def id : Fld := ⟨.hrnShadowId, 0, 64⟩
end Sys2Proof.F.hrnShadowId
namespace Sys2Proof.F.hrnActAt
def stitch : Fld := ⟨.hrnActAt, 0, 64⟩
end Sys2Proof.F.hrnActAt
namespace Sys2Proof.F.hrnLoadAddr
def addr : Fld := ⟨.hrnLoadAddr, 0, 48⟩
end Sys2Proof.F.hrnLoadAddr
namespace Sys2Proof.F.hrnLoadLen
def len : Fld := ⟨.hrnLoadLen, 0, 33⟩
end Sys2Proof.F.hrnLoadLen
namespace Sys2Proof.F.hrnLoadGo
def go : Fld := ⟨.hrnLoadGo, 0, 1⟩
end Sys2Proof.F.hrnLoadGo
namespace Sys2Proof.F.hrnLoadResult
def done : Fld := ⟨.hrnLoadResult, 0, 1⟩
def code : Fld := ⟨.hrnLoadResult, 1, 5⟩
def section_ : Fld := ⟨.hrnLoadResult, 6, 12⟩
def overflow : Fld := ⟨.hrnLoadResult, 18, 1⟩
def nclamp : Fld := ⟨.hrnLoadResult, 32, 32⟩
end Sys2Proof.F.hrnLoadResult
namespace Sys2Proof.F.hrnLoadRecord
def record : Fld := ⟨.hrnLoadRecord, 0, 32⟩
end Sys2Proof.F.hrnLoadRecord
namespace Sys2Proof.F.hrnSwapCtl
def paused : Fld := ⟨.hrnSwapCtl, 0, 1⟩
def movable : Fld := ⟨.hrnSwapCtl, 1, 1⟩
end Sys2Proof.F.hrnSwapCtl
namespace Sys2Proof.F.hrnSwapAt
def stitch : Fld := ⟨.hrnSwapAt, 0, 64⟩
end Sys2Proof.F.hrnSwapAt
namespace Sys2Proof.F.hrnSwapResult
def status : Fld := ⟨.hrnSwapResult, 0, 3⟩
def committed : Fld := ⟨.hrnSwapResult, 3, 1⟩
def done : Fld := ⟨.hrnSwapResult, 4, 1⟩
end Sys2Proof.F.hrnSwapResult
namespace Sys2Proof.F.hrnSwapT
def stitch : Fld := ⟨.hrnSwapT, 0, 64⟩
end Sys2Proof.F.hrnSwapT
namespace Sys2Proof.F.hrnLaunch
def stitch : Fld := ⟨.hrnLaunch, 0, 64⟩
end Sys2Proof.F.hrnLaunch
namespace Sys2Proof.F.hrnCnt
def loads : Fld := ⟨.hrnCnt, 0, 16⟩
def load_ref : Fld := ⟨.hrnCnt, 16, 16⟩
def swaps : Fld := ⟨.hrnCnt, 32, 16⟩
def swap_ref : Fld := ⟨.hrnCnt, 48, 16⟩
end Sys2Proof.F.hrnCnt
namespace Sys2Proof.F.nirKeySlot
def fpr : Fld := ⟨.nirKeySlot, 0, 64⟩
end Sys2Proof.F.nirKeySlot
namespace Sys2Proof.F.nirKeyStat
def loaded : Fld := ⟨.nirKeyStat, 0, 1⟩
def operator : Fld := ⟨.nirKeyStat, 1, 1⟩
end Sys2Proof.F.nirKeyStat
namespace Sys2Proof.F.srvCfg
def promote_fr : Fld := ⟨.srvCfg, 0, 16⟩
def en : Fld := ⟨.srvCfg, 16, 1⟩
def seedkey : Fld := ⟨.srvCfg, 32, 32⟩
end Sys2Proof.F.srvCfg
namespace Sys2Proof.F.srvStat
def active : Fld := ⟨.srvStat, 0, 13⟩
def gen : Fld := ⟨.srvStat, 13, 10⟩
def withhold : Fld := ⟨.srvStat, 23, 1⟩
def paused : Fld := ⟨.srvStat, 24, 1⟩
def stall : Fld := ⟨.srvStat, 25, 1⟩
end Sys2Proof.F.srvStat
namespace Sys2Proof.F.srvCnt
def promoted : Fld := ⟨.srvCnt, 0, 16⟩
def dropped : Fld := ⟨.srvCnt, 16, 16⟩
def lost : Fld := ⟨.srvCnt, 32, 16⟩
def refused : Fld := ⟨.srvCnt, 48, 16⟩
end Sys2Proof.F.srvCnt
namespace Sys2Proof.F.srvSubqBase
def addr : Fld := ⟨.srvSubqBase, 0, 64⟩
end Sys2Proof.F.srvSubqBase
namespace Sys2Proof.F.srvSubqCfg
def size_log2 : Fld := ⟨.srvSubqCfg, 0, 5⟩
def space : Fld := ⟨.srvSubqCfg, 5, 1⟩
end Sys2Proof.F.srvSubqCfg
namespace Sys2Proof.F.srvSubqTail
def tail : Fld := ⟨.srvSubqTail, 0, 32⟩
end Sys2Proof.F.srvSubqTail
namespace Sys2Proof.F.srvSubqHead
def head : Fld := ⟨.srvSubqHead, 0, 32⟩
end Sys2Proof.F.srvSubqHead
namespace Sys2Proof.F.srvReqCmd
def ctx : Fld := ⟨.srvReqCmd, 0, 12⟩
def op : Fld := ⟨.srvReqCmd, 12, 2⟩
end Sys2Proof.F.srvReqCmd
namespace Sys2Proof.F.srvReqResult
def status : Fld := ⟨.srvReqResult, 0, 2⟩
def a_lo : Fld := ⟨.srvReqResult, 32, 32⟩
end Sys2Proof.F.srvReqResult
namespace Sys2Proof.F.srvLatGoal
def ttft_goal : Fld := ⟨.srvLatGoal, 0, 32⟩
def tbt_goal : Fld := ⟨.srvLatGoal, 32, 32⟩
end Sys2Proof.F.srvLatGoal
namespace Sys2Proof.F.srvLatCnt
def ttft_viol : Fld := ⟨.srvLatCnt, 0, 24⟩
def tbt_viol : Fld := ⟨.srvLatCnt, 24, 32⟩
end Sys2Proof.F.srvLatCnt
namespace Sys2Proof.F.srvLatMax
def ttft_max : Fld := ⟨.srvLatMax, 0, 32⟩
def tbt_max : Fld := ⟨.srvLatMax, 32, 32⟩
end Sys2Proof.F.srvLatMax
namespace Sys2Proof.F.srvRingBase
def addr : Fld := ⟨.srvRingBase, 0, 64⟩
end Sys2Proof.F.srvRingBase
namespace Sys2Proof.F.srvRingCfg
def en : Fld := ⟨.srvRingCfg, 0, 1⟩
def size_log2 : Fld := ⟨.srvRingCfg, 1, 5⟩
def vec : Fld := ⟨.srvRingCfg, 6, 11⟩
def mod_n : Fld := ⟨.srvRingCfg, 17, 12⟩
def mod_st : Fld := ⟨.srvRingCfg, 29, 16⟩
end Sys2Proof.F.srvRingCfg
namespace Sys2Proof.F.srvRingProd
def prod : Fld := ⟨.srvRingProd, 0, 32⟩
end Sys2Proof.F.srvRingProd
namespace Sys2Proof.F.srvRingCons
def cons : Fld := ⟨.srvRingCons, 0, 32⟩
end Sys2Proof.F.srvRingCons
namespace Sys2Proof.F.srvCtx
def state : Fld := ⟨.srvCtx, 0, 3⟩
def promoted : Fld := ⟨.srvCtx, 3, 1⟩
def seat : Fld := ⟨.srvCtx, 4, 9⟩
def smpdie : Fld := ⟨.srvCtx, 13, 5⟩
def class_ : Fld := ⟨.srvCtx, 18, 4⟩
def delivered : Fld := ⟨.srvCtx, 22, 16⟩
def accept : Fld := ⟨.srvCtx, 64, 64⟩
end Sys2Proof.F.srvCtx
namespace Sys2Proof.F.srvFrameCfg0
def frame_st : Fld := ⟨.srvFrameCfg0, 0, 16⟩
def nent : Fld := ⟨.srvFrameCfg0, 16, 11⟩
def ent_st : Fld := ⟨.srvFrameCfg0, 27, 4⟩
def nl : Fld := ⟨.srvFrameCfg0, 31, 8⟩
def s1_st : Fld := ⟨.srvFrameCfg0, 39, 16⟩
end Sys2Proof.F.srvFrameCfg0
namespace Sys2Proof.F.srvFrameCfg1
def slm_st : Fld := ⟨.srvFrameCfg1, 0, 16⟩
def eofs_st : Fld := ⟨.srvFrameCfg1, 16, 16⟩
def book_lead : Fld := ⟨.srvFrameCfg1, 32, 16⟩
end Sys2Proof.F.srvFrameCfg1
namespace Sys2Proof.F.srvFrameVocab
def vocab : Fld := ⟨.srvFrameVocab, 0, 20⟩
end Sys2Proof.F.srvFrameVocab
namespace Sys2Proof.F.srvFrameUsable
def mask : Fld := ⟨.srvFrameUsable, 0, 64⟩
end Sys2Proof.F.srvFrameUsable
namespace Sys2Proof.F.srvFrameSmp
def vd : Fld := ⟨.srvFrameSmp, 0, 5⟩
end Sys2Proof.F.srvFrameSmp
namespace Sys2Proof.F.srvCls
def valid : Fld := ⟨.srvCls, 0, 1⟩
def b_m1 : Fld := ⟨.srvCls, 1, 6⟩
def z : Fld := ⟨.srvCls, 7, 7⟩
def s_st : Fld := ⟨.srvCls, 14, 16⟩
end Sys2Proof.F.srvCls
namespace Sys2Proof.F.smpCfg
def region : Fld := ⟨.smpCfg, 0, 39⟩
end Sys2Proof.F.smpCfg
namespace Sys2Proof.F.smpCnt
def samples : Fld := ⟨.smpCnt, 0, 32⟩
def full : Fld := ⟨.smpCnt, 32, 16⟩
def short : Fld := ⟨.smpCnt, 48, 16⟩
end Sys2Proof.F.smpCnt
namespace Sys2Proof.F.stwShardCmd
def op : Fld := ⟨.stwShardCmd, 0, 2⟩
def qp : Fld := ⟨.stwShardCmd, 2, 8⟩
end Sys2Proof.F.stwShardCmd
namespace Sys2Proof.F.stwShardRaddr
def va : Fld := ⟨.stwShardRaddr, 0, 64⟩
end Sys2Proof.F.stwShardRaddr
namespace Sys2Proof.F.stwShardRkey
def rkey : Fld := ⟨.stwShardRkey, 0, 32⟩
end Sys2Proof.F.stwShardRkey
namespace Sys2Proof.F.stwShardLocal
def value : Fld := ⟨.stwShardLocal, 0, 39⟩
end Sys2Proof.F.stwShardLocal
namespace Sys2Proof.F.stwShardExpect
def dig : Fld := ⟨.stwShardExpect, 0, 64⟩
end Sys2Proof.F.stwShardExpect
namespace Sys2Proof.F.stwShardStat
def state : Fld := ⟨.stwShardStat, 0, 3⟩
def status : Fld := ⟨.stwShardStat, 3, 4⟩
def synd : Fld := ⟨.stwShardStat, 7, 8⟩
def landed : Fld := ⟨.stwShardStat, 25, 39⟩
end Sys2Proof.F.stwShardStat
namespace Sys2Proof.F.stwShardRef
def shofs : Fld := ⟨.stwShardRef, 0, 39⟩
end Sys2Proof.F.stwShardRef
namespace Sys2Proof.F.stwShardScfg
def sper : Fld := ⟨.stwShardScfg, 0, 24⟩
end Sys2Proof.F.stwShardScfg
namespace Sys2Proof.F.stwShardDcnt
def swept : Fld := ⟨.stwShardDcnt, 0, 16⟩
def mismatch : Fld := ⟨.stwShardDcnt, 16, 16⟩
def repaired : Fld := ⟨.stwShardDcnt, 32, 16⟩
def refetch : Fld := ⟨.stwShardDcnt, 48, 16⟩
end Sys2Proof.F.stwShardDcnt
namespace Sys2Proof.F.coreWptrArr
def img : Fld := ⟨.coreWptrArr, 0, 24⟩
def valid : Fld := ⟨.coreWptrArr, 24, 1⟩
def dbad : Fld := ⟨.coreWptrArr, 25, 1⟩
end Sys2Proof.F.coreWptrArr
namespace Sys2Proof.F.coreWptrScl
def sofs : Fld := ⟨.coreWptrScl, 0, 24⟩
def slen : Fld := ⟨.coreWptrScl, 24, 10⟩
def line : Fld := ⟨.coreWptrScl, 34, 10⟩
end Sys2Proof.F.coreWptrScl
namespace Sys2Proof.F.coreWptrDigSlot
def period : Fld := ⟨.coreWptrDigSlot, 0, 30⟩
def phase : Fld := ⟨.coreWptrDigSlot, 30, 30⟩
def group : Fld := ⟨.coreWptrDigSlot, 60, 4⟩
end Sys2Proof.F.coreWptrDigSlot
namespace Sys2Proof.F.coreWptrDigStat
def next : Fld := ⟨.coreWptrDigStat, 0, 6⟩
def repair : Fld := ⟨.coreWptrDigStat, 6, 1⟩
def skip : Fld := ⟨.coreWptrDigStat, 16, 16⟩
end Sys2Proof.F.coreWptrDigStat
namespace Sys2Proof.F.chkCfg
def poly : Fld := ⟨.chkCfg, 0, 2⟩
def acc : Fld := ⟨.chkCfg, 2, 1⟩
def cont : Fld := ⟨.chkCfg, 3, 1⟩
end Sys2Proof.F.chkCfg
namespace Sys2Proof.F.chkRun
def reg : Fld := ⟨.chkRun, 0, 64⟩
end Sys2Proof.F.chkRun
namespace Sys2Proof.F.chkCnt
def checked : Fld := ⟨.chkCnt, 0, 16⟩
def mismatch : Fld := ⟨.chkCnt, 16, 16⟩
def ignwr : Fld := ⟨.chkCnt, 32, 16⟩
end Sys2Proof.F.chkCnt
namespace Sys2Proof.F.lnkChkAlive
def tx : Fld := ⟨.lnkChkAlive, 0, 8⟩
def exp : Fld := ⟨.lnkChkAlive, 8, 8⟩
def loss : Fld := ⟨.lnkChkAlive, 16, 16⟩
def repeat_ : Fld := ⟨.lnkChkAlive, 32, 16⟩
end Sys2Proof.F.lnkChkAlive
namespace Sys2Proof.F.srvFrameDig
def dper_fr : Fld := ⟨.srvFrameDig, 0, 24⟩
def dfr : Fld := ⟨.srvFrameDig, 24, 24⟩
def dent : Fld := ⟨.srvFrameDig, 48, 10⟩
end Sys2Proof.F.srvFrameDig
namespace Sys2Proof.F.nirTorusId
def id : Fld := ⟨.nirTorusId, 0, 16⟩
def sx_m1 : Fld := ⟨.nirTorusId, 16, 4⟩
def sy_m1 : Fld := ⟨.nirTorusId, 20, 4⟩
def sz_m1 : Fld := ⟨.nirTorusId, 24, 4⟩
end Sys2Proof.F.nirTorusId
namespace Sys2Proof.F.nirTorusTcfg
def tparent : Fld := ⟨.nirTorusTcfg, 0, 3⟩
def refsrc : Fld := ⟨.nirTorusTcfg, 3, 1⟩
def adopt : Fld := ⟨.nirTorusTcfg, 4, 1⟩
def lockstep : Fld := ⟨.nirTorusTcfg, 5, 1⟩
end Sys2Proof.F.nirTorusTcfg
namespace Sys2Proof.F.nirTorusTstat
def aligned : Fld := ⟨.nirTorusTstat, 0, 1⟩
def depth : Fld := ⟨.nirTorusTstat, 1, 5⟩
def resid : Fld := ⟨.nirTorusTstat, 16, 32⟩
end Sys2Proof.F.nirTorusTstat
namespace Sys2Proof.F.lnkStat
def state : Fld := ⟨.lnkStat, 0, 3⟩
def peer : Fld := ⟨.lnkStat, 3, 16⟩
def maxpay32 : Fld := ⟨.lnkStat, 19, 13⟩
def delay : Fld := ⟨.lnkStat, 32, 32⟩
end Sys2Proof.F.lnkStat
namespace Sys2Proof.F.lnkCtl
def train : Fld := ⟨.lnkCtl, 0, 1⟩
end Sys2Proof.F.lnkCtl
namespace Sys2Proof.F.lnkCnt
def retry : Fld := ⟨.lnkCnt, 0, 16⟩
def drop : Fld := ⟨.lnkCnt, 16, 16⟩
def misroute : Fld := ⟨.lnkCnt, 32, 8⟩
def badtype : Fld := ⟨.lnkCnt, 40, 8⟩
def dupcompl : Fld := ⟨.lnkCnt, 48, 16⟩
end Sys2Proof.F.lnkCnt
namespace Sys2Proof.F.hstPcieStat
def speed : Fld := ⟨.hstPcieStat, 0, 3⟩
def width : Fld := ⟨.hstPcieStat, 3, 5⟩
def bme : Fld := ⟨.hstPcieStat, 8, 1⟩
end Sys2Proof.F.hstPcieStat
namespace Sys2Proof.F.hstPcieCnt
def refrd : Fld := ⟨.hstPcieCnt, 0, 16⟩
def refwr : Fld := ⟨.hstPcieCnt, 16, 16⟩
end Sys2Proof.F.hstPcieCnt
namespace Sys2Proof.F.hstPcieRefaddr
def addr : Fld := ⟨.hstPcieRefaddr, 0, 37⟩
def bar : Fld := ⟨.hstPcieRefaddr, 37, 1⟩
end Sys2Proof.F.hstPcieRefaddr
namespace Sys2Proof.F.hstBar2sel
def die : Fld := ⟨.hstBar2sel, 0, 5⟩
end Sys2Proof.F.hstBar2sel
namespace Sys2Proof.F.stwHwin
def cluster : Fld := ⟨.stwHwin, 0, 7⟩
def core : Fld := ⟨.stwHwin, 7, 2⟩
def page : Fld := ⟨.stwHwin, 9, 14⟩
end Sys2Proof.F.stwHwin
namespace Sys2Proof.F.hstRdmaCnt
def accerr : Fld := ⟨.hstRdmaCnt, 0, 16⟩
def invreq : Fld := ⟨.hstRdmaCnt, 16, 16⟩
def cnp_tx : Fld := ⟨.hstRdmaCnt, 32, 16⟩
def qperr : Fld := ⟨.hstRdmaCnt, 48, 16⟩
end Sys2Proof.F.hstRdmaCnt
namespace Sys2Proof.F.nirMgmtCfg
def en : Fld := ⟨.nirMgmtCfg, 0, 1⟩
def peer_en : Fld := ⟨.nirMgmtCfg, 1, 4⟩
end Sys2Proof.F.nirMgmtCfg
namespace Sys2Proof.F.nirPwrStat
def mode : Fld := ⟨.nirPwrStat, 0, 2⟩
def supply : Fld := ⟨.nirPwrStat, 2, 3⟩
def vbus : Fld := ⟨.nirPwrStat, 16, 16⟩
end Sys2Proof.F.nirPwrStat
namespace Sys2Proof.F.nirPwrPin
def p1ms : Fld := ⟨.nirPwrPin, 0, 16⟩
def p100us : Fld := ⟨.nirPwrPin, 16, 16⟩
end Sys2Proof.F.nirPwrPin
namespace Sys2Proof.F.nirPwrGov
def plim : Fld := ⟨.nirPwrGov, 0, 16⟩
def gov_step : Fld := ⟨.nirPwrGov, 16, 3⟩
end Sys2Proof.F.nirPwrGov
namespace Sys2Proof.F.nirPwrGovcnt
def region : Fld := ⟨.nirPwrGovcnt, 0, 16⟩
def input : Fld := ⟨.nirPwrGovcnt, 16, 16⟩
def other : Fld := ⟨.nirPwrGovcnt, 32, 16⟩
def release : Fld := ⟨.nirPwrGovcnt, 48, 16⟩
end Sys2Proof.F.nirPwrGovcnt
namespace Sys2Proof.F.nirBilSerial
def value : Fld := ⟨.nirBilSerial, 0, 64⟩
end Sys2Proof.F.nirBilSerial
namespace Sys2Proof.F.nirBilStat
def state : Fld := ⟨.nirBilStat, 0, 3⟩
def cause : Fld := ⟨.nirBilStat, 3, 3⟩
def warned : Fld := ⟨.nirBilStat, 6, 1⟩
def refuse_next : Fld := ⟨.nirBilStat, 7, 1⟩
def ilim : Fld := ⟨.nirBilStat, 16, 12⟩
end Sys2Proof.F.nirBilStat
namespace Sys2Proof.F.nirBilWear
def eqh : Fld := ⟨.nirBilWear, 0, 32⟩
def cyc : Fld := ⟨.nirBilWear, 32, 16⟩
def w : Fld := ⟨.nirBilWear, 48, 16⟩
end Sys2Proof.F.nirBilWear
namespace Sys2Proof.F.nirBilMeas
def iout : Fld := ⟨.nirBilMeas, 0, 12⟩
def tbp : Fld := ⟨.nirBilMeas, 12, 10⟩
end Sys2Proof.F.nirBilMeas
namespace Sys2Proof.F.stwPwrRail
def set : Fld := ⟨.stwPwrRail, 0, 6⟩
def cap_a : Fld := ⟨.stwPwrRail, 16, 10⟩
end Sys2Proof.F.stwPwrRail
namespace Sys2Proof.F.stwPwrIdie
def idie : Fld := ⟨.stwPwrIdie, 0, 12⟩
end Sys2Proof.F.stwPwrIdie
namespace Sys2Proof.F.stwPwrSeqCmd
def op : Fld := ⟨.stwPwrSeqCmd, 0, 2⟩
def cluster : Fld := ⟨.stwPwrSeqCmd, 2, 7⟩
end Sys2Proof.F.stwPwrSeqCmd
namespace Sys2Proof.F.stwPwrSeqAt
def stitch : Fld := ⟨.stwPwrSeqAt, 0, 64⟩
end Sys2Proof.F.stwPwrSeqAt
namespace Sys2Proof.F.stwPwrSeqResult
def status : Fld := ⟨.stwPwrSeqResult, 0, 3⟩
end Sys2Proof.F.stwPwrSeqResult
namespace Sys2Proof.F.stwPwrCnt
def waits : Fld := ⟨.stwPwrCnt, 0, 16⟩
def slow : Fld := ⟨.stwPwrCnt, 16, 16⟩
def shorts : Fld := ⟨.stwPwrCnt, 32, 16⟩
def phasef : Fld := ⟨.stwPwrCnt, 48, 16⟩
end Sys2Proof.F.stwPwrCnt
namespace Sys2Proof.F.cluPwrStat
def state : Fld := ⟨.cluPwrStat, 0, 3⟩
def slow : Fld := ⟨.cluPwrStat, 3, 1⟩
def code : Fld := ⟨.cluPwrStat, 4, 6⟩
def phase_ok : Fld := ⟨.cluPwrStat, 10, 9⟩
def spare_in : Fld := ⟨.cluPwrStat, 19, 1⟩
def nfail : Fld := ⟨.cluPwrStat, 20, 4⟩
def droop_lim : Fld := ⟨.cluPwrStat, 24, 1⟩
end Sys2Proof.F.cluPwrStat
namespace Sys2Proof.F.cluPwrMeas
def ireg : Fld := ⟨.cluPwrMeas, 0, 10⟩
def mindroop : Fld := ⟨.cluPwrMeas, 10, 10⟩
def valid : Fld := ⟨.cluPwrMeas, 20, 8⟩
end Sys2Proof.F.cluPwrMeas
namespace Sys2Proof.F.cluPwrCnt
def excess : Fld := ⟨.cluPwrCnt, 0, 16⟩
def code_up : Fld := ⟨.cluPwrCnt, 16, 16⟩
def waits : Fld := ⟨.cluPwrCnt, 32, 16⟩
def powerups : Fld := ⟨.cluPwrCnt, 48, 16⟩
end Sys2Proof.F.cluPwrCnt
namespace Sys2Proof.F.tlmRef
def main_en : Fld := ⟨.tlmRef, 0, 1⟩
def main_ok : Fld := ⟨.tlmRef, 1, 1⟩
def fb_sel : Fld := ⟨.tlmRef, 2, 2⟩
def fb_ok : Fld := ⟨.tlmRef, 4, 1⟩
end Sys2Proof.F.tlmRef
namespace Sys2Proof.F.tlmUrg
def ch : Fld := ⟨.tlmUrg, 0, 9⟩
end Sys2Proof.F.tlmUrg
namespace Sys2Proof.F.tlmCnt
def aborts : Fld := ⟨.tlmCnt, 0, 16⟩
def urg_busy : Fld := ⟨.tlmCnt, 16, 12⟩
def urg_limit : Fld := ⟨.tlmCnt, 28, 12⟩
def trig_drop : Fld := ⟨.tlmCnt, 40, 8⟩
def qovf : Fld := ⟨.tlmCnt, 48, 8⟩
def noref : Fld := ⟨.tlmCnt, 56, 8⟩
end Sys2Proof.F.tlmCnt
namespace Sys2Proof.F.tlmDac
def code : Fld := ⟨.tlmDac, 0, 10⟩
def selftest : Fld := ⟨.tlmDac, 10, 1⟩
def faulty : Fld := ⟨.tlmDac, 16, 16⟩
end Sys2Proof.F.tlmDac
namespace Sys2Proof.F.tlmDacFaultyB
def faulty : Fld := ⟨.tlmDacFaultyB, 0, 16⟩
end Sys2Proof.F.tlmDacFaultyB
namespace Sys2Proof.F.tlmQ
def entry : Fld := ⟨.tlmQ, 0, 64⟩
end Sys2Proof.F.tlmQ
namespace Sys2Proof.F.tlmAccSum
def sum : Fld := ⟨.tlmAccSum, 0, 32⟩
def count : Fld := ⟨.tlmAccSum, 32, 20⟩
end Sys2Proof.F.tlmAccSum
namespace Sys2Proof.F.tlmAccRange
def min : Fld := ⟨.tlmAccRange, 0, 12⟩
def max : Fld := ⟨.tlmAccRange, 12, 12⟩
def clr : Fld := ⟨.tlmAccRange, 31, 1⟩
end Sys2Proof.F.tlmAccRange
namespace Sys2Proof.F.tlmCh
def mux : Fld := ⟨.tlmCh, 0, 6⟩
def addr : Fld := ⟨.tlmCh, 6, 3⟩
def conv : Fld := ⟨.tlmCh, 9, 1⟩
def trig : Fld := ⟨.tlmCh, 10, 2⟩
def delay : Fld := ⟨.tlmCh, 12, 12⟩
def period : Fld := ⟨.tlmCh, 24, 16⟩
def dest : Fld := ⟨.tlmCh, 40, 1⟩
def acc : Fld := ⟨.tlmCh, 41, 6⟩
def urg : Fld := ⟨.tlmCh, 47, 1⟩
end Sys2Proof.F.tlmCh
namespace Sys2Proof.F.stwThmDie
def tdie : Fld := ⟨.stwThmDie, 0, 10⟩
def hot : Fld := ⟨.stwThmDie, 10, 7⟩
def ts0 : Fld := ⟨.stwThmDie, 17, 10⟩
def ts1 : Fld := ⟨.stwThmDie, 27, 10⟩
end Sys2Proof.F.stwThmDie
namespace Sys2Proof.F.stwThmCt
def t : Fld := ⟨.stwThmCt, 0, 10⟩
def a : Fld := ⟨.stwThmCt, 10, 2⟩
def b : Fld := ⟨.stwThmCt, 12, 2⟩
def disagree : Fld := ⟨.stwThmCt, 14, 1⟩
def blind : Fld := ⟨.stwThmCt, 15, 1⟩
def heatoff : Fld := ⟨.stwThmCt, 16, 1⟩
end Sys2Proof.F.stwThmCt
namespace Sys2Proof.F.nirCoolMeas
def tin : Fld := ⟨.nirCoolMeas, 0, 10⟩
def tout : Fld := ⟨.nirCoolMeas, 10, 10⟩
def flow : Fld := ⟨.nirCoolMeas, 20, 12⟩
def qreq : Fld := ⟨.nirCoolMeas, 32, 12⟩
def lowflow : Fld := ⟨.nirCoolMeas, 44, 1⟩
def thfault : Fld := ⟨.nirCoolMeas, 45, 1⟩
end Sys2Proof.F.nirCoolMeas
namespace Sys2Proof.F.nirCoolCfg
def ppl : Fld := ⟨.nirCoolCfg, 0, 14⟩
def cpv : Fld := ⟨.nirCoolCfg, 14, 18⟩
end Sys2Proof.F.nirCoolCfg
namespace Sys2Proof.F.nirCoolMargin
def m : Fld := ⟨.nirCoolMargin, 0, 16⟩
def pcap : Fld := ⟨.nirCoolMargin, 16, 16⟩
def pcool : Fld := ⟨.nirCoolMargin, 32, 16⟩
def rth : Fld := ⟨.nirCoolMargin, 48, 16⟩
end Sys2Proof.F.nirCoolMargin
namespace Sys2Proof.F.nirThmStat
def thm_step : Fld := ⟨.nirThmStat, 0, 3⟩
def hotdie : Fld := ⟨.nirThmStat, 3, 5⟩
def thot : Fld := ⟨.nirThmStat, 8, 10⟩
def stackcause : Fld := ⟨.nirThmStat, 18, 1⟩
end Sys2Proof.F.nirThmStat
namespace Sys2Proof.F.nirThmSdrec
def cause : Fld := ⟨.nirThmSdrec, 0, 3⟩
def die : Fld := ⟨.nirThmSdrec, 3, 5⟩
def side : Fld := ⟨.nirThmSdrec, 8, 1⟩
def temp : Fld := ⟨.nirThmSdrec, 9, 10⟩
def stitch : Fld := ⟨.nirThmSdrec, 32, 32⟩
end Sys2Proof.F.nirThmSdrec
namespace Sys2Proof.F.nirKindleStat
def state : Fld := ⟨.nirKindleStat, 0, 3⟩
def stage : Fld := ⟨.nirKindleStat, 3, 3⟩
def warm : Fld := ⟨.nirKindleStat, 6, 1⟩
def cause : Fld := ⟨.nirKindleStat, 7, 3⟩
end Sys2Proof.F.nirKindleStat
namespace Sys2Proof.F.nirKindleCmd
def op : Fld := ⟨.nirKindleCmd, 0, 2⟩
end Sys2Proof.F.nirKindleCmd
namespace Sys2Proof.F.nirKindleCfg
def talign : Fld := ⟨.nirKindleCfg, 0, 16⟩
end Sys2Proof.F.nirKindleCfg
namespace Sys2Proof.F.nirEvqBase
def addr : Fld := ⟨.nirEvqBase, 0, 64⟩
end Sys2Proof.F.nirEvqBase
namespace Sys2Proof.F.nirEvqCfg
def en : Fld := ⟨.nirEvqCfg, 0, 1⟩
def size_log2 : Fld := ⟨.nirEvqCfg, 1, 5⟩
def vec : Fld := ⟨.nirEvqCfg, 6, 11⟩
end Sys2Proof.F.nirEvqCfg
namespace Sys2Proof.F.nirEvqProd
def count : Fld := ⟨.nirEvqProd, 0, 32⟩
end Sys2Proof.F.nirEvqProd
namespace Sys2Proof.F.nirEvqCnt
def held : Fld := ⟨.nirEvqCnt, 0, 11⟩
def lost : Fld := ⟨.nirEvqCnt, 16, 16⟩
end Sys2Proof.F.nirEvqCnt
namespace Sys2Proof.F.nirEmberStat
def module : Fld := ⟨.nirEmberStat, 0, 1⟩
def parts : Fld := ⟨.nirEmberStat, 1, 8⟩
def cause : Fld := ⟨.nirEmberStat, 9, 3⟩
def result : Fld := ⟨.nirEmberStat, 12, 2⟩
end Sys2Proof.F.nirEmberStat
namespace Sys2Proof.F.nirEmberCmd
def op : Fld := ⟨.nirEmberCmd, 0, 2⟩
def scope : Fld := ⟨.nirEmberCmd, 2, 1⟩
def part : Fld := ⟨.nirEmberCmd, 3, 3⟩
end Sys2Proof.F.nirEmberCmd
namespace Sys2Proof.F.nirEmberCfg
def grace : Fld := ⟨.nirEmberCfg, 0, 16⟩
end Sys2Proof.F.nirEmberCfg
namespace Sys2Proof.F.srvFaultHalt
def sf : Fld := ⟨.srvFaultHalt, 0, 64⟩
end Sys2Proof.F.srvFaultHalt
namespace Sys2Proof.F.srvFaultCnt
def drop : Fld := ⟨.srvFaultCnt, 0, 16⟩
def rebuilt : Fld := ⟨.srvFaultCnt, 16, 16⟩
def ended : Fld := ⟨.srvFaultCnt, 32, 16⟩
def pending : Fld := ⟨.srvFaultCnt, 48, 16⟩
end Sys2Proof.F.srvFaultCnt
namespace Sys2Proof.F.nirIdInfo
def grade : Fld := ⟨.nirIdInfo, 0, 8⟩
def tgrade : Fld := ⟨.nirIdInfo, 8, 8⟩
def devid : Fld := ⟨.nirIdInfo, 16, 16⟩
end Sys2Proof.F.nirIdInfo
namespace Sys2Proof.F.nirIdSerial
def serial : Fld := ⟨.nirIdSerial, 0, 64⟩
end Sys2Proof.F.nirIdSerial
namespace Sys2Proof.F.nirIdMac
def macbase : Fld := ⟨.nirIdMac, 0, 48⟩
end Sys2Proof.F.nirIdMac
namespace Sys2Proof.F.nirIdLimits
def psus : Fld := ⟨.nirIdLimits, 0, 16⟩
def ppeak : Fld := ⟨.nirIdLimits, 16, 16⟩
def pder : Fld := ⟨.nirIdLimits, 32, 16⟩
end Sys2Proof.F.nirIdLimits
namespace Sys2Proof.F.nirIdSites
def pop : Fld := ⟨.nirIdSites, 0, 24⟩
end Sys2Proof.F.nirIdSites
namespace Sys2Proof.F.cluSbufScrub
def scrub_div : Fld := ⟨.cluSbufScrub, 0, 8⟩
end Sys2Proof.F.cluSbufScrub
namespace Sys2Proof.F.cluSbufEcc
def ce : Fld := ⟨.cluSbufEcc, 0, 16⟩
def ue : Fld := ⟨.cluSbufEcc, 16, 16⟩
end Sys2Proof.F.cluSbufEcc
namespace Sys2Proof.F.cluWinRej
def closed : Fld := ⟨.cluWinRej, 0, 16⟩
def source : Fld := ⟨.cluWinRej, 16, 16⟩
def range : Fld := ⟨.cluWinRej, 32, 16⟩
end Sys2Proof.F.cluWinRej
namespace Sys2Proof.F.stkWinRej
def closed : Fld := ⟨.stkWinRej, 0, 16⟩
def source : Fld := ⟨.stkWinRej, 16, 16⟩
def range : Fld := ⟨.stkWinRej, 32, 16⟩
end Sys2Proof.F.stkWinRej
namespace Sys2Proof.F.cluTallyGen
def gen : Fld := ⟨.cluTallyGen, 0, 16⟩
end Sys2Proof.F.cluTallyGen
namespace Sys2Proof.F.stwTallyGen
def gen : Fld := ⟨.stwTallyGen, 0, 16⟩
end Sys2Proof.F.stwTallyGen
namespace Sys2Proof.F.nirTallyAddr
def word : Fld := ⟨.nirTallyAddr, 3, 13⟩
end Sys2Proof.F.nirTallyAddr
namespace Sys2Proof.F.nirTallyData
def shadow : Fld := ⟨.nirTallyData, 0, 64⟩
end Sys2Proof.F.nirTallyData
namespace Sys2Proof.F.srvRingProdaddr
def addr : Fld := ⟨.srvRingProdaddr, 0, 64⟩
end Sys2Proof.F.srvRingProdaddr
namespace Sys2Proof.F.stwShardLen
def value : Fld := ⟨.stwShardLen, 0, 39⟩
end Sys2Proof.F.stwShardLen
namespace Sys2Proof.F.stwShardRefDigest
def dig : Fld := ⟨.stwShardRefDigest, 0, 64⟩
end Sys2Proof.F.stwShardRefDigest
namespace Sys2Proof.F.lnkChkCfg
def poly : Fld := ⟨.lnkChkCfg, 0, 2⟩
def acc : Fld := ⟨.lnkChkCfg, 2, 1⟩
def cont : Fld := ⟨.lnkChkCfg, 3, 1⟩
end Sys2Proof.F.lnkChkCfg
namespace Sys2Proof.F.lnkChkCnt
def checked : Fld := ⟨.lnkChkCnt, 0, 16⟩
def mismatch : Fld := ⟨.lnkChkCnt, 16, 16⟩
def ignwr : Fld := ⟨.lnkChkCnt, 32, 16⟩
end Sys2Proof.F.lnkChkCnt
namespace Sys2Proof.F.nirBilLot
def value : Fld := ⟨.nirBilLot, 0, 64⟩
end Sys2Proof.F.nirBilLot
namespace Sys2Proof.F.nirEvqProdaddr
def addr : Fld := ⟨.nirEvqProdaddr, 0, 64⟩
end Sys2Proof.F.nirEvqProdaddr
namespace Sys2Proof.F.nirEvqCons
def count : Fld := ⟨.nirEvqCons, 0, 32⟩
end Sys2Proof.F.nirEvqCons
namespace Sys2Proof.F.coreDesc
def desc : Fld := ⟨.coreDesc, 0, 256⟩
end Sys2Proof.F.coreDesc
namespace Sys2Proof.F.coreWin
def open_ : Fld := ⟨.coreWin, 0, 1⟩
def rt : Fld := ⟨.coreWin, 1, 1⟩
def space : Fld := ⟨.coreWin, 2, 4⟩
def srcmask : Fld := ⟨.coreWin, 6, 6⟩
def modf : Fld := ⟨.coreWin, 12, 1⟩
def modid : Fld := ⟨.coreWin, 13, 16⟩
def base : Fld := ⟨.coreWin, 32, 39⟩
def size : Fld := ⟨.coreWin, 71, 40⟩
end Sys2Proof.F.coreWin
namespace Sys2Proof.F.cluWin
def open_ : Fld := ⟨.cluWin, 0, 1⟩
def rt : Fld := ⟨.cluWin, 1, 1⟩
def space : Fld := ⟨.cluWin, 2, 4⟩
def srcmask : Fld := ⟨.cluWin, 6, 6⟩
def modf : Fld := ⟨.cluWin, 12, 1⟩
def modid : Fld := ⟨.cluWin, 13, 16⟩
def base : Fld := ⟨.cluWin, 32, 39⟩
def size : Fld := ⟨.cluWin, 71, 40⟩
end Sys2Proof.F.cluWin
namespace Sys2Proof.F.stkWin
def open_ : Fld := ⟨.stkWin, 0, 1⟩
def rt : Fld := ⟨.stkWin, 1, 1⟩
def space : Fld := ⟨.stkWin, 2, 4⟩
def srcmask : Fld := ⟨.stkWin, 6, 6⟩
def modf : Fld := ⟨.stkWin, 12, 1⟩
def modid : Fld := ⟨.stkWin, 13, 16⟩
def base : Fld := ⟨.stkWin, 32, 39⟩
def size : Fld := ⟨.stkWin, 71, 40⟩
end Sys2Proof.F.stkWin
namespace Sys2Proof.F.coreKvfRoleHome
def space : Fld := ⟨.coreKvfRoleHome, 0, 1⟩
def line : Fld := ⟨.coreKvfRoleHome, 1, 11⟩
end Sys2Proof.F.coreKvfRoleHome
namespace Sys2Proof.F.coreKvfRoleSeat
def len : Fld := ⟨.coreKvfRoleSeat, 0, 17⟩
def phead : Fld := ⟨.coreKvfRoleSeat, 17, 7⟩
def pn : Fld := ⟨.coreKvfRoleSeat, 24, 7⟩
def ohead : Fld := ⟨.coreKvfRoleSeat, 31, 7⟩
def on : Fld := ⟨.coreKvfRoleSeat, 38, 7⟩
def active : Fld := ⟨.coreKvfRoleSeat, 45, 1⟩
def spill : Fld := ⟨.coreKvfRoleSeat, 46, 1⟩
def broken : Fld := ⟨.coreKvfRoleSeat, 47, 1⟩
end Sys2Proof.F.coreKvfRoleSeat
namespace Sys2Proof.F.coreKvfRoleSlot
def next : Fld := ⟨.coreKvfRoleSlot, 0, 7⟩
def ref : Fld := ⟨.coreKvfRoleSlot, 7, 6⟩
def loc : Fld := ⟨.coreKvfRoleSlot, 13, 1⟩
def space : Fld := ⟨.coreKvfRoleSlot, 14, 1⟩
def addr : Fld := ⟨.coreKvfRoleSlot, 16, 16⟩
end Sys2Proof.F.coreKvfRoleSlot
namespace Sys2Proof.F.hstQp
def en : Fld := ⟨.hstQp, 0, 1⟩
def ownerkind : Fld := ⟨.hstQp, 1, 1⟩
def port : Fld := ⟨.hstQp, 2, 2⟩
def mtu : Fld := ⟨.hstQp, 4, 3⟩
def ipv6 : Fld := ⟨.hstQp, 7, 1⟩
def owner : Fld := ⟨.hstQp, 8, 8⟩
def state : Fld := ⟨.hstQp, 16, 8⟩
def synd : Fld := ⟨.hstQp, 24, 8⟩
def dqpn : Fld := ⟨.hstQp, 32, 24⟩
def spsn : Fld := ⟨.hstQp, 64, 24⟩
def rpsn : Fld := ⟨.hstQp, 96, 24⟩
def dip : Fld := ⟨.hstQp, 128, 128⟩
def dmac : Fld := ⟨.hstQp, 256, 48⟩
def dscp : Fld := ⟨.hstQp, 304, 6⟩
def prio : Fld := ⟨.hstQp, 312, 8⟩
def tmo : Fld := ⟨.hstQp, 320, 8⟩
def retry : Fld := ⟨.hstQp, 328, 8⟩
end Sys2Proof.F.hstQp
namespace Sys2Proof.F.hstTflow
def en : Fld := ⟨.hstTflow, 0, 1⟩
def ownerkind : Fld := ⟨.hstTflow, 1, 1⟩
def port : Fld := ⟨.hstTflow, 2, 2⟩
def mtu : Fld := ⟨.hstTflow, 4, 3⟩
def ipv6 : Fld := ⟨.hstTflow, 7, 1⟩
def owner : Fld := ⟨.hstTflow, 8, 8⟩
def state : Fld := ⟨.hstTflow, 16, 8⟩
def synd : Fld := ⟨.hstTflow, 24, 8⟩
def dport : Fld := ⟨.hstTflow, 32, 16⟩
def sport : Fld := ⟨.hstTflow, 64, 16⟩
def dip : Fld := ⟨.hstTflow, 128, 128⟩
def dmac : Fld := ⟨.hstTflow, 256, 48⟩
def dscp : Fld := ⟨.hstTflow, 304, 6⟩
def prio : Fld := ⟨.hstTflow, 312, 8⟩
end Sys2Proof.F.hstTflow
namespace Sys2Proof.F.hstMr
def en : Fld := ⟨.hstMr, 0, 1⟩
def rd : Fld := ⟨.hstMr, 1, 1⟩
def wr : Fld := ⟨.hstMr, 2, 1⟩
def die : Fld := ⟨.hstMr, 3, 5⟩
def rkey : Fld := ⟨.hstMr, 32, 32⟩
def base : Fld := ⟨.hstMr, 64, 64⟩
def size : Fld := ⟨.hstMr, 128, 64⟩
end Sys2Proof.F.hstMr
namespace Sys2Proof.F.nirMgmtPeer
def addr : Fld := ⟨.nirMgmtPeer, 0, 128⟩
end Sys2Proof.F.nirMgmtPeer
namespace Sys2Proof.F.hstMsix
def addr : Fld := ⟨.hstMsix, 0, 64⟩
def data : Fld := ⟨.hstMsix, 64, 32⟩
def mask : Fld := ⟨.hstMsix, 96, 1⟩
end Sys2Proof.F.hstMsix
namespace Sys2Proof.F.hstPba
def pend : Fld := ⟨.hstPba, 0, 64⟩
end Sys2Proof.F.hstPba
namespace Sys2Proof.F.nirKindleRep
def stage : Fld := ⟨.nirKindleRep, 0, 3⟩
def result : Fld := ⟨.nirKindleRep, 3, 2⟩
def warm : Fld := ⟨.nirKindleRep, 5, 1⟩
def cause : Fld := ⟨.nirKindleRep, 6, 3⟩
def start_us : Fld := ⟨.nirKindleRep, 9, 32⟩
def end_us : Fld := ⟨.nirKindleRep, 41, 32⟩
def lit : Fld := ⟨.nirKindleRep, 73, 24⟩
def dark : Fld := ⟨.nirKindleRep, 97, 24⟩
def n1 : Fld := ⟨.nirKindleRep, 121, 32⟩
def n2 : Fld := ⟨.nirKindleRep, 153, 32⟩
def n3 : Fld := ⟨.nirKindleRep, 185, 32⟩
end Sys2Proof.F.nirKindleRep
namespace Sys2Proof.F.nirFpHead
def grade : Fld := ⟨.nirFpHead, 0, 8⟩
def state : Fld := ⟨.nirFpHead, 8, 8⟩
def warm : Fld := ⟨.nirFpHead, 16, 8⟩
def gen : Fld := ⟨.nirFpHead, 32, 32⟩
def changed : Fld := ⟨.nirFpHead, 64, 64⟩
def ready_at : Fld := ⟨.nirFpHead, 128, 64⟩
end Sys2Proof.F.nirFpHead
namespace Sys2Proof.F.nirFpDie
def state : Fld := ⟨.nirFpDie, 0, 8⟩
def dark_cause : Fld := ⟨.nirFpDie, 8, 8⟩
def c : Fld := ⟨.nirFpDie, 16, 16⟩
def stk0 : Fld := ⟨.nirFpDie, 32, 2⟩
def stk1 : Fld := ⟨.nirFpDie, 34, 2⟩
def grp : Fld := ⟨.nirFpDie, 40, 8⟩
def haltlat : Fld := ⟨.nirFpDie, 48, 8⟩
def out0 : Fld := ⟨.nirFpDie, 64, 8⟩
def in0 : Fld := ⟨.nirFpDie, 72, 8⟩
def slice0 : Fld := ⟨.nirFpDie, 80, 16⟩
def out1 : Fld := ⟨.nirFpDie, 96, 8⟩
def in1 : Fld := ⟨.nirFpDie, 104, 8⟩
def slice1 : Fld := ⟨.nirFpDie, 112, 16⟩
def out2 : Fld := ⟨.nirFpDie, 128, 8⟩
def in2 : Fld := ⟨.nirFpDie, 136, 8⟩
def slice2 : Fld := ⟨.nirFpDie, 144, 16⟩
def out3 : Fld := ⟨.nirFpDie, 160, 8⟩
def in3 : Fld := ⟨.nirFpDie, 168, 8⟩
def slice3 : Fld := ⟨.nirFpDie, 176, 16⟩
def rtn0 : Fld := ⟨.nirFpDie, 192, 16⟩
def rtn1 : Fld := ⟨.nirFpDie, 208, 16⟩
def rtn2 : Fld := ⟨.nirFpDie, 224, 16⟩
def rtn3 : Fld := ⟨.nirFpDie, 240, 16⟩
def rtn4 : Fld := ⟨.nirFpDie, 256, 16⟩
def rtn5 : Fld := ⟨.nirFpDie, 272, 16⟩
def rtn6 : Fld := ⟨.nirFpDie, 288, 16⟩
def rtn7 : Fld := ⟨.nirFpDie, 304, 16⟩
def rtn8 : Fld := ⟨.nirFpDie, 320, 16⟩
def rtn9 : Fld := ⟨.nirFpDie, 336, 16⟩
def rtn10 : Fld := ⟨.nirFpDie, 352, 16⟩
def rtn11 : Fld := ⟨.nirFpDie, 368, 16⟩
def naout : Fld := ⟨.nirFpDie, 384, 32⟩
def naret : Fld := ⟨.nirFpDie, 416, 32⟩
def ncoreout : Fld := ⟨.nirFpDie, 448, 16⟩
def ndead : Fld := ⟨.nirFpDie, 464, 8⟩
def nspare : Fld := ⟨.nirFpDie, 472, 8⟩
end Sys2Proof.F.nirFpDie
namespace Sys2Proof.F.nirFpClu
def region : Fld := ⟨.nirFpClu, 0, 8⟩
def flags : Fld := ⟨.nirFpClu, 8, 8⟩
def links : Fld := ⟨.nirFpClu, 16, 16⟩
def sbuf : Fld := ⟨.nirFpClu, 32, 8⟩
def nfail : Fld := ⟨.nirFpClu, 40, 8⟩
def naout : Fld := ⟨.nirFpClu, 48, 8⟩
def naret : Fld := ⟨.nirFpClu, 56, 8⟩
end Sys2Proof.F.nirFpClu
end

