-- ==== Sys2Proof/Machine/State.lean ====
section
/-!
DEFINITION. The state of the block: the queue of waiting commands, time, the register file, memory and the units' own state.
Every register of the spec's tables stands in `regs`; an unlisted field reads as its reset value.
-/

namespace Sys2Proof.Machine
open Sys2Proof

/-- Why a step stops with a fault: nothing does, since every row of the table names an effect.  [DESIGN CHOICE, log 7] -/
inductive Fault where
  deriving DecidableEq, Repr

/-- Why a step is refused. -/
inductive Refusal where
  /-- Raised by `exec` for a command without a meaning (safe: nothing is done). -/
  | notModelled (mnemonic : String)
  deriving DecidableEq, Repr

/-! ## Core state (Table 06.1, R61, R76, R81, R104, R171-R190) -/

/-- An input latch (R61): format code, the 256 element codes (missing ones are 0), zero marks, and the first cycle in which
it is no longer busy (R80). -/
structure Latch where
  fmt : Nat := 1
  elts : List Nat := []
  zero0 : Bool := true
  zero1 : Bool := true
  busyUntil : Nat := 0
  usable : Nat := 0
  bank : Nat := 0
  deriving DecidableEq, Repr

/-- A latch load between issue and landing (R203): physical source offset, landing cycle, issuing bundle. -/
structure LatchLoad where
  lat : Nat
  fmt : Nat
  src : Nat
  landAt : Nat
  bundle : Nat
  deriving DecidableEq, Repr

/-- Where a pending result goes (R199, R209, R217). -/
inductive ResultDest where
  | vreg (r : Nat) (lanes : List Word32)
  | sreg (r : Nat) (val : Word32)
  | flags (bits : Nat)
  | ctx (key : Word64) (layer pos aux : Nat)
  | st (i : Nat) (stitch : Nat)
  deriving DecidableEq, Repr

/-- A result that becomes visible in cycle `due`. -/
structure PendingResult where
  due : Nat
  dest : ResultDest
  deriving DecidableEq, Repr

/-- A result line of an array operation (R72, R81): the cycle it enters the buffer, its array, destination line of the core's
scratchpad, bytes and marks. -/
structure ResultLine where
  enter : Nat
  arr : Nat
  line : Nat
  data : List Byte
  sat : Bool
  err : Bool
  seq : Nat := 0
  deriving DecidableEq, Repr

/-- An array operation in flight (R74): its array, the cycle its lines are in the buffer, saturated conversions, lines; whether ARR.OPS
has counted it, at the end of its last conversion (R202). -/
structure ArrayOp where
  arr : Nat
  doneAt : Nat
  clips : Nat
  lines : List ResultLine
  counted : Bool := false
  deriving DecidableEq, Repr

/-- A running calibration slot (R104, R110): its table entry, start stitch, covered arrays, those that run the full
sequence, the cluster temperature at its start, and whether both sensors were excluded then (R113). -/
structure CalRun where
  entry : Nat
  start : Nat
  arrays : List Nat
  full : List Nat
  temp : Nat
  blind : Bool
  deriving DecidableEq, Repr

/-- A core (Table 06.1, Table 05.7): vector and scalar registers, latches, loads and results in flight, loop stack, the
cycle after the last bundle issue, the stitch a SYNC wait began, slot issue limits, credit charges a stitch (arrays), a
pending set exchange, the cycle from which it issues nothing, array operations and buffered lines, calibration slots, the
first cycle its weight-plane port is free (R88), the issue order of result lines and the first cycle the next may be written (R81).  [DESIGN CHOICE, log 62] -/
structure Core where
  vregs : Map Nat (List Word32) := []
  sregs : Map Nat Word32 := []
  latches : Map Nat Latch := []
  loads : List LatchLoad := []
  results : List PendingResult := []
  loops : List (Nat × Nat) := []
  prevNext : Nat := 0
  waitFrom : Nat := 0
  nextA : Nat := 0
  nextV : Nat := 0
  nextX : Nat := 0
  nextT : Nat := 0
  charges : Map Nat Nat := []
  exchange : Option Nat := none
  stopAt : Option Nat := none
  ops : List ArrayOp := []
  lines : List ResultLine := []
  cal : List CalRun := []
  portFree : Nat := 0
  lineSeq : Nat := 0
  lineAt : Nat := 0
  deriving DecidableEq, Repr

/-- An access at a core's weight-plane port (R87-R90): its requester (0 the transfer engine, with its transfer, 1 the die steward), first
offset, bytes to write, rows in all and done, whether it is a readback, the bytes read and the rows rejected. -/
structure PlaneAcc where
  core : CoreId
  port : Nat
  ofs : Nat
  data : List Byte
  rows : Nat
  read : Bool
  xfer : Option Nat := none
  done : Nat := 0
  got : List Byte := []
  bad : Nat := 0
  deriving DecidableEq, Repr

/-- An array engine's own state (R76, R79, R92): the first cycle it may be issued on again, the first cycle after its last
conversion, the hold set of its next evaluation, the end of a running clear, busy cycles of the age window (R100), reload
transfers outstanding (R396), whether it has been powered in the window, its age in 1/16 equivalent hours (R100). -/
structure Engine where
  reissueAt : Nat := 0
  convEnd : Nat := 0
  hold : Bool := false
  clearEnd : Option Nat := none
  clearAfter : Option Nat := none
  accessEnd : Nat := 0
  busy : Nat := 0
  reload : Nat := 0
  wasOn : Bool := false
  ageSixteenths : Rat := 0
  deriving DecidableEq, Repr

/-- Marks of a memory line (R201, R263): outstanding writes, saturated, error, late. -/
structure LineMark where
  pend : Nat := 0
  sat : Bool := false
  err : Bool := false
  late : Bool := false
  deriving DecidableEq, Repr

/-- A core's first-fault key (R192): cycle, die, cluster, core. -/
structure FaultKey where
  cycle : Nat
  die : Nat
  clu : Nat
  core : Nat
  deriving DecidableEq, Repr

/-- A partition's halt (R190-R192): the first fault, whether a core raised it, the halt stitch, whether its event has been
issued, secondary faults. -/
structure Halt where
  first : FaultKey
  byCore : Bool := true
  sf : Nat
  haltAt : Nat
  taken : Bool := false
  reported : Bool := false
  secondary : Nat := 0
  deriving DecidableEq, Repr

/-! ## Transfers, stacks and the fabric (chapters 08, 09) -/

/-- A transfer (R221, R278-R281): number, issuing core and descriptor, physical source and destination addresses, the
descriptor's options, launch cycle, cycle of the last request, source bytes read, bytes sent so far, late 32 B units of them,
trailer bytes held (R403), first bytes of reload lines that found the buffer full (R395), 16 B units a static-lane error discarded (R301), bytes to land, the status it ends with once they have, grant, bytes landed, rejected by their
arrays (R89) and discarded (R287), whether its object has been signalled, the completion status once decided. -/
structure Xfer where
  id : Nat
  core : CoreId
  desc : Nat
  bundle : Nat
  chan : Nat
  fixed : Bool
  srck : Nat
  src : Nat
  len : Nat
  fill : Bool
  dspace : Nat
  dst : Option Nat
  torus : Option Nat
  win : Nat
  chk : Nat
  csen : Bool
  csdst : Bool
  csobj : Nat
  csinc : Nat
  csrej : Bool
  issued : Nat
  launched : Option Nat := none
  poly : Nat := 0
  acc : Bool := false
  asked : Nat := 0
  read : Nat := 0
  data : List Byte := []
  late : List Nat := []
  held : List Byte := []
  lost : List Nat := []
  holes : List Nat := []
  total : Nat
  fin : Nat := 0
  granted : Bool := false
  landed : Nat := 0
  refused : Nat := 0
  gone : Nat := 0
  signalled : Bool := false
  status : Option Nat := none
  completed : Bool := false
  dstClu : Option CluId := none
  deriving DecidableEq, Repr

/-- A channel of a transfer engine (R278): waiting transfers, the one carried, and the cycle after its last source read. -/
structure Chan where
  queue : List Xfer := []
  cur : Option Nat := none
  freeAt : Nat := 0
  deriving DecidableEq, Repr

/-- Where a stack read's data goes: a scratchpad or shared-buffer address, a cache slot (R270), the reload buffer (R394), or
the requesting transfer's data path. -/
inductive StackTarget where
  | line (addr : Nat)
  | cache (slot : Nat)
  | reload (plane : Nat)
  | data
  deriving DecidableEq, Repr

/-- A stack read in flight (R37, R273): the transfer and part it belongs to, the reading cluster, address and bytes, target,
issue cycle, for a static read the cycle it returns in, and what the line held when the request reached the controller (R276). -/
structure StackRead where
  xfer : Option Nat
  clu : CluId
  addr : Nat
  n : Nat
  target : StackTarget
  issued : Nat
  due : Option Nat
  data : List Byte := []
  deriving DecidableEq, Repr

/-- A posted stack write at its controller (R275, R276): port, cycle it entered, address and bytes. -/
structure StackWr where
  port : Nat
  entered : Nat
  addr : Nat
  data : List Byte
  deriving DecidableEq, Repr

/-- A cache slot (R269, R270): its stack line, state bits and data; `drop` marks a fill made void, `endsAt` the cycle at whose end a
write of INVAL.ALL makes it invalid. -/
structure CacheSlot where
  line : Nat := 0
  valid : Bool := false
  filling : Bool := false
  drop : Bool := false
  late : Bool := false
  endsAt : Option Nat := none
  data : List Byte := []
  deriving DecidableEq, Repr

/-- What a message on the dynamic lane or the signal slot carries. -/
inductive MsgBody where
  | signal (obj inc : Nat)
  | xfer (id : Nat)
  | compl (id : Nat)
  deriving DecidableEq, Repr

/-- A signal message or the head of a dynamic packet: source core, where it is, where it goes, the first cycle it can act
in, failed checks in a row of its next hop (R299-R301, R308), the cycle it came to the router it is at, the port it came by, its 16 B flits. -/
structure Msg where
  body : MsgBody
  src : CoreId
  at_ : CluId
  dst : CluId
  ready : Nat
  tries : Nat := 0
  since : Nat := 0
  port : Nat := 0
  flits : Nat := 1
  deriving DecidableEq, Repr

/-- An update of a sync object, in the cycle it is applied, and the input port it comes by: 0-3 the cores, 4 the signal network, 5 the
transfer engine, 6 the steward (R304-R306). -/
structure SyncUpd where
  due : Nat
  clu : CluId
  obj : Nat
  reset : Bool
  inc : Nat
  port : Nat := 6
  deriving DecidableEq, Repr

/-- A request of the RW position of a bank (R261): port, cycle it entered, address, bytes to write or count to read. -/
structure RwReq where
  port : Nat
  entered : Nat
  addr : Nat
  write : Option (List Byte)
  n : Nat
  deriving DecidableEq, Repr

/-- A fence (R287): its first stitch, the cycle its gate was written (R262), the stitch its gate closed for granted transfers, and whether
the unit has been switched off behind it. -/
structure Fence where
  start : Nat
  since : Nat := 0
  closedAt : Option Nat := none
  off : Bool := false
  deriving DecidableEq, Repr

/-- A scheduled window-entry update (R283): stitch, table, cluster, core, entry, image. -/
structure WinUpdate where
  at_ : Nat
  die : Nat
  table : Nat
  clu : Nat
  core : Nat
  entry : Nat
  image : Nat
  deriving DecidableEq, Repr

/-- A virtual cluster of a partition (R333). -/
structure VClu where
  part : Nat
  vd : Nat
  vcl : Nat
  deriving DecidableEq, Repr

/-- Precision counts of a layer over a window (R154). -/
structure PrecCounts where
  elems : Nat := 0
  satel : Nat := 0
  zeroblk : Nat := 0
  tsf : Nat := 0
  nonfin : Nat := 0
  badsc : Nat := 0
  arrsat : Nat := 0
  deriving DecidableEq, Repr

/-- A steward's notice of a window (R156): its start stitch and, layer by layer, the kinds that hold and the counts; `merged` once the
lead steward has evaluated its own. -/
structure PrecNotice where
  win : Nat
  layers : List (Nat × Nat × PrecCounts)
  merged : Bool := false
  deriving DecidableEq, Repr

/-- An accepted KV command (R250): partition, operation (Table 07.10), seats, arguments, the stitch it takes effect in, and its
number; `own` marks one that the serving unit issued for a request. -/
structure KvCmd where
  seq : Nat
  part : Nat
  op : Nat
  seat : Nat
  seat2 : Nat := 0
  a0 : Nat := 0
  a1 : Nat := 0
  at_ : Nat
  own : Bool := false
  deriving DecidableEq, Repr

/-- A block copy in progress (R251): its command, lane, operation, seat, slot entry, and the source address, the home or the
stack position it goes to. -/
structure KvJob where
  seq : Nat
  part : Nat
  core : CoreId
  role : Nat
  op : Nat
  seat : Nat
  slot : Nat
  src : Nat
  dest : Nat
  hold : Option (Bool × Nat) := none
  deriving DecidableEq, Repr

/-- A seat that became BROKEN in the present stitch (R240): what its KV-ERROR event will name. -/
structure SeatBreak where
  part : Nat
  seat : Nat
  stitch : Nat
  pos : Nat
  len : Nat
  reason : Nat
  layer : Nat
  kvHead : Nat
  lane : Nat
  deriving DecidableEq, Repr

/-- What the sampler drew for a pass (R370, R374, R537): the token, the status and DETAIL it ends its request with, and the
CAND_SHORT and TABLE_FULL flags of its token record. -/
structure Drawn where
  token : Option Nat
  ends : Option (Nat × Nat)
  short : Bool
  full : Bool
  deriving DecidableEq, Repr

/-- A token pass placed or in flight (R357-R363): partition, context, seat, position, global entry, class, start stitch, last
stitch in flight, stitch it emits or completes in, whether it samples, whether its entry is a generation reservation, whether
it has started, and its draw. -/
structure Pass where
  id : Nat
  part : Nat
  ctx : Nat
  seat : Nat
  pos : Nat
  entry : Nat
  cls : Nat
  start : Nat
  fin : Nat
  endAt : Nat
  samples : Bool
  reserved : Bool
  started : Bool := false
  drawn : Option Drawn := none
  deriving DecidableEq, Repr

/-- A descriptor whose prompt is being copied (R350): partition, its 512 bytes. -/
structure PromptCopy where
  part : Nat
  desc : List Byte
  deriving DecidableEq, Repr

/-- A request context (R349-R382, R508-R511) beside what SRV.CTX shows: the descriptor's bytes, its prompt, acceptance number and
its root's, stream key, generated tokens, next position to book, entry into PREFILL, promotion, admission to a seat and to
generation, committed length, return stitch and entry of its last pass, time to first token, last emit stitch, flags of its
completion record, cancel-accept stitch, stitch it entered CLOSING without a seat, positions to replay, waiting for its rebuild, a fork rebuilt whole (R511). -/
structure ReqCtx where
  desc : List Byte
  prompt : List Nat
  order : Nat
  rootOrder : Nat := 0
  key : Nat
  gen : List Nat := []
  booked : Nat := 0
  entered : Nat := 0
  promoted : Option Nat := none
  admitted : Bool := false
  granted : Bool := false
  len : Nat := 0
  ret : Nat := 0
  lastPrompt : Nat := 0
  lastEntry : Nat := 0
  ttft : Option Nat := none
  lastEmit : Option Nat := none
  tableFull : Bool := false
  candShort : Bool := false
  ttftMiss : Bool := false
  tbtMiss : Bool := false
  lost : Bool := false
  cancelAt : Option Nat := none
  closedAt : Option Nat := none
  replay : Nat := 0
  rebuild : Bool := false
  whole : Bool := false
  deriving DecidableEq, Repr

/-- A record waiting in the pending buffer (R380-R382): partition, ring or flow, whether it goes by Ethernet, its 32 bytes, the
stitch it entered. -/
structure RingRec where
  part : Nat
  ring : Nat
  eth : Bool
  data : List Byte
  entered : Nat
  deriving DecidableEq, Repr

/-- Latency violations of a class in one interval (R376, R377). -/
structure LatWindow where
  ttftN : Nat := 0
  tbtN : Nat := 0
  ttftMax : Nat := 0
  tbtMax : Nat := 0
  deriving DecidableEq, Repr

/-- What the serving unit keeps from a partition halt to its resumption (R508-R512): first-fault and halt stitch, whether a die
was lost, the resume stitch once known, whether a swap resumes it, kept, rebuilt and ended contexts, dropped tokens, and
whether it has resumed. -/
structure ServHalt where
  sf : Nat
  haltAt : Nat
  dieLoss : Bool := false
  resumeAt : Option Nat := none
  viaSwap : Bool := false
  kept : Nat := 0
  rebuilt : Nat := 0
  ended : Nat := 0
  dropped : Nat := 0
  resumed : Bool := false
  deriving DecidableEq, Repr

/-- A byte of a harness: its target (TKIND, TABLE and TARGET in one number), value, and the section and record that wrote it;
section 0xFFFE for a byte no record of the image wrote (R322, R345). -/
structure RawByte where
  at_ : Nat
  val : Byte
  sec : Nat
  rcd : Nat
  deriving DecidableEq, Repr

/-- An entry of the clamp report (Table 10.7), and the bit position it is ordered by. -/
structure ClampEntry where
  sec : Nat
  reason : Nat
  rcd : Nat
  word : Nat
  lsb : Nat
  width : Nat
  tsrc : Nat
  orig : Nat
  new : Nat
  pos : Nat
  deriving DecidableEq, Repr

/-- A loaded harness (R321, R327): header fields, key, the bytes its records hold after clamping, the clamps, and whether it is
an outgoing harness kept as the shadow (R344). -/
structure Harness where
  part : Nat
  hid : Nat
  baseId : Nat
  strict : Bool
  patch : Bool
  streaming : Bool
  opkey : Bool
  fpr : Nat
  vdies : Nat
  drain : Nat
  resume : Nat
  raw : List RawByte
  clamps : List ClampEntry := []
  needsPause : Bool := false
  kept : Bool := false
  deriving DecidableEq, Repr

/-- A requested harness swap (R338): its stitch, the stitch of the request, paused, committed, cancelled by a halt (R193). -/
structure Swap where
  at_ : Nat
  asked : Nat := 0
  paused : Bool := false
  committed : Bool := false
  cut : Bool := false
  deriving DecidableEq, Repr

/-- A shard area in a die's stacks (R388): die, offset, length, state (0 EMPTY, 1 FETCHING, 2 HASHING, 3 VERIFIED, 4 BAD) and, once
verified, its digest. -/
structure ShardArea where
  die : Nat
  ofs : Nat
  len : Nat
  state : Nat
  digest : List Byte := []
  deriving DecidableEq, Repr

/-- A write of one array at activation (R391, R392): array, image, address of the image and of its digest entry, tries. -/
structure ActWrite where
  arr : ArrId
  image : Nat
  src : Nat
  dig : Nat
  tries : Nat := 0
  deriving DecidableEq, Repr

/-- An event record (R505): code, severity, issuing die (31 for Nirdo), partition if any, issue stitch, payload fields as
(value, width). -/
structure Event where
  code : Nat
  severity : Nat
  die : Nat
  part : Option Nat := none
  seq : Nat := 0
  issue : Nat
  loss : Bool := false
  payload : List (Nat × Nat)
  deriving DecidableEq, Repr

/-- What leaves the block: host memory writes, MSI-X messages, answers on a bus.  [DESIGN CHOICE, log 10 and 200] -/
inductive Output where
  | hostWrite (addr : Nat) (data : List Byte)
  | msix (vec : Nat)
  | answer (val : Nat) (ok : Bool)
  | console (ev : Event)
  | dynDone (addr : Nat) (status : Nat) (data : List Byte)
  | frame (port : Nat) (f : Frame)
  | rdmaRead (qp psn va rkey len : Nat)
  | rdmaReply (qp code : Nat) (data : List Byte)
  | cnp (qp : Nat)
  | datagram (port : Nat) (data : List Byte)
  | mgmt (op tag status val : Nat)
  | nack
  deriving DecidableEq, Repr

/-- A region's power sequence (R455-R463): stitches of a scheduled power-on and power-down, the stitch the step in progress
began or the last headroom check was made, the length of the header stage in progress, stages closed, whether the phase test
has passed and a check is due, first entry into WAIT, failed phases, whether it goes down to DEAD, the stitch of the next
header opening, the stitch and headroom (10 mA) of the stage begun last. -/
structure RegionSeq where
  onAt : Option Nat := none
  offAt : Option Nat := none
  since : Nat := 0
  len : Nat := 0
  stage : Nat := 0
  ready : Bool := false
  firstWait : Option Nat := none
  failed : Nat := 0
  toDead : Bool := false
  openAt : Option Nat := none
  tookAt : Nat := 0
  took : Nat := 0
  deriving DecidableEq, Repr

/-- A region's measurements over a credit window (R453, R464): sum and number of its current reports (10 mA), lowest valid droop
reading (mV); the budget entries in force at the window's start, if it was ON then; consecutive windows in excess, and with
code 50 and a low reading; whether the droop-limit condition holds. -/
structure RegionWin where
  sum : Nat := 0
  n : Nat := 0
  low : Option Nat := none
  decl : Option Nat := none
  excess : Nat := 0
  lows : Nat := 0
  droop : Bool := false
  deriving DecidableEq, Repr

/-- A billet's wear area (Table 14.5): equivalent hours used in 1/16 h, thermal cycles, WARNED, DERATED and REFUSE_NEXT. -/
structure Wear where
  eqh : Rat := 0
  cyc : Nat := 0
  warned : Bool := false
  derated : Bool := false
  refuse : Bool := false
  deriving DecidableEq, Repr

/-- What Nirdo keeps of a billet (R441-R446): whether it is in its socket, its identity memory, the wear account, input current,
the second's reports (number, sums of output current in 0.25 A and of baseplate temperature codes), and the thermal-cycle
detector: rising, and the last minimum or maximum. -/
structure Billet where
  fitted : Bool := true
  mem : List Byte := []
  wear : Wear := {}
  iin : Nat := 0
  n : Nat := 0
  sumI : Nat := 0
  sumT : Nat := 0
  up : Bool := false
  turn : Option Nat := none
  deriving DecidableEq, Repr

/-- A telemetry converter (R469-R477): slot of the frame it is in, the channel converted in a channel slot, whether the slot is a
self-test, the reference of the conversion (0 none, 1 main, 2 fallback, 3 supply fallback), whether it was restarted, waiting
requests, the urgent channel to convert, urgent conversions of the frame, frames completed, consecutive bandgap departures. -/
structure Converter where
  slot : Nat := 0
  cur : Option Nat := none
  test : Bool := false
  ref : Nat := 0
  restarted : Bool := false
  waiting : List Nat := []
  urgent : Option Nat := none
  urgents : Nat := 0
  frames : Nat := 0
  gap : Nat := 0
  deriving DecidableEq, Repr

/-- A die's telemetry (R469-R480): converters, frames formed and reported, valid samples of the frame by sensor (0-127 A, 128-255 B
of clusters, 256 and 257 carrier), runs of excluded frames by sensor, of disagreeing, of no valid and of hot frames by cluster,
failed tests in a row by sense line, the result queue, main reference found faulty, runs of no valid reading by stack side; and of one
core cycle: the results that entered accumulators (accumulator, code), how many entered the queue, and those a full queue lost. -/
structure Telemetry where
  c0 : Converter := {}
  c1 : Converter := {}
  formed : Nat := 0
  told : Nat := 0
  samples : Map Nat Nat := []
  excluded : Map Nat Nat := []
  differ : Map Nat Nat := []
  dark : Map Nat Nat := []
  hot : Map Nat Nat := []
  lines : Map Nat Nat := []
  queue : List Nat := []
  mainBad : Bool := false
  blindStack : Map Nat Nat := []
  cycle : Nat := 0
  hits : List (Nat × Nat) := []
  fresh : Nat := 0
  lost : List Nat := []
  deriving DecidableEq, Repr

/-- Nirdo's supply and coolant monitor (R484-R488): input powers of the last 100 samples (0.1 mW), and sums since the last 1 s
evaluation of powers, of thermistor codes and of the highest die temperature; the 1 s means of power (W) and of the inlet and
outlet codes; flow pulses since the last evaluation and of the second before; runs of low and of sufficient flow and of
unbalanced heat; conditions already reported; wall time since which the bus has been in 54-63 V, and run of evaluations with the
flow that PLIM requires (R514); samples of 10 µs to come before the governor acts on an excess of the 1 ms mean and of the 100 µs
mean (R465); wall time since which every inlet reading has been above and below the grade's range (R488). -/
structure Monitor where
  powers : List Nat := []
  n : Nat := 0
  sumP : Nat := 0
  nT : Nat := 0
  sumIn : Nat := 0
  sumOut : Nat := 0
  nHot : Nat := 0
  sumHot : Nat := 0
  p1s : Nat := 0
  in1s : Option Nat := none
  pulses : Nat := 0
  perSec : Nat := 0
  lowRun : Nat := 0
  okRun : Nat := 0
  unbalanced : Nat := 0
  inBad : Bool := false
  outBad : Bool := false
  inHigh : Bool := false
  inLow : Bool := false
  flowLost : Bool := false
  busSince : Option Nat := none
  clearRun : Nat := 0
  overIn : Option Nat := none
  peakIn : Option Nat := none
  inHighAt : Option Nat := none
  inLowAt : Option Nat := none
  deriving DecidableEq, Repr

/-- A shard command in progress (R386-R389, R400): VERIFY, refetch for a core's array and image, queue pair, remote address and
key, area, expected digest, bytes asked for, lengths of the READ requests outstanding, bytes landed, aborting. -/
structure ShardJob where
  verify : Bool
  refetch : Option (CoreId × Nat × Nat) := none
  qp : Nat := 0
  raddr : Nat := 0
  rkey : Nat := 0
  ofs : Nat
  len : Nat
  expect : List Byte
  asked : Nat := 0
  outs : List Nat := []
  landed : Nat := 0
  aborting : Bool := false
  deriving DecidableEq, Repr

/-- A readback or repair of a digest slot (R399, R400): array and image, whether it is a repair, its first cycle and the cycle it ends. -/
structure DigRead where
  arr : Nat
  img : Nat
  fix : Bool
  startAt : Nat
  endAt : Nat
  deriving DecidableEq, Repr

/-- A core's digest sweep (R397-R400): start stitch of each entry's last slot; readbacks running; arrays and images whose stack image is being
hashed; arrays and images the next slots repair. -/
structure DigCore where
  slotAt : Map Nat Nat := []
  reads : List DigRead := []
  hashes : List (Nat × Nat) := []
  repairs : List (Nat × Nat) := []
  deriving DecidableEq, Repr

/-- A frame that waits at an output (R415-R417): its input (torus port 0-5, or 6 the module), the input's receive buffer it
occupies. -/
structure OutFrame where
  frame : Frame
  input : Nat
  buf : Nat
  deriving DecidableEq, Repr

/-- A torus port (R412-R417): frames waiting to be sent, frames sent and not acknowledged, 32 B units outstanding and last CRED
byte by buffer, units freed and units reported by receive buffer, wall time of the last LCTL frame, consecutive retries, whether
the neighbour's ID has come, whether the neighbour takes its time from this module, the stitch its attachment was lost, whether
it has moved to the alternate. -/
structure Port where
  waiting : List OutFrame := []
  replay : List Frame := []
  used : Map Nat Nat := []
  cred : Map Nat Nat := []
  freed : Map Nat Nat := []
  told : Map Nat Nat := []
  lctlAt : Nat := 0
  tries : Nat := 0
  ident : Bool := false
  child : Bool := false
  alternate : Bool := false
  deriving DecidableEq, Repr

/-- A torus transfer arriving (R420): port, source module and XID, partition, physical destination address, bytes of the whole transfer,
landed and rejected, rejection status, whether a fence closed on it (R287), what it signals. -/
structure InWrite where
  port : Nat
  src : Nat
  xid : Nat
  part : Nat := 0
  dst : Nat
  total : Nat
  landed : Nat := 0
  refused : Nat := 0
  status : Option Nat := none
  late : Bool := false
  csd : Bool
  csobj : Nat
  csinc : Nat
  csrej : Bool
  deriving DecidableEq, Repr

/-- A queue pair beside HST.QP (R432, R433): the context in effect since EN was written, next PSN to send and to expect, send
rate as a part of line rate and the wall time it was set, retries left, wall time of the last CNP sent. -/
structure QpState where
  ctx : Nat
  sPsn : Nat
  ePsn : Nat
  rate : Rat := 1
  rateAt : Nat := 0
  retries : Nat := 0
  cnpAt : Option Nat := none
  deriving DecidableEq, Repr

/-- A kindling in progress (R492): the stage running, warm or full, its scope, microseconds since it began, its dies, the wall time
the stage began, whether the stage's first part has been done, and whether every engine has a known-answer result. -/
structure Kindling where
  stage : Nat := 0
  warm : Bool := false
  scope : Option Nat := none
  us : Nat := 0
  dies : List Nat := []
  since : Nat := 0
  begun : Bool := false
  known : Bool := true
  deriving DecidableEq, Repr

/-- Shards and digests (R386-R401): commands in progress by die; RADDR, RKEY and QP of a die's last fetch; digest sweeps by core;
stitch of the last stack sweep and the next image by die. -/
structure Weights where
  jobs : Map Nat ShardJob := []
  last : Map Nat (Nat × Nat × Nat) := []
  digs : Map CoreId DigCore := []
  sweepAt : Map Nat Nat := []
  sweepNext : Map Nat Nat := []
  deriving DecidableEq, Repr

/-- Outside connections (chapter 13): torus ports; arriving torus transfers; send time of the time request outstanding, stitch of the
last exchange; ignored writes of NIR.TORUS.ID; queue pairs; end of a PFC pause by Ethernet port and priority (wall time); datagram
counts by partition and flow; PCIe configuration words written by the host; PERST# asserted; wall time from which configuration
requests are answered; JTAG instruction, preloaded boundary values, whether they drive the pins; manufacture lock; PMBus
STATUS_WORD; bytes that management Ethernet has given the console. -/
structure Outside where
  ports : Map Nat Port := []
  inWrites : List InWrite := []
  timeReq : Option Nat := none
  timeAt : Nat := 0
  idIgnored : Nat := 0
  qps : Map Nat QpState := []
  pfc : Map (Nat × Nat) Nat := []
  flowSeq : Map (Nat × Nat) Nat := []
  pcieCfg : Map Nat Nat := []
  perst : Bool := false
  answersAt : Option Nat := none
  jtagInstr : Nat := 0
  jtagScan : Nat := 0
  jtagDrive : Bool := false
  mfgLock : Bool := false
  pmStatus : Nat := 0
  conIn : List Byte := []
  deriving DecidableEq, Repr

/-- Kindling and faults in service (chapter 16): the kindling in progress, a full kindling waiting for its ember entry, end of the
grace by partition (wall time), dies whose halt is still to be asserted and the stitch after which it is, whether the last shutdown
was orderly, whether stage K5 has begun since the last full kindling started (R411), whether the last full kindling gave Ready. -/
structure KindleState where
  kin : Option Kindling := none
  fullAsked : Bool := false
  grace : Map Nat Nat := []
  owed : List (Nat × Nat) := []
  clean : Bool := true
  k5 : Bool := false
  ready : Bool := false
  deriving DecidableEq, Repr

/-- A change of a region's credit cap that waits for its window: the first window it applies from, the cap, and whether reduced entries hold
from there (R185). -/
structure CapDue where
  win : Nat
  cap : Nat
  enf : Bool
  deriving DecidableEq, Repr

/-- The whole state.  Every register of the tables is in `regs`; the other fields are what the rules give the units beside them. -/
structure State where
  /-- Commands waiting, first in first out.  [DESIGN CHOICE, log 207] -/
  pending : List Instr
  /-- The 64-bit stitch counter, which holds one value in all dies (R30, R31).  [DEDUCED, log 8] -/
  stitch : Nat
  /-- Core cycle within the stitch, 0-15 (R30). -/
  cc : Nat
  /-- The model's own counter of free values drawn (no state of the hardware).  [DESIGN CHOICE, log 60] -/
  draws : Nat
  /-- Every register field of the tables; an unlisted field reads as its reset value (R13). -/
  regs : Map FKey Nat
  /-- Cinch shadows of the counters: the values copied at the last cinch stitch (R314). -/
  shadow : Map FKey Nat
  /-- The register file as it stood at the start of the present core cycle, once time has begun to pass: what the units of one cycle read
  where a change counts from the next cycle on (R16, R155, R188, R262, R314). -/
  cycleRegs : Option (Map FKey Nat)
  /-- Ignored direct writes of RWH fields, by register and instance (R14). -/
  ignored : Map (Reg × Ix) Nat
  /-- Ignored direct writes of a core's bundle store (R14, R169). -/
  ignoredStore : Map CoreId Nat
  /-- Scratchpad, shared buffer, stack and plane bytes by fabric address (R11). -/
  mem : Memory
  /-- PEND, SAT, ERR and LATE marks by memory line (R201, R263). -/
  marks : Map Nat LineMark
  /-- 64-bit words holding an upset: true for an uncorrectable one (R265). -/
  upsets : Map Nat Bool
  /-- Corrected words waiting for their bank's MT position (R265). -/
  writebacks : List Nat
  /-- The cores, by core (R168). -/
  cores : Map CoreId Core
  /-- The array engines, by array (R76). -/
  engines : Map ArrId Engine
  /-- Halts in progress, by partition (R190). -/
  halts : Map Nat Halt
  /-- Transfer-engine channels, by cluster and channel (R278). -/
  chans : Map (CluId × Nat) Chan
  /-- Transfers issued and not yet completed (R278). -/
  flights : List Xfer
  /-- Number of the next transfer (R278). -/
  xferSeq : Nat
  /-- Stack reads in flight (R273). -/
  stackReads : List StackRead
  /-- Posted stack writes at their controllers, in arrival order (R276). -/
  stackWrites : List StackWr
  /-- Cycle of the last timed stack request, by cluster (R221). -/
  lastReq : Map CluId Nat
  /-- Stack cache slots, by cluster and slot (R269). -/
  cache : Map (CluId × Nat) CacheSlot
  /-- Cycle of the last access, and whether it was a static one, by bank position (R259, R260). -/
  claims : Map Nat (Nat × Bool)
  /-- First cycle in which a router's output is free, by cluster, direction and lane: dynamic VC0, VC1, signal slot (R291, R311). -/
  laneUse : Map (CluId × Nat × Nat) Nat
  /-- End of a tenant clear of a die's scratchpads, during which their wheels are suspended (R284). -/
  spadClear : Map Nat Nat
  /-- Accesses that ended with an address fault without a transfer's completion, by the die of the unit that issued them (R12).  [DESIGN CHOICE, log 179] -/
  addrFaults : Map Nat Nat
  /-- Next row of the scrub, by bank (R266). -/
  scrubRow : Map BankId Nat
  /-- Requests waiting for the RW position, by bank (R261). -/
  rwq : Map BankId (List RwReq)
  /-- Fences in progress, by unit (R287). -/
  fences : Map FenceUnit Fence
  /-- Scheduled window-entry updates (R283). -/
  winUpdates : List WinUpdate
  /-- Credit cap changes due, by cluster, in order of their windows (R184, R185). -/
  capDue : Map CluId (List CapDue)
  /-- Last CAP and declared budget seen, by cluster (R184). -/
  capSeen : Map CluId (Nat × Nat)
  /-- Dies whose stacks are being cleared for a tenant, with the wall time the clear began (R285). -/
  clearing : Map Nat Nat
  /-- Stack groups being zeroed, by die and group, with the wall time that began (R288). -/
  zeroing : Map (Nat × Nat) Nat
  /-- Signals and dynamic packet heads on the fabric (R299, R308). -/
  msgs : List Msg
  /-- Sync-object updates waiting for their cycle (R304). -/
  syncQ : List SyncUpd
  /-- Failed hops the dynamic lane of a die routes around (R303). -/
  rerouted : Map Nat (List (Nat × Nat))
  /-- Links whose failure event has been issued (R302, R309). -/
  reported : List (Nat × Nat × Nat)
  /-- The cluster each virtual cluster of a partition stands on (R333). -/
  tack : Map VClu CluId
  /-- The latched count and generation of a cinch (none: module; some d: a die) (R313). -/
  cinchLatch : Map (Option Nat) (Nat × Nat)
  /-- Dies a cinch waits for, and whether each has answered (R318). -/
  cinchWait : List (Nat × Bool)
  /-- The last precision notice formed, by die (R156). -/
  precOut : Map Nat PrecNotice
  /-- Notices received and not yet evaluated, by partition and die (R156). -/
  precIn : List (Nat × Nat × PrecNotice)
  /-- Counts of the window before, by partition (R157). -/
  precPrev : Map Nat (Nat × Map Nat Nat)
  /-- The stitch counter runs (R31). -/
  running : Bool
  /-- Clock steps asked for, by source (R43). -/
  stepReqs : Map StepSource Nat
  /-- The step the standby PLL is set to (R41, R42). -/
  standby : Nat
  /-- Dies whose standby PLL has locked (R42, R44). -/
  pllLock : List Nat
  /-- The pending step has passed its point of no return (R44). -/
  committed : Bool
  /-- Dies lost and not yet dark, with the cause (R509). -/
  dying : Map Nat Nat
  /-- Homes of a KV lane role, in order (R233, R234). -/
  homeList : Map (CoreId × Nat) (List Nat)
  /-- Accepted KV commands not yet in effect (R250). -/
  kvCmds : List KvCmd
  /-- Block copies in progress (R251). -/
  kvJobs : List KvJob
  /-- Number of the next KV command (R250). -/
  kvSeq : Nat
  /-- Number of the KV command that a partition's result shows (R255). -/
  kvLast : Map Nat Nat
  /-- Token passes placed or in flight (R357). -/
  passes : List Pass
  /-- Number of the next pass (R357). -/
  passSeq : Nat
  /-- Released reservations, whose entries stay empty (R361).  [DESIGN CHOICE, log 220] -/
  released : List Pass
  /-- Cycle in which each die's sampler last accepted a pass (R367).  [DEDUCED, log 221] -/
  samplerAt : Map Nat Nat
  /-- Request contexts, by partition and context (R349). -/
  ctxs : Map (Nat × Nat) ReqCtx
  /-- Descriptors whose prompt is being copied (R350). -/
  promptCopies : List PromptCopy
  /-- Stitch of the last descriptor taken, by partition (R350). -/
  descAt : Map Nat Nat
  /-- Requests accepted, by partition (R369). -/
  accepted : Map Nat Nat
  /-- The number accepted when the active harness was activated, by partition (R369). -/
  acceptedAct : Map Nat Nat
  /-- Why and from which position a seat broke, by partition and seat (R240). -/
  brokeWhy : Map (Nat × Nat) (Nat × Nat)
  /-- Accesses at the weight-plane ports, in order of arrival (R88). -/
  planeQ : List PlaneAcc
  /-- Sum and number of the temperatures delivered for a cluster in the age window (R100). -/
  tempSum : Map CluId (Nat × Nat)
  /-- Seats that broke in the present stitch, whose events go out at its end (R240). -/
  breaks : List SeatBreak
  /-- Cycle in which a lane's next staging starts (R237, R253). -/
  stageAt : Map (CoreId × Nat) Nat
  /-- Stitch in which a promotion ended, by partition (R366). -/
  promoEnd : Map Nat Nat
  /-- Next entry to be booked, by partition (R362). -/
  nextBook : Map Nat Nat
  /-- End of a pause, by partition (R342). -/
  pauseUntil : Map Nat Nat
  /-- Request commands written and not yet accepted (R378). -/
  reqQ : List (Nat × Nat × Nat)
  /-- Records in the pending buffer (R380). -/
  recs : List RingRec
  /-- Records since the last MSI-X of a ring and the stitch of the first (R382). -/
  ringSig : Map (Nat × Nat) (Nat × Nat)
  /-- Rings that are stalled, by partition (R381). -/
  stalled : Map Nat Nat
  /-- Latency violations by partition, class and kind (R376, R377). -/
  latWins : Map (Nat × Nat × Nat) LatWindow
  /-- What the serving unit keeps from a halt to its resumption, by partition (R508). -/
  servHalt : Map Nat ServHalt
  /-- Requested harness swaps, by partition (R338). -/
  swaps : Map Nat Swap
  /-- Signature keys, by slot (R325). -/
  keys : Map Nat (Nat × Nat)
  /-- The active harness, by partition (R320). -/
  active : Map Nat Harness
  /-- The shadow harness, by partition (R320). -/
  shadowHrn : Map Nat Harness
  /-- The clamp report, by partition (R328). -/
  report : Map Nat (List ClampEntry)
  /-- Array writes of an activation still to be made (R391). -/
  actWrites : List ActWrite
  /-- Shared-buffer units being cleared and the stitch in which that ends (R271). -/
  sbufClear : Map (CluId × Nat) Nat
  /-- Counts added to a set that was cleared before its window closed, by die and layer (R154). -/
  precHeld : Map (Nat × Nat) PrecCounts
  /-- Shard areas of the dies (R388). -/
  areas : List ShardArea
  /-- Arrays cleared for a tenant since they were last written (R284, R392). -/
  cleared : List ArrId
  /-- Arrays mapped out by the known-answer run of K6 (R496). -/
  mapOut : List ArrId
  /-- Partitions whose next activation clears for a tenant (R284, R513). -/
  mustClear : List Nat
  /-- Power sequences of the regions (R455). -/
  seqs : Map CluId RegionSeq
  /-- Measurements of the regions over a credit window (R464). -/
  wins : Map CluId RegionWin
  /-- Current of a die's transit rail (10 mA) (R468). -/
  transitI : Map Nat Nat
  /-- The credit window the governor evaluated last (R465). -/
  lastWin : Option Nat
  /-- Clock step at that window's start (R465). -/
  winStep : Nat
  /-- Stitch in which the last clock step was made (R44). -/
  lastStep : Option Nat
  /-- Consecutive windows with 16 or more regions in excess (R465). -/
  manyRun : Nat
  /-- Stitch from which the governor's recovery time counts (R466). -/
  govSince : Nat
  /-- The billets, by socket (R441, R444). -/
  billets : Map Nat Billet
  /-- Wear copies in Nirdo's flash, by billet serial (R445). -/
  flashWear : Map Nat Wear
  /-- Ember entries in progress, by scope: cause and stitch (R513). -/
  embers : Map (Option Nat) (Nat × Nat)
  /-- The module identity area (R532). -/
  ident : List Byte
  /-- A hard shutdown holds (R483). -/
  shut : Bool
  /-- The FAULT# pin is asserted (R483). -/
  faultPin : Bool
  /-- Region commands waiting at the stewards: die, on or off, cluster, stitch (R455, R456). -/
  stwQ : List (Nat × Bool × Nat × Nat)
  /-- The telemetry of the dies (R469). -/
  tlm : Map Nat Telemetry
  /-- The supply and coolant monitor (R484). -/
  mon : Monitor
  /-- Wall time from which a region switched off for heat has been below 50 C (R479). -/
  heatCool : Map CluId Nat
  /-- Runs of hot and of hard-limit frames, by die and unit (R479, R481). -/
  thmRun : Map (Nat × Nat) (Nat × Nat)
  /-- Wall time of the last thermal step (R481). -/
  thmAt : Nat
  /-- Wall time from which the release condition has held (R482). -/
  coolSince : Option Nat
  /-- Input power (W) when each thermal step was raised (R482). -/
  praise : Map Nat Nat
  /-- Shutdown records in flash, newest first (R483). -/
  sdRecs : List Nat
  /-- Shard commands and digest sweeps (R386, R397). -/
  wts : Weights
  /-- Outside connections (R409 to R437). -/
  net : Outside
  /-- Kindling and faults in service (R492). -/
  kdl : KindleState
  /-- Wall time in units of 8/99 ns (R30).  [DESIGN CHOICE, log 5] -/
  wall : Nat
  /-- Wall time up to which a region's age is counted (R100). -/
  ageWall : Map CluId Nat
  /-- Array ages saved in flash (R101). -/
  flashAges : Map ArrId Rat
  /-- Frames the module sends on its torus ports, not yet routed (R413, R425). -/
  inject : List Frame
  /-- Events issued and waiting for a reader (R505, R506). -/
  events : List Event
  /-- Sequence number of the next event (R505). -/
  eventSeq : Nat
  /-- An event has been lost since the last delivered one (R506). -/
  eventLost : Bool
  /-- What has left the block, oldest first (R428 to R437). -/
  out : List Output
  deriving DecidableEq, Repr

/-- The state before power is applied: every register at its reset value, nothing stored, running or waiting.  [DESIGN CHOICE, log 65] -/
def State.reset : State :=
  { pending := [], stitch := 0, cc := 0, draws := 0, regs := [], shadow := [], cycleRegs := none, ignored := [], ignoredStore := [], mem := [], marks := [],
    upsets := [], writebacks := [], cores := [], engines := [], halts := [], chans := [], flights := [], xferSeq := 0, stackReads := [], stackWrites := [], lastReq := [],
    cache := [], claims := [], laneUse := [], spadClear := [], addrFaults := [], scrubRow := [], rwq := [], fences := [], winUpdates := [], capDue := [], capSeen := [], clearing := [], zeroing := [], msgs := [], syncQ := [],
    rerouted := [], reported := [], tack := [], cinchLatch := [], cinchWait := [],
    precOut := [], precIn := [], precPrev := [], running := false, stepReqs := [], standby := 5, pllLock := [], committed := false,
    dying := [], homeList := [], kvCmds := [], kvJobs := [], kvSeq := 0, kvLast := [], passes := [], passSeq := 0, released := [], samplerAt := [], ctxs := [], promptCopies := [], descAt := [], accepted := [], acceptedAct := [], brokeWhy := [], planeQ := [], tempSum := [], breaks := [], stageAt := [],
    promoEnd := [], nextBook := [], pauseUntil := [], reqQ := [], recs := [], ringSig := [], stalled := [], latWins := [], servHalt := [],
    swaps := [], keys := [], active := [],
    shadowHrn := [], report := [], actWrites := [], sbufClear := [], precHeld := [], areas := [], cleared := [], mapOut := [], mustClear := [],
       seqs := [], wins := [], transitI := [], lastWin := none, winStep := 0, lastStep := none, manyRun := 0, govSince := 0, billets := [], flashWear := [],
       embers := [], ident := [], shut := false, faultPin := false, stwQ := [],
       tlm := [], mon := {}, heatCool := [], thmRun := [], thmAt := 0, coolSince := none, praise := [], sdRecs := [], wts := {}, net := {}, kdl := {},
       wall := 0, ageWall := [], flashAges := [], inject := [], events := [], eventSeq := 0, eventLost := false, out := [] }

end Sys2Proof.Machine
end

