-- ==== Sys2Proof/Machine/Ops.lean ====
section
/-!
DEFINITION. The named operations over the state: time, the register file, memory, units, events and outputs.
-/

namespace Sys2Proof.Machine
open Sys2Proof

/-! ## Time (R29-R31) -/

/-- The core cycle count: sixteen cycles a stitch.  [DESIGN CHOICE, log 3] -/
def State.now (s : State) : Nat := 16 * s.stitch + s.cc

/-! ## Register file (R13-R16) -/

/-- Reset value of a field: the register tables', with the fields whose reset depends on the instance (ARR.CFG.SET,
HST.BAR2SEL.DIE, STW.HWIN.CLUSTER, NIR.PWR.GOV.PLIM).  [DEDUCED, log 63] -/
def resetOf (r : Reg) (lo : Nat) (ix : Ix) : Nat :=
  match r, lo with
  | .arrCfg, 4 => ix.n / 32 % 2
  | .hstBar2sel, 0 => ix.n
  | .stwHwin, 0 => ix.n
  | .nirPwrGov, 0 => 15000
  | r, lo =>
    match (Reg.fields r).find? fun f => f.lo == lo with
    | some f => f.reset
    | none => 0

/-- Key of a field instance. -/
def fkey (f : Fld) (ix : Ix) : FKey := ⟨f.reg, f.lo, ix⟩

/-- Value of a field. -/
def State.get (s : State) (f : Fld) (ix : Ix) : Nat := Map.getD s.regs (fkey f ix) (resetOf f.reg f.lo ix)

/-- Write a field from the hardware's side. -/
def State.set (s : State) (f : Fld) (ix : Ix) (v : Nat) : State :=
  { s with regs := Map.put s.regs (fkey f ix) (v % 2 ^ f.width) }

/-- The state as the register file stood at the start of the present core cycle: what a check or an access of this cycle reads where
the rules let a change count from the next cycle on (R188, R262, R314).  [DESIGN CHOICE, log 178] -/
def State.before (s : State) : State := { s with regs := s.cycleRegs.getD s.regs }

/-- The cluster of a die and an index. -/
def cluAt? (d i : Nat) : Option CluId :=
  if hd : d < 24 then if hi : i < 128 then some ⟨⟨d, hd⟩, ⟨i, hi⟩⟩ else none else none

/-- The core of a register's instance. -/
def coreOfIx (ix : Ix) : Option CoreId :=
  match cluAt? ix.die ix.clu with
  | some k => if hc : ix.core < 4 then some ⟨k.die, k.clu, ⟨ix.core, hc⟩⟩ else none
  | none => none

/-- The array engine of a register's instance. -/
def arrOfIx (ix : Ix) : Option ArrId :=
  match coreOfIx ix with
  | some c => if ha : ix.n < 64 then some (c.arr ⟨ix.n, ha⟩) else none
  | none => none

/-- The die is dark (Table 16.6), or has lost its clock or power and is about to be shown so (R509). -/
def State.dieDark (s : State) (d : Nat) : Bool := decide (s.get F.nirFpDie.state (Ix.mod d) = 2) || (Map.find s.dying d).isSome

/-- Hardware sets a W1C bit: a write of 1 in the same cycle does not clear it (R16). -/
def State.raise (s : State) (f : Fld) (ix : Ix) : State :=
  { (s.set f ix 1) with cycleRegs := s.cycleRegs.map fun m => Map.put m (fkey f ix) 0 }

/-- The PCIe link trains to a speed of 2.5 to 32 GT/s and a width of 1 to 16 lanes (R427): which depends on the host, a free value.
[DESIGN CHOICE, log 206] -/
def State.trainPcie (s : State) : State :=
  let s := (s.set F.hstPcieStat.speed (Ix.mod) (1 + Config.freeNat 61 s.draws % 5)).set F.hstPcieStat.width (Ix.mod) (2 ^ (Config.freeNat 62 s.draws % 5))
  { s with draws := s.draws + 1 }

/-- 0 or 1. -/
def boolNat (b : Bool) : Nat := if b then 1 else 0

/-- Whether a one-bit field is set. -/
def State.bit (s : State) (f : Fld) (ix : Ix) : Bool := decide (s.get f ix ≠ 0)

/-- Count up, saturating at the field's width. -/
def State.inc (s : State) (f : Fld) (ix : Ix) (n : Nat := 1) : State := s.set f ix (satAdd f.width (s.get f ix) n)

/-- Count up modulo the field's width. -/
def State.incWrap (s : State) (f : Fld) (ix : Ix) (n : Nat := 1) : State := s.set f ix (s.get f ix + n)

/-- Set fields one after another. -/
def State.sets (s : State) (ix : Ix) : List (Fld × Nat) → State
  | [] => s
  | (f, v) :: t => State.sets (s.set f ix v) ix t

/-- Fields whose written value is stored adjusted, as their rows say. -/
def storeRule (f : Fld) (v : Nat) : Nat :=
  match f.reg, f.lo with
  | .nirTimeStep, 8 => if 5 < v then 5 else v
  | .nirCinchCfg, 0 => max v 256
  | .srvCfg, 0 => max v 1
  | .srvSubqCfg, 0 => min v 16
  | .srvRingCfg, 1 => min (max v 6) 20
  | .srvRingCfg, 17 => max v 1
  | .nirTorusTcfg, 0 => if v = 6 then 7 else v
  | .lnkStat, 19 => if v = 0 ∨ 128 < v then 128 else v
  | .tlmRef, 2 => if v = 3 then 0 else v
  | .tlmCh, 24 => max v 1
  | .nirCoolCfg, 0 => if v = 0 then 1 else min v 10000
  | .nirCoolCfg, 14 => max v 1000
  | .nirKindleCfg, 0 => max v 1
  | .nirEvqCfg, 1 => min (max v 6) 16
  | .srvRingBase, 0 => v / 4096 * 4096
  | .srvRingProdaddr, 0 => v / 8 * 8
  | .nirEvqBase, 0 => v / 4096 * 4096
  | .nirEvqProdaddr, 0 => v / 8 * 8
  | .srvSubqBase, 0 => v / 512 * 512
  | .hrnLoadAddr, 0 => v / 256 * 256
  | .stwShardLocal, 0 => v / 256 * 256
  | _, _ => v

/-- Replace `w` bits at `lo` of a number. -/
def putBits (v lo w x : Nat) : Nat := v - bitsOf v lo w * 2 ^ lo + (x % 2 ^ w) * 2 ^ lo

/-- One field of a direct write of bits [lo + n - 1 : lo] with value v (R14): of the bits it covers RW and WO take the value, W1C
clears where 1 is written but keeps a bit that hardware has set in this cycle (R16), the rest ignore it. -/
def State.writeField (s : State) (r : Reg) (ix : Ix) (sp : FieldSpec) (lo n v : Nat) : State :=
  let a := max lo sp.lo
  let b := min (lo + n) (sp.lo + sp.width)
  if b ≤ a then s
  else
    let f : Fld := ⟨r, sp.lo, sp.width⟩
    let x := bitsOf v (a - lo) (b - a)
    let old := s.get f ix
    match sp.ty with
    | .rw => s.set f ix (storeRule f (putBits old (a - sp.lo) (b - a) x))
    | .wo => s.set f ix (putBits old (a - sp.lo) (b - a) x)
    | .w1c => s.set f ix (old &&& ((2 ^ sp.width - 1) ^^^ (x * 2 ^ (a - sp.lo) &&& s.before.get f ix)))
    | _ => s

/-- A register with an RWH field. -/
def Reg.hasRwh (r : Reg) : Bool := (Reg.fields r).any fun f => decide (f.ty = .rwh)

/-- Whether a write of bits [lo + n - 1 : lo] meets an RWH field, and so is counted as ignored (R14). -/
def Reg.meetsRwh (r : Reg) (lo n : Nat) : Bool :=
  (Reg.fields r).any fun f => decide (f.ty = .rwh) && decide (lo < f.lo + f.width) && decide (f.lo < lo + n)

/-- A direct write of bits [lo + n - 1 : lo] of a register.  [DEDUCED, log 106] -/
def State.writeReg (s : State) (r : Reg) (ix : Ix) (lo n v : Nat) : State :=
  let s := (Reg.fields r).foldl (fun s f => s.writeField r ix f lo n v) s
  if Reg.meetsRwh r lo n then { s with ignored := Map.put s.ignored (r, ix) (Map.getD s.ignored (r, ix) 0 + 1) } else s

/-- What a read of a field returns: 0 of a write-only one, of an RC field the value before the increments of this cycle (R16). -/
def State.peekField (s : State) (f : Fld) (ix : Ix) : FType → Nat
  | .wo => 0
  | .rc => s.before.get f ix
  | _ => s.get f ix

/-- Value a read of the register returns. -/
def State.peekReg (s : State) (r : Reg) (ix : Ix) : Nat :=
  (Reg.fields r).foldl (fun acc f => acc + s.peekField ⟨r, f.lo, f.width⟩ ix f.ty * 2 ^ f.lo) 0

/-- A read takes what an RC field held before this cycle's increments, which stay in the field (R16). -/
def State.takeRc (s : State) (f : Fld) (ix : Ix) : State :=
  { (s.set f ix (s.get f ix - s.before.get f ix)) with cycleRegs := s.cycleRegs.map fun m => Map.put m (fkey f ix) 0 }

/-- Clear the RC fields whose last bit a read of bits [lo + n - 1 : lo] takes (R14). -/
def State.clearRc (s : State) (r : Reg) (ix : Ix) (lo n : Nat) : State :=
  ((Reg.fields r).filter fun f => decide (f.ty = .rc) && decide (lo < f.lo + f.width) && decide (f.lo + f.width ≤ lo + n)).foldl
    (fun s f => s.takeRc ⟨r, f.lo, f.width⟩ ix) s

/-! ## Fabric addresses and memory (R11) -/

/-- Address in spaces 0, 1, 3 and 4. -/
def fab (space die clu core ofs : Nat) : Nat :=
  space * 2 ^ 44 + die * 2 ^ 39 + clu * 2 ^ 32 + core * 2 ^ 30 + ofs

/-- Address in space 2. -/
def fabStack (die ofs : Nat) : Nat := 2 * 2 ^ 44 + die * 2 ^ 39 + ofs

/-- Address in a core's scratchpad (R11). -/
def spadAddr (c : CoreId) (ofs : Nat) : Nat := fab 0 c.die c.clu c.core ofs
/-- Address in a cluster's shared buffer (R11). -/
def sbufAddr (c : CluId) (ofs : Nat) : Nat := fab 1 c.die c.clu 0 ofs
/-- Address of a row of an array (R86). -/
def planeAddr (a : ArrId) (row : Nat) : Nat := fab 4 a.die a.clu a.core (a.arr * 8192 + row * 32)

/-- Bytes of core scratchpad, shared buffer, die stack and core weight planes (R178). -/
def spaceSize : Nat → Nat
  | 0 => 0x40000
  | 1 => 0x80000
  | 2 => 0x800000000
  | _ => 0x80000

/-- Bytes of memory. -/
def State.bytes (s : State) (a n : Nat) : List Byte := Memory.readN s.mem a n

/-- Word `w` (address ÷ 8) holds an uncorrectable error (R265). -/
def State.ueWord (s : State) (w : Nat) : Bool := Map.getD s.upsets w false

/-- Words of [a, a + n). -/
def wordsOf (a n : Nat) : List Nat := if n = 0 then [] else (List.range ((a + n - 1) / 8 - a / 8 + 1)).map (· + a / 8)

/-- The first uncorrectable word of a range. -/
def State.ueIn (s : State) (a n : Nat) : Option Nat :=
  if s.upsets.isEmpty then none else (wordsOf a n).find? s.ueWord

/-- A word of a range is covered wholly by it. -/
def coversWord (a n w : Nat) : Bool := decide (a ≤ 8 * w) && decide (8 * w + 8 ≤ a + n)

/-- Write bytes.  A whole word ends an error in it; a part of an uncorrectable word is not written (R265). -/
def State.store (s : State) (a : Nat) (bs : List Byte) : State :=
  if s.upsets.isEmpty then { s with mem := Memory.writeList s.mem a bs }
  else
    let n := bs.length
    let mem := bs.zipIdx.foldl (fun m p =>
      let w := (a + p.2) / 8
      if s.ueWord w && !coversWord a n w then m else Memory.write m (a + p.2) p.1) s.mem
    { s with mem := mem, upsets := s.upsets.filter fun u => !coversWord a n u.1
             writebacks := s.writebacks.filter fun w => !coversWord a n w }

/-- Words of a list with a single-bit error: each is counted, and queued for write-back unless it is already (R265). -/
def State.correctWords (s : State) (ecc : Fld) (ix : Ix) (l : List Nat) : State :=
  if s.upsets.isEmpty then s
  else
    let ws := l.filter fun w => decide (Map.find s.upsets w = some false)
    let s := s.inc ecc ix ws.length
    { s with writebacks := s.writebacks ++ ws.filter fun w => !s.writebacks.contains w }

/-- A read corrects single-bit errors in its words (R265). -/
def State.correctIn (s : State) (ecc : Fld) (ix : Ix) (a n : Nat) : State := s.correctWords ecc ix (wordsOf a n)

/-- A write merges with the words it covers in part, and so reads and corrects them (R265). -/
def State.correctMerged (s : State) (ecc : Fld) (ix : Ix) (a n : Nat) : State :=
  s.correctWords ecc ix ((wordsOf a n).filter fun w => !coversWord a n w)

/-- Marks of the 256 B line that holds an address. -/
def State.mark (s : State) (a : Nat) : LineMark := Map.getD s.marks (a / 256) {}

/-- Keep the map free of entries that say nothing. -/
def State.setMark (s : State) (a : Nat) (m : LineMark) : State :=
  { s with marks := if m = {} then Map.del s.marks (a / 256) else Map.put s.marks (a / 256) m }

/-- One more outstanding write of a line (R201). -/
def State.pendLine (s : State) (a : Nat) : State := s.setMark a { s.mark a with pend := (s.mark a).pend + 1 }

/-- One outstanding write of a line less (R201). -/
def State.unpendLine (s : State) (a : Nat) : State := s.setMark a { s.mark a with pend := (s.mark a).pend - 1 }

/-- A write of a line replaces its SAT, ERR and LATE marks by those its data carry (R201, R263). -/
def State.markWritten (s : State) (a : Nat) (sat err late : Bool) : State :=
  s.setMark a { s.mark a with sat := sat, err := err, late := late }

/-- The bank of a scratchpad line: bits [10:8] of its offset (R200). -/
def bankOf (ofs : Nat) : Nat := ofs / 256 % 8

/-- The wheel position bank k is in during a cycle (R259): 0 VA, 1 AR, 2 TI, 3 AW, 4 RW, 5 TO, 6 MT, 7 VB. -/
def wheelPos (bank cycle : Nat) : Nat := (cycle + 8 - bank % 8) % 8

/-- First cycle at or after `t` in which a bank is in a position. -/
def nextSlot (bank pos t : Nat) : Nat := t + (pos + 16 - (t % 8 + 8 - bank % 8) % 8) % 8

/-- The wheels of a die's scratchpads turn: no tenant clear of them is under way (R284). -/
def State.wheelRuns (s : State) (die : Nat) : Bool := (Map.find s.spadClear die).all fun t => decide (t ≤ s.now)

/-! ## Units -/

/-- A core. -/
def State.core (s : State) (c : CoreId) : Core := Map.getD s.cores c {}
/-- Replace a core. -/
def State.setCore (s : State) (c : CoreId) (k : Core) : State := { s with cores := Map.put s.cores c k }
/-- An array engine. -/
def State.engine (s : State) (a : ArrId) : Engine := Map.getD s.engines a {}
/-- Replace an array engine. -/
def State.setEngine (s : State) (a : ArrId) (e : Engine) : State := { s with engines := Map.put s.engines a e }

/-- The partition that holds a die (R320), if one does. -/
def State.partOf (s : State) (die : Nat) : Option Nat :=
  (List.range 8).find? fun p => (s.get F.hrnPart.dies (Ix.mod p)).testBit die

/-- The dies of a partition, lowest first. -/
def State.diesOf (s : State) (p : Nat) : List Nat :=
  (List.range 24).filter fun d => (s.get F.hrnPart.dies (Ix.mod p)).testBit d

/-- Dies the grade populates (R2): below the die count in the identity area, all 24 before it is loaded. -/
def State.dieCount (s : State) : Nat :=
  let g := s.get F.nirIdInfo.grade (Ix.mod)
  if g = 0 then 24 else g

/-- Count an access that ended with an address fault at the unit that issued it (R12). -/
def State.countFault (s : State) (die : Nat) : State := { s with addrFaults := Map.put s.addrFaults die (Map.getD s.addrFaults die 0 + 1) }

/-! ## Events (R505, R506) -/

/-- Draw numbers for free values. -/
def State.takeDraws (s : State) (n : Nat) : State := { s with draws := s.draws + n }

/-- Bits of PMBus STATUS_WORD that an event sets: INPUT for SUPPLY but its restoration, TEMPERATURE for THERMAL and COOLANT, OUTPUT
POWER for BILLET. -/
def pmBits (code : Nat) (payload : List (Nat × Nat)) : Nat :=
  if code = 0x0053 ∧ (payload[1]?).map (fun e => e.1) ≠ some 2 then 2 ^ 13
  else if code = 0x0060 ∨ code = 0x0061 then 2 ^ 2
  else if code = 0x0050 then 2 ^ 14
  else 0

/-- Issue an event: the console prints it; Nirdo holds it in a buffer of 1,024 or drops and counts it (R506).  ISSUE is 0 before the
end of K1. -/
def State.emit (s : State) (code severity die : Nat) (part : Option Nat) (payload : List (Nat × Nat)) : State :=
  let ev : Event := { code, severity, die, part, seq := s.eventSeq, issue := if s.running then s.stitch else 0, payload }
  let s := { s with eventSeq := (s.eventSeq + 1) % 2 ^ 32, out := s.out ++ [Output.console ev]
                    net := { s.net with pmStatus := s.net.pmStatus ||| pmBits code payload } }
  if 1024 ≤ s.events.length then
    { (s.inc F.nirEvqCnt.lost (Ix.mod)) with eventLost := true }
  else
    let ev := { ev with loss := s.eventLost }
    let s := { s with events := s.events ++ [ev], eventLost := false }
    s.set F.nirEvqCnt.held (Ix.mod) s.events.length

/-- Something leaves the block. -/
def State.send (s : State) (o : Output) : State := { s with out := s.out ++ [o] }

/-- Apply an update for each element of a list, in order. -/
def forAll {α : Type} (xs : List α) (f : α → State → State) (s : State) : State :=
  xs.foldl (fun s x => f x s) s

/-- The outcome of a meaning that always completes. -/
def done (s : State) : Host.Outcome State Fault Refusal := .next s

end Sys2Proof.Machine
end

