-- ==== Sys2Proof/Machine/Check.lean ====
section
/-!
DEFINITION. Check values (R402): the four polynomials of Table 12.4.
-/

namespace Sys2Proof.Machine
open Sys2Proof

/-- A row of Table 12.4. -/
structure Poly where
  width : Nat
  poly : Nat
  init : Nat
  refin : Bool
  xorout : Nat
  deriving DecidableEq, Repr

/-- The polynomial of a code (Table 12.4). -/
def polyOf : Nat → Poly
  | 0 => ⟨32, 0x1EDC6F41, 0xFFFFFFFF, true, 0xFFFFFFFF⟩
  | 1 => ⟨32, 0x04C11DB7, 0xFFFFFFFF, true, 0xFFFFFFFF⟩
  | 2 => ⟨16, 0x1021, 0xFFFF, false, 0⟩
  | _ => ⟨64, 0x42F0E1EBA9EA3693, 0, false, 0⟩

/-- The `n` low bits of `v` in reverse order. -/
def reflectBits : Nat → Nat → Nat
  | 0, _ => 0
  | n + 1, v => (v % 2) * 2 ^ n + reflectBits n (v / 2)

/-- One bit through a reflected register (R402). -/
def chkShiftRef (poly : Nat) : Nat → Nat → Nat
  | 0, reg => reg
  | n + 1, reg => chkShiftRef poly n ((reg / 2) ^^^ (if reg % 2 = 1 then poly else 0))

/-- One bit through a register (R402). -/
def chkShift (w poly : Nat) : Nat → Nat → Nat
  | 0, reg => reg
  | n + 1, reg => chkShift w poly n ((reg * 2 % 2 ^ w) ^^^ (if reg.testBit (w - 1) then poly else 0))

/-- One byte into the register. -/
def chkByte (p : Poly) (reg : Nat) (b : Byte) : Nat :=
  if p.refin then chkShiftRef (reflectBits p.width p.poly) 8 (reg ^^^ b.toNat)
  else chkShift p.width p.poly 8 (reg ^^^ (b.toNat * 2 ^ (p.width - 8)))

/-- Bytes through a register, in order (R402). -/
def chkBytes (p : Poly) (reg : Nat) (bs : List Byte) : Nat := bs.foldl (chkByte p) reg

/-- The check value of a register (R402). -/
def chkFinal (p : Poly) (reg : Nat) : Nat := reg ^^^ p.xorout

/-- The 32 B trailer of an appended check value (R403). -/
def chkTrailer (p : Poly) (reg : Nat) : List Byte := natToBytes 32 (chkFinal p reg)

end Sys2Proof.Machine
end

