-- ==== Sys2Proof/Machine/ArrayMath.lean ====
section
/-!
DEFINITION. What an array engine computes (chapter 02): weight formats, converters, recombination, result lines; and the
converter deviations of chapter 03, which are free values inside the stated bounds.
-/

namespace Sys2Proof.Machine
open Sys2Proof

/-- Weight columns of an array (Table 02.1). -/
def QFmt.cols : QFmt → Nat
  | .q8 => 32 | .q4 => 64 | .q3 => 85 | .q2 => 128

/-- Column or plane weight of bit b of an n-bit two's-complement value (Tables 02.1 and 02.2). -/
def bitWeight (f : QFmt) (b : Nat) : Int := if b + 1 = f.bits then -(2 ^ b) else 2 ^ b

/-- Converter mode. -/
inductive ConvMode where
  | exact | wide
  deriving DecidableEq, Repr

/-- The bit with which plane p drives a row: bit p of the element; a Q2 skip code drives 0 (R63). -/
def planeBit (f : QFmt) (code p : Nat) : Bool :=
  if f = .q2 && code % 4 == 2 then false else code.testBit p

/-- Result element width in bytes: sint16 unless the Table 02.4 condition asks for sint32 (R71). -/
def eltBytes (act wt : QFmt) (m : ConvMode) : Nat :=
  if act ≠ .q8 ∧ wt ≠ .q8 then 2
  else if m = .exact ∧ ((act = .q8 ∧ wt = .q2) ∨ (act = .q2 ∧ wt = .q8)) then 2
  else 4

/-- Row windows of a mode: two in exact mode, one in wide mode (R66, R70). -/
def modeWindows : ConvMode → Nat
  | .exact => 2
  | .wide => 1

/-- Lines of a result (Table 02.5). -/
def resultLines (act wt : QFmt) (m : ConvMode) : Nat :=
  (modeWindows m * wt.cols * eltBytes act wt m + 255) / 256

/-- Evaluations of an operation: planes times windows (R74). -/
def opEvals (act : QFmt) (m : ConvMode) : Nat := act.bits * modeWindows m

/-- Re-issue interval in cycles (Table 02.6). -/
def opInterval (act : QFmt) (m : ConvMode) : Nat := 16 * opEvals act m

/-- Rows of a window. -/
def windowRows (m : ConvMode) (w : Nat) : List Nat :=
  match m with
  | .exact => (List.range 128).map (· + 128 * w)
  | .wide => List.range 256

/-- Weight cells of an array: each row as a 256-bit number. -/
def State.cellRow (s : State) (a : ArrId) (row : Nat) : Nat := bytesToNat (s.bytes (planeAddr a row) 32)

/-- Weight format of an array (Table 02.1). -/
def State.wfmt (s : State) (a : ArrId) : QFmt := QFmt.ofCode (s.get F.arrCfg.wfmt a.ix)

/-- The number of an array in the module, as the key of its free values. -/
def arrNum (a : ArrId) : Nat := ((a.die.val * 128 + a.clu.val) * 4 + a.core.val) * 64 + a.arr.val

/-! ## Converters (R99, R102) -/

/-- A number held between two bounds. -/
def clampRat (lo hi x : Rat) : Rat := if x < lo then lo else if hi < x then hi else x

/-- Temperature in °C of a code of 0.25 °C from -40 °C. -/
def tempOf (t : Nat) : Rat := (t : Rat) / 4 - 40

/-- Distance of a temperature from 25 °C. -/
def fromRoom (t : Nat) : Rat := if tempOf t < 25 then 25 - tempOf t else tempOf t - 25

/-- Equivalent hours of an array. -/
def State.ageHours (s : State) (a : ArrId) : Rat := (s.engine a).ageSixteenths / 16

/-- A departure of a converter as a fraction of its stated amount, between -1 and 1. -/
def State.drift (s : State) (a : ArrId) (n src t : Nat) : Rat :=
  clampRat (-1) 1 (Config.convDrift (arrNum a * 32 + n) src t (s.engine a).ageSixteenths)

/-- The part of age in a departure: up to the first amount to 10,000 hours, up to the second to 40,000; past that no amount is stated. -/
def State.ageDrift (s : State) (a : ArrId) (n src t : Nat) (to10 to40 : Rat) : Rat :=
  let f := Config.convDrift (arrNum a * 32 + n) src t (s.engine a).ageSixteenths
  if s.ageHours a ≤ 10000 then to10 * clampRat 0 1 f else if s.ageHours a ≤ 40000 then to40 * clampRat 0 1 f else to40 * f

/-- Gain departure g of converter n, as a fraction (Table 03.1). -/
def State.convGain (s : State) (a : ArrId) (n t : Nat) : Rat :=
  5 / 1000 * s.drift a n 0 t + 8 / 100000 * fromRoom t * s.drift a n 1 t - s.ageDrift a n 2 t (25 / 10000) (80 / 10000)

/-- Offset departure o of converter n, in LSB (Table 03.1). -/
def State.convOffset (s : State) (a : ArrId) (n t : Nat) : Rat :=
  3 / 2 * s.drift a n 3 t + 5 / 1000 * fromRoom t * s.drift a n 4 t + s.ageDrift a n 5 t (4 / 10) (12 / 10)

/-- Mismatch of bit-column bc within its converter's eight, in LSB (Table 03.1). -/
def State.colMismatch (s : State) (a : ArrId) (bc t : Nat) : Rat :=
  let m : Rat := if s.ageHours a = 0 then 2 / 100 else if s.ageHours a ≤ 10000 then 4 / 100 else 8 / 100
  m * s.drift a (bc / 8) (8 + bc % 8) t

/-- The column value the untrimmed converter sees (R102). -/
def State.columnValue (s : State) (a : ArrId) (bc t : Nat) (count : Rat) : Rat :=
  count * (1 + s.convGain a (bc / 8) t) + s.convOffset a (bc / 8) t + s.colMismatch a bc t

/-- What trims of OFFS and GAIN steps make of a column value (R102). -/
def trimmed (offs gain : Int) (v : Rat) : Rat := v * (1 + (gain : Rat) * (125 / 100000)) + (offs : Rat) / 8

/-- The trims of a converter, as signed steps. -/
def State.trims (s : State) (a : ArrId) (n : Nat) : Int × Int :=
  let sg := fun (w v : Nat) => if v < 2 ^ (w - 1) then (v : Int) else (v : Int) - 2 ^ w
  (sg 6 (s.get F.arrTrim.offs (a.ix n)), sg 5 (s.get F.arrTrim.gain (a.ix n)))

/-- The value one conversion of bit-column bc resolves, with trims as given. -/
def State.convReal (s : State) (a : ArrId) (tr : Int × Int) (bc t draw : Nat) (count : Rat) : Rat :=
  trimmed tr.1 tr.2 (s.columnValue a bc t count) + Config.convNoise (arrNum a * 256 + bc) draw

/-- The code of a value, and whether the over-range comparator fired (R66): exact mode to the nearest row, up to 128 and beyond from half
a row above; wide mode in steps of two rows. -/
def codeOf (m : ConvMode) (x : Rat) : Nat × Bool :=
  match m with
  | .exact => if 257 / 2 < x then (127, true) else (min (x + 1 / 2).floor.toNat 128, false)
  | .wide => if 257 < x then (127, true) else (min ((x + 1) / 2).floor.toNat 128, false)

/-! ## Bounds of a conversion (R117-R120) -/

/-- What is stated of a conversion: nothing; the bound of one; or the bound, and that only one of the few it takes at a rate of
Table 03.4 departs at all. -/
inductive ConvBound where
  | free
  | one
  | rate (miss : Bool)
  deriving DecidableEq, Repr

/-- Exponents of Table 03.4: the row of the next higher band and age. -/
def rateExp (t : Nat) (hours : Rat) : Nat :=
  let band := if t ≤ 260 then 0 else if t ≤ 380 then 1 else if t ≤ 500 then 2 else 3
  let row := if hours = 0 then [30, 24, 19, 14] else if hours ≤ 10000 then [24, 19, 15, 11] else [16, 12, 10, 7]
  row.getD band 0

/-- The conditions of R119 for one array, but for the operation's SAT mark. -/
def State.equalityHolds (s : State) (a : ArrId) (t : Nat) : Bool :=
  s.bit F.coreCalrecStat.valid a.ix && !s.bit F.coreCalrecStat.stale a.ix && !s.bit F.coreCalrecStat.lag a.ix &&
    decide (t ≤ 500) && decide (s.ageHours a ≤ 10000) && decide (s.get F.coreCalrecStat.miss_run a.ix = 0)

/-- Both temperature sensors of a cluster are excluded (R113).  [DEDUCED, log 96] -/
def State.cluBlind (s : State) (c : CluId) : Bool :=
  decide (s.get F.stwThmCt.a (Ix.stw c.die c.clu) ≠ 0) && decide (s.get F.stwThmCt.b (Ix.stw c.die c.clu) ≠ 0)

/-- Temperature code of a cluster as last delivered (R111). -/
def State.cluTemp (s : State) (c : CluId) : Nat := s.get F.stwThmCt.t (Ix.stw c.die c.clu)

/-- What is stated of a conversion of bit-column bc of an array (R117-R119; temperatures in 0.25 °C). -/
def State.convBound (s : State) (a : ArrId) (bc draw : Nat) : ConvBound :=
  let t := s.cluTemp a.coreId.cluId
  let tc := s.get F.coreCalrecTemp.t_cal a.ix
  let key := arrNum a * 256 + bc
  if s.cluBlind a.coreId.cluId ∨ 48 < max t tc - min t tc then .free
  else if s.equalityHolds a t then .rate (Config.convErr (max 15 (rateExp t (s.ageHours a))) key draw)
  else if s.bit F.coreCalrecStat.stale a.ix ∨ s.bit F.coreCalrecStat.lag a.ix ∨ 580 < t ∨ 40000 < s.ageHours a then .one
  else .rate (Config.convErr (rateExp t (s.ageHours a)) key draw)

/-- One conversion of a count (R66, R117-R120): the code in rows and whether it clipped.  What the trimmed converter makes of the count,
held to what is stated; in wide mode 2 × code is the count where that is even and one beside it where it is odd.  [DEDUCED, log 69] -/
def convertCount (count : Nat) (m : ConvMode) (x : Rat) (b : ConvBound) : Nat × Bool :=
  match m with
  | .exact =>
    if 128 < count then (127, true)
    else match b with
      | .free => codeOf .exact x
      | .rate false => (count, false)
      | _ =>
        let v := max (count - 1) (min (count + 1) (x + 1 / 2).floor.toNat)
        if 128 < v then (127, true) else (v, false)
  | .wide =>
    match b with
    | .free => let q := codeOf .wide x; (2 * q.1, q.2)
    | _ => if count % 2 = 0 then (count, false) else if x < count then (count - 1, false) else (count + 1, false)

/-- A latch element code. -/
def Latch.code (l : Latch) (i : Nat) : Nat := l.elts.getD i 0

/-- Rows driven in a window: those whose latch half carries no zero mark (R83). -/
def drivenRows (l : Latch) (m : ConvMode) (w : Nat) : List Nat :=
  (windowRows m w).filter fun i => if i < 128 then !l.zero0 else !l.zero1

/-- One evaluation's conversions: (bit-column, code, clipped) for every bit-column; skipped when no row can be driven. -/
def evalWindow (s : State) (a : ArrId) (l : Latch) (m : ConvMode) (w p k : Nat) : List (Nat × Nat × Bool) :=
  let rows := drivenRows l m w
  if rows.isEmpty then []
  else
    let on := (rows.filter fun i => planeBit (QFmt.ofCode l.fmt) (l.code i) p).map fun i => s.cellRow a i
    (List.range 256).map fun bc =>
      let count := (on.filter fun r => r.testBit bc).length
      let x := s.convReal a (s.trims a (bc / 8)) bc (s.cluTemp a.coreId.cluId) (s.draws + k) count
      let v := convertCount count m x (s.convBound a bc (s.draws + k))
      (bc, v.1, v.2)

/-- The accumulated result of weight column j in a window, and the clipped conversions of the operation's window (R70). -/
structure WindowResult where
  acc : List Int
  clips : Nat
  deriving DecidableEq, Repr

/-- The result of one window over the evaluations of an operation (R66). -/
def windowResult (s : State) (a : ArrId) (l : Latch) (m : ConvMode) (w : Nat) : WindowResult :=
  let wf := s.wfmt a
  let act := QFmt.ofCode l.fmt
  let evs := (List.range act.bits).map fun p => (p, evalWindow s a l m w p (p * modeWindows m + w))
  { acc := (List.range wf.cols).map fun j =>
      evs.foldl (fun t e => e.2.foldl (fun t c =>
        if c.1 / wf.bits = j then t + bitWeight act e.1 * bitWeight wf (c.1 % wf.bits) * (c.2.1 : Int) else t) t) 0
    clips := evs.foldl (fun t e => t + (e.2.filter fun c => c.2.2).length) 0 }

/-- Little-endian bytes of the elements, padded with 0 to whole lines (R72). -/
def packResult (eb n : Nat) (acc : List Int) : List Byte :=
  let bs := acc.flatMap fun v => natToBytes eb (lowBits (8 * eb) v)
  bs ++ List.replicate (256 * n - bs.length) 0

/-- Cut a byte string into 256 B lines. -/
def cutLines : Nat → List Byte → List (List Byte)
  | 0, _ => []
  | n + 1, bs => bs.take 256 :: cutLines n (bs.drop 256)

/-- The lines of an operation on one array and its clipped conversions (R70, R72). -/
def arrayResult (s : State) (a : ArrId) (l : Latch) (m : ConvMode) : List (List Byte) × Nat :=
  let ws := (List.range (modeWindows m)).map fun w => windowResult s a l m w
  let act := QFmt.ofCode l.fmt
  let n := resultLines act (s.wfmt a) m
  (cutLines n (packResult (eltBytes act (s.wfmt a) m) n (ws.flatMap fun r => r.acc)),
   ws.foldl (fun t r => t + r.clips) 0)

end Sys2Proof.Machine
end

