-- ==== Sys2Proof/Machine/Guard.lean ====
section
/-!
DEFINITION. The schedule guard (chapter 05): fault records, the halt line, bounds, marks and power credits.
-/

namespace Sys2Proof.Machine
open Sys2Proof

/-- A schedule fault: its code and DETAIL (Table 05.8), and the address of the uncorrectable word it met, if any (R265). -/
structure SFault where
  code : Nat
  detail : Nat
  ue : Option Nat := none
  deriving DecidableEq, Repr

/-- What a slot instruction does: issues, or raises a fault and does not issue (R187). -/
abbrev SlotRes := Except SFault State

/-- Schedule fault codes (Table 05.8). -/
def sNotReady : Nat := 0x01
def sSlotOwner : Nat := 0x02
def sBound : Nat := 0x03
def sWindow : Nat := 0x04
def sCredit : Nat := 0x05
def sPeak : Nat := 0x06
def sArrayBusy : Nat := 0x07
def sLatch : Nat := 0x08
def sResultFull : Nat := 0x09
def sCalOverlap : Nat := 0x0A
def sUncalibrated : Nat := 0x0B
def sStitchLate : Nat := 0x0C
def sSyncTimeout : Nat := 0x0D
def sWriteConflict : Nat := 0x0E
def sIllegal : Nat := 0x0F
def sLoop : Nat := 0x10
def sPcRange : Nat := 0x11
def sUnanchored : Nat := 0x12

/-- Raise a fault unless the condition holds. -/
def need (c : Bool) (code detail : Nat) (k : SlotRes) : SlotRes := if c then k else .error { code, detail }

/-! ## Records and the halt line (R189-R192) -/

/-- Order of faults: cycle, die, cluster, core (R192). -/
def FaultKey.lt (a b : FaultKey) : Bool :=
  decide (a.cycle < b.cycle) || (decide (a.cycle = b.cycle) &&
    (decide (a.die < b.die) || (decide (a.die = b.die) &&
      (decide (a.clu < b.clu) || (decide (a.clu = b.clu) && decide (a.core < b.core))))))

/-- Instance of a fault's core. -/
def coreAt (k : FaultKey) : Ix := ⟨k.die, k.clu, k.core, 0, 0⟩

/-- Assert a partition's halt line for a fault: the earliest fault is the first, every other is secondary (R190, R192). -/
def State.assertHalt (s : State) (p : Nat) (k : FaultKey) (byCore : Bool) : State :=
  match Map.find s.halts p with
  | none =>
    { s with halts := Map.put s.halts p { first := k, byCore := byCore, sf := s.stitch, haltAt := s.stitch + 3 } }
  | some h =>
    if k.lt h.first && byCore && h.byCore then
      let s := s.set F.coreSfltRec.secondary (coreAt h.first) 1
      { s with halts := Map.put s.halts p { h with first := k, secondary := h.secondary + 1 } }
    else
      let s := if byCore then s.set F.coreSfltRec.secondary (coreAt k) 1 else s
      { s with halts := Map.put s.halts p { h with secondary := h.secondary + 1 } }

/-- Record a core's fault (R189): the first in CORE.SFLT, later ones in MORE; the first stops the core from the next stitch
and asserts the halt line in the same cycle (R190). -/
def State.schedFault (s : State) (c : CoreId) (src bundle : Nat) (f : SFault) : State :=
  let ix := c.ix
  let s := match f.ue with
    | none => s
    | some w => ((s.inc F.coreSpadEcc.ue ix).sets ix [(F.coreSpadUeaddr.line, 8 * w % 2 ^ 30 / 256),
        (F.coreSpadUeaddr.word, w % 32)]).raise F.coreSpadUeaddr.valid ix
  if s.bit F.coreSfltRec.valid ix then s.inc F.coreSfltCnt.more ix
  else
    let s := s.sets ix [(F.coreSfltRec.valid, 1), (F.coreSfltRec.code, f.code), (F.coreSfltRec.src, src),
      (F.coreSfltRec.bundle, bundle), (F.coreSfltRec.detail, f.detail), (F.coreSfltRec.secondary, 0),
      (F.coreSfltCycle.cc, s.now - 16 * s.get F.coreSeqLaunch.stitch ix), (F.coreSfltStitch.stitch, s.stitch)]
    let s := s.inc F.stwSchedCnt.faults (Ix.stw c.die)
    let s := s.setCore c { s.core c with stopAt := some (16 * (s.stitch + 1)) }
    match s.partOf c.die with
    | none => s
    | some p => s.assertHalt p ⟨s.now, c.die, c.clu, c.core⟩ true

/-- Sequencer states (Table 05.7). -/
def qIdle : Nat := 0
/-- WAIT_LAUNCH (Table 05.7). -/
def qWaitLaunch : Nat := 1
def qRun : Nat := 2
def qWaitStitch : Nat := 3
def qWaitSync : Nat := 4
def qDone : Nat := 5
def qHalted : Nat := 6

/-- The core's die has its clock, and neither the core's own fault nor a halt has stopped it. -/
def State.notStopped (s : State) (c : CoreId) : Bool :=
  !s.dieDark c.die &&
  match (s.core c).stopAt with
  | none => true
  | some t => decide (s.now < t)

/-- The core may issue in this cycle: its task runs and nothing has stopped it. -/
def State.issuing (s : State) (c : CoreId) : Bool := decide (s.get F.coreSeqTask.state c.ix = qRun) && s.notStopped c

/-- Outcome of one slot on the state: the issued state, or the fault recorded with the slot as its source. -/
def slotDone (c : CoreId) (src : Nat) (s : State) (r : SlotRes) : State :=
  match r with
  | .ok s' => s'
  | .error f => s.schedFault c src (s.get F.coreSeqPc.pc c.ix) f

/-! ## Base and bound (R177, R178) -/

/-- Physical offset of `n` bytes at task offset `o` of local space k, or BOUND, by the registers as the cycle found them (R188, R262). -/
def State.located (s : State) (c : CoreId) (k o n : Nat) : Except SFault Nat :=
  let s := s.before
  if s.get F.coreSeqBound.bound (c.ix k) < o + n then .error { code := sBound, detail := k }
  else .ok (s.get F.coreSeqBase.base (c.ix k) + o)

/-- NOT_READY on a read of a line that is pending, carries ERR, covers an uncorrectable word, or holds late stack data
(R201, R265). -/
def State.lineFault (s : State) (addr n : Nat) : Option SFault :=
  let m := s.mark addr
  let b := bankOf addr
  if 0 < m.pend then some ⟨sNotReady, b, none⟩
  else if m.err then some ⟨sNotReady, b + 8, none⟩
  else match s.ueIn addr n with
    | some w => some ⟨sNotReady, b + 8, some w⟩
    | none => if m.late then some ⟨sNotReady, b + 16, none⟩ else none

/-! ## Power credits (R180-R185) -/

/-- Activation stitch of the harness in force on a die. -/
def State.actStitch (s : State) (die : Nat) : Nat :=
  match s.partOf die with
  | none => 0
  | some p => s.get F.hrnActAt.stitch (Ix.mod p)

/-- Budget-table entry of a window (R182). -/
def State.creditEntry (s : State) (c : CoreId) (w : Nat) : Nat :=
  let wAct := (s.actStitch c.die + 255) / 256
  if w < wAct then 0 else (w - wAct) % (s.get F.coreCredCfg.len_m1 c.ix + 1)

/-- Arrays charged for a stitch. -/
def Core.charged (k : Core) (st : Nat) : Nat := Map.getD k.charges st 0

/-- Credits charged to a window. -/
def Core.windowUse (k : Core) (w : Nat) : Nat :=
  k.charges.foldl (fun t p => if p.1 / 256 = w then t + p.2 else t) 0

/-- Largest array count charged for one stitch of a window. -/
def Core.windowPeak (k : Core) (w : Nat) : Nat :=
  k.charges.foldl (fun t p => if p.1 / 256 = w then max t p.2 else t) 0

/-- Charge `n` arrays for `len` stitches from `st`. -/
def Core.charge (k : Core) (st n : Nat) : Nat → Core
  | 0 => k
  | len + 1 => Core.charge { k with charges := Map.put k.charges st (k.charged st + n) } (st + 1) n len

/-- Stitches of [st, st + len) in window w. -/
def overlapWindow (st len w : Nat) : Nat := min (st + len) (256 * (w + 1)) - max st (256 * w)

/-- A budget entry while the cap is enforced: ⌊entry × CAP ÷ DECL⌋, or the declared entry (R185). -/
def capped (entry cap decl : Nat) (enf : Bool) : Nat := if enf then entry * cap / max 1 decl else entry

/-- Budget of a window: the entry in force, or what the last change of the region cap that is due by then will make of it (R185).
[DEDUCED, log 93] -/
def State.budgetOf (s : State) (c : CoreId) (w : Nat) : Nat :=
  let ix := c.ix (s.creditEntry c w)
  match ((Map.getD s.capDue c.cluId []).filter fun d => decide (d.win ≤ w)).getLast? with
  | none => s.get F.coreCredEff.budget ix
  | some d => capped (s.get F.coreCredTab.budget ix) d.cap (s.get F.cluCredCap.decl c.cluId.ix) d.enf

/-- The guard's credit check of a charge (R183): CREDIT with the window's offset, else PEAK with the stitch's offset.  A harness that takes
effect in this cycle does not count yet (R188). -/
def State.creditFault (s : State) (c : CoreId) (n len : Nat) : Option SFault :=
  let s := s.before
  let k := s.core c
  let w0 := s.stitch / 256
  let past := (List.range ((s.stitch + len - 1) / 256 - w0 + 1)).find? fun i =>
    decide (s.budgetOf c (w0 + i) <
      k.windowUse (w0 + i) + n * overlapWindow s.stitch len (w0 + i))
  match past with
  | some i => some { code := sCredit, detail := i % 256 }
  | none =>
    match (List.range len).find? fun i => decide (s.get F.coreCredCfg.peak c.ix < k.charged (s.stitch + i) + n) with
    | some i => some { code := sPeak, detail := i % 256 }
    | none => none

/-- Make a charge and show it in CORE.CRED.USE (R183). -/
def State.chargeCredits (s : State) (c : CoreId) (n len : Nat) : State :=
  let k := (s.core c).charge s.stitch n len
  let s := s.setCore c k
  let w := s.stitch / 256
  (s.set F.coreCredUse.used c.ix (min (k.windowUse w) (2 ^ 15 - 1))).set F.coreCredUse.peak_seen c.ix (k.windowPeak w)

/-! ## Results in flight (R199) -/

/-- Of the due results for a destination, the value of the latest. -/
def latestDue {α : Type} (now : Nat) (sel : ResultDest → Option α) : List PendingResult → Option (Nat × α) → Option (Nat × α)
  | [], acc => acc
  | r :: rs, acc =>
    match sel r.dest with
    | none => latestDue now sel rs acc
    | some v =>
      if r.due ≤ now then
        match acc with
        | none => latestDue now sel rs (some (r.due, v))
        | some (t, w) => latestDue now sel rs (some (if t ≤ r.due then (r.due, v) else (t, w)))
      else latestDue now sel rs acc

/-- The stitch target i among results in flight. -/
def selSt (i : Nat) : ResultDest → Option Nat
  | .st i' v => if i' = i then some v else none
  | _ => none

/-- Stitch target as read now (R219). -/
def State.stReg (s : State) (c : CoreId) (i : Nat) : Nat :=
  match latestDue s.now (selSt i) (s.core c).results none with
  | some p => p.2
  | none => s.get F.coreSeqSt.stitch (c.ix i)

end Sys2Proof.Machine
end

