-- ==== Sys2Proof/Machine/ArrayIssue.lean ====
section
/-!
DEFINITION. Slot A (R202-R204) and the events of an array operation: its completion, its result lines, latch landing and the
set exchange.
-/

namespace Sys2Proof.Machine
open Sys2Proof

/-! ## Array states (R93) -/

/-- Array states (R93): OFF. -/
def aOff : Nat := 0
def aClearing : Nat := 1
def aIdle : Nat := 2
def aCompute : Nat := 3
def aCal : Nat := 4
def aAccess : Nat := 5
def aRetired : Nat := 6
def aMappedOut : Nat := 7

/-- The state an array is in during this cycle: COMPUTE ends with the last conversion, ACCESS with the access (R93); a clear that waited
for that has begun then (R92). -/
def State.arrState (s : State) (a : ArrId) : Nat :=
  let st := s.get F.arrState.state a.ix
  let e := s.engine a
  if st = aIdle ∨ (st = aCompute ∧ e.convEnd ≤ s.now) ∨ (st = aAccess ∧ e.accessEnd ≤ s.now) then
    if e.clearAfter.isSome then aClearing else aIdle
  else st

/-- A clear of the array is under way or waits: it accepts nothing before its end (R92). -/
def State.awaitsClear (s : State) (a : ArrId) : Bool := (s.engine a).clearEnd.isSome || (s.engine a).clearAfter.isSome

/-- Move an array to a state (R93). -/
def State.setArrState (s : State) (a : ArrId) (st : Nat) : State := s.set F.arrState.state a.ix st

/-- Arrays of a mask, rank order. -/
def maskArrays (mask : Nat) : List (Fin 64) := (List.finRange 64).filter fun a => mask.testBit a.val

/-- Arrays of group g, in rank order (R78). -/
def State.groupArrays (s : State) (c : CoreId) (g : Nat) : List ArrId :=
  (maskArrays (s.get F.coreAgrp.mask (c.ix g))).map c.arr

/-- The set that computes in this cycle: from cc 0 of the exchange stitch on it is the other one, whether or not SET_EXCHANGE has run
(R204). -/
def State.computeSet (s : State) (c : CoreId) : Nat :=
  let v := s.get F.coreArrstat.compute_set c.ix
  if s.bit F.coreArrstat.streaming c.ix ∧ (s.core c).exchange.any (fun t => decide (16 * t ≤ s.now)) then 1 - v else v

/-- The array belongs to the set being loaded (R84): in a streaming harness, the set that does not compute. -/
def State.loading (s : State) (a : ArrId) : Bool :=
  s.bit F.coreArrstat.streaming a.coreId.ix && decide (s.computeSet a.coreId ≠ a.arr.val / 32)

/-- Arrays a calibration entry covers: the enabled arrays of its group (R108). -/
def State.calCovers (s : State) (c : CoreId) (i : Nat) : List ArrId :=
  (s.groupArrays c (s.get F.coreCalSlot.group (c.ix i))).filter fun a => s.bit F.arrCfg.enable a.ix

/-- Whether entry i starts a slot at a stitch (R108). -/
def State.calStarts (s : State) (c : CoreId) (i st : Nat) : Bool :=
  let p := s.get F.coreCalSlot.period (c.ix i)
  let a := s.actStitch c.die
  decide (p ≠ 0) && decide (a ≤ st) && decide ((st - a) % p = s.get F.coreCalSlot.phase (c.ix i))

/-- A slot of the array starts in this cycle (R96, R106). -/
def State.calNow (s : State) (a : ArrId) : Bool :=
  decide (s.cc = 0) && (List.range 8).any fun i => s.calStarts a.coreId i s.stitch && (s.calCovers a.coreId i).any fun b => decide (a = b)

/-- Entry i starts a digest slot at this stitch (R397). -/
def State.digStarts (s : State) (c : CoreId) (i : Nat) : Bool :=
  let p := s.get F.coreWptrDigSlot.period (c.ix i)
  let a := s.actStitch c.die
  decide (p ≠ 0) && decide (a ≤ s.stitch) && decide ((s.stitch - a) % p = s.get F.coreWptrDigSlot.phase (c.ix i))

/-- A digest slot of the array's group starts in this cycle (R397). -/
def State.digNow (s : State) (a : ArrId) : Bool :=
  decide (s.cc = 0) && (List.range 4).any fun i => s.digStarts a.coreId i &&
    (s.groupArrays a.coreId (s.get F.coreWptrDigSlot.group (a.coreId.ix i))).any fun b => decide (a = b)

/-- ARRAY_BUSY reason of an array, 0 for none (R79, Table 05.8).  [DEDUCED, log 83] -/
def State.busyReason (s : State) (m : ConvMode) (a : ArrId) : Nat :=
  let st := s.arrState a
  if s.now < (s.engine a).reissueAt ∨ s.digNow a = true then 1
  else if st = aCal ∨ s.calNow a then 2
  else if s.loading a then 3
  else if !s.bit F.arrCfg.enable a.ix then 4
  else if m = .wide && !s.bit F.arrCfg.wide_ok a.ix then 5
  else if st = aOff ∨ st = aClearing ∨ st = aAccess ∨ s.awaitsClear a then 6
  else 0

/-- Lowest non-zero reason over a group; 0 for none. -/
def lowestReason (rs : List Nat) : Nat := rs.foldl (fun t r => if r = 0 then t else if t = 0 then r else min t r) 0

/-- First calibration entry one of whose slots on an array of the group begins while the operation, issued now, would still
be converting after its cc 3 (R106). -/
def State.calOverlap (s : State) (c : CoreId) (arrs : List ArrId) (interval : Nat) : Option Nat :=
  (List.range 8).find? fun i =>
    (arrs.any fun a => (s.calCovers c i).any fun b => decide (a = b)) &&
    (List.range (interval / 16 + 1)).any fun j =>
      let st := s.stitch + j
      s.calStarts c i st && decide (s.now ≤ 16 * st) && decide (16 * st < s.now + interval)

/-- A calibration entry in use covers an array of the group: at a stitch the core cannot know any such entry may have a slot (R174).
[DESIGN CHOICE, log 194] -/
def State.calReserved (s : State) (c : CoreId) (arrs : List ArrId) : Bool :=
  (List.range 8).any fun i => decide (s.get F.coreCalSlot.period (c.ix i) ≠ 0) &&
    arrs.any fun a => (s.calCovers c i).any fun b => decide (a = b)

/-! ## Result buffers (R81) -/

/-- The write cycle of each line: in order, the first array-result-write slot of its bank that is free, at or after its entry
and after the lines its array's buffer took earlier. -/
def assignLines (now : Nat) : List ResultLine → List (Nat × ResultLine) → List (Nat × ResultLine)
  | [], acc => acc
  | l :: ls, acc =>
    let prev := acc.foldl (fun t p => if p.2.arr = l.arr ∧ p.2.enter < l.enter then max t (p.1 + 1) else t) (max now l.enter)
    let b := l.line % 8
    let first := nextSlot b 3 prev
    let taken := fun t => acc.any fun p => decide (p.1 = t) && decide (p.2.line % 8 = b)
    let t := ((List.range (acc.length + 1)).map fun i => first + 8 * i).find? fun t => !taken t
    assignLines now ls (acc ++ [(t.getD first, l)])

/-- Insert a line in order of entry; lines that enter in one cycle go in the order their operations issued and, within a group, in rank
order.  [DESIGN CHOICE, log 193] -/
def insertLine (l : ResultLine) : List ResultLine → List ResultLine
  | [] => [l]
  | x :: xs => if l.enter < x.enter ∨ (l.enter = x.enter ∧ l.seq < x.seq) then l :: x :: xs else x :: insertLine l xs

/-- Every line of the core not yet written, in order of entry. -/
def Core.allLines (k : Core) : List ResultLine :=
  k.ops.foldl (fun acc o => o.lines.foldl (fun acc l => insertLine l acc) acc) k.lines

/-- A new operation's lines would find an array's buffer of four full when they enter (R81). -/
def Core.resultFull (k : Core) (now : Nat) (new : List ResultLine) : Bool :=
  let plan := assignLines now (new.foldl (fun acc l => insertLine l acc) k.allLines) []
  new.any fun l =>
    decide (4 < (plan.filter fun p => decide (p.2.arr = l.arr) && decide (p.2.enter ≤ l.enter) && decide (l.enter ≤ p.1)).length)

/-! ## AMV and AMVW (R202) -/

/-- Lines before each array of a group, in rank order (R78): (array, O_r, L_a). -/
def groupLines (s : State) (act : QFmt) (m : ConvMode) (arrs : List ArrId) (o : Nat) : List (ArrId × Nat × Nat) :=
  match arrs with
  | [] => []
  | a :: as =>
    let n := resultLines act (s.wfmt a) m
    (a, o, n) :: groupLines s act m as (o + n)

/-- Result lines of a group (R78). -/
def groupTotal (gl : List (ArrId × Nat × Nat)) : Nat := gl.foldl (fun t x => t + x.2.2) 0

/-- A latch load that has not landed before this cycle feeds the latch (R80, R203). -/
def Core.latchLoading (k : Core) (lat now : Nat) : Bool :=
  (k.loads.any fun l => decide (l.lat = lat)) || decide (now < (Map.getD k.latches lat {}).usable)

/-- Bank that the last such load of a latch reads. -/
def Core.loadBank (k : Core) (lat : Nat) : Nat :=
  ((k.loads.filter fun l => decide (l.lat = lat)).getLast?.map fun l => bankOf l.src).getD (Map.getD k.latches lat {}).bank

/-- The operation of one array of the group. -/
def arrayOpOf (s : State) (l : Latch) (m : ConvMode) (base seq : Nat) (x : ArrId × Nat × Nat) : ArrayOp :=
  let a := x.1
  let r := arrayResult s a l m
  let doneAt := s.now + opInterval (QFmt.ofCode l.fmt) m + 8
  let retired := decide (s.arrState a = aRetired)
  { arr := a.arr.val, doneAt := doneAt, clips := r.2
    lines := r.1.zipIdx.map fun q =>
      { enter := doneAt, arr := a.arr.val, line := base / 256 + x.2.1 + q.2, data := q.1,
        sat := decide (r.2 ≠ 0), err := retired, seq := seq + x.2.1 + q.2 } }

/-- Start the operation on one array (R79, R76, R94). -/
def startArray (interval : Nat) (a : ArrId) (s : State) : State :=
  let e := s.engine a
  let spent := if s.arrState a = aRetired then 0 else s.now + interval + 4 - max s.now e.convEnd
  let s := s.setEngine a { e with reissueAt := s.now + interval, convEnd := s.now + interval + 4, wasOn := true
                                  busy := e.busy + spent
                                  hold := if interval / 16 % 2 = 0 then e.hold else !e.hold }
  if s.arrState a = aRetired then s.raise F.arrErr.retired_use a.ix
  else s.setArrState a aCompute

/-- Slot-A array operation: the guard's checks in code order, then the start on every array of the group. -/
def issueArrayOp (m : ConvMode) (c : CoreId) (grp lat dst : Nat) (s : State) : SlotRes :=
  let k := s.core c
  let l := Map.getD k.latches lat {}
  let act := QFmt.ofCode l.fmt
  let arrs := s.groupArrays c grp
  let gl := groupLines s act m arrs 0
  let total := groupTotal gl
  let iv := opInterval act m
  need (!(arrs.any fun a => decide (0 < (s.engine a).reload))) sNotReady 0 <|
  need (!k.latchLoading lat s.now) sNotReady (24 + k.loadBank lat) <|
  match s.located c 0 (dst * 256) (total * 256) with
  | .error f => .error f
  | .ok base =>
    match s.creditFault c arrs.length (iv / 16) with
    | some f => .error f
    | none =>
      let reason := lowestReason (arrs.map (s.busyReason m))
      need (decide (reason = 0)) sArrayBusy (grp + 16 * reason) <|
      let ops := gl.map (arrayOpOf s l m base k.lineSeq)
      need (!k.resultFull s.now (ops.flatMap fun o => o.lines)) sResultFull grp <|
      match s.calOverlap c arrs iv with
      | some i => .error { code := sCalOverlap, detail := i }
      | none =>
        need (arrs.all fun a => s.bit F.coreCalrecStat.valid a.ix || !s.bit F.arrCfg.enable a.ix) sUncalibrated grp <|
        need (s.bit F.coreSeqTask.anchor c.ix || !s.calReserved c arrs) sUnanchored 0 <|
        let s := s.chargeCredits c arrs.length (iv / 16)
        let k := s.core c
        let s := s.setCore c { k with ops := k.ops ++ ops, nextA := s.now + 1, lineSeq := k.lineSeq + total
                                      latches := Map.put k.latches lat { l with busyUntil := s.now + iv } }
        let s := forAll arrs (startArray iv) s
        let s := forAll (List.range total) (fun i s => s.pendLine (spadAddr c (base + 256 * i))) s
        .ok (s.takeDraws (256 * opEvals act m))

/-- The core's slot A is free in this cycle (R197). -/
def slotAFree (c : CoreId) (s : State) (k : SlotRes) : SlotRes := need (decide ((s.core c).nextA ≤ s.now)) sIllegal 0 k

/-- AMV (R202, Table 06.3). -/
def amvSlot (c : CoreId) (grp lat dst : Nat) (s : State) : SlotRes := slotAFree c s (issueArrayOp .exact c grp lat dst s)

/-- AMVW (R202, Table 06.3). -/
def amvwSlot (c : CoreId) (grp lat dst : Nat) (s : State) : SlotRes := slotAFree c s (issueArrayOp .wide c grp lat dst s)

/-- Run a slot instruction of a core that is issuing; a core that is not issuing does nothing.  [DESIGN CHOICE, log 86] -/
def onSlot (c : CoreId) (src : Nat) (f : State → SlotRes) (s : State) : State :=
  if s.issuing c then slotDone c src s (f s) else s

def execAmv (c : CoreId) (grp : Fin 16) (lat : Fin 8) (dst : Fin 1024) (s : State) : Host.Outcome State Fault Refusal :=
  done (onSlot c 0 (amvSlot c grp lat dst) s)

def execAmvw (c : CoreId) (grp : Fin 16) (lat : Fin 8) (dst : Fin 1024) (s : State) : Host.Outcome State Fault Refusal :=
  done (onSlot c 0 (amvwSlot c grp lat dst) s)

/-! ## Completion and result lines (R67, R74, R81) -/

/-- Remove the first element that meets a test. -/
def takeFirst {α : Type} (p : α → Bool) : List α → Option (α × List α)
  | [] => none
  | x :: xs =>
    if p x then some (x, xs)
    else match takeFirst p xs with
      | none => none
      | some (y, ys) => some (y, x :: ys)

/-- ARR.OPS counts an operation at the end of its last conversion (R202). -/
def countOp (a : ArrId) (o : ArrayOp) (s : State) : State := if o.counted then s else s.incWrap F.arrOps.count a.ix

/-- Operations of a core whose last conversion ends with this cycle count. -/
def countOps (e : CoreId × Core) (s : State) : State :=
  let ends := fun (o : ArrayOp) => !o.counted && decide (o.doneAt ≤ s.now + 5)
  let s := forAll (e.2.ops.filter ends) (fun o s => countOp (e.1.arr ⟨o.arr % 64, Nat.mod_lt _ (by decide)⟩) o s) s
  if e.2.ops.any ends then
    s.setCore e.1 { s.core e.1 with ops := (s.core e.1).ops.map fun o => if ends o then { o with counted := true } else o }
  else s

/-- An array's operation whose lines are due in the buffer completes: clips and SAT are recorded, the lines enter
the buffer, and the array leaves COMPUTE unless a following operation has issued (R74, R93).  [DESIGN CHOICE, log 4] -/
def arrayOpComplete (a : ArrId) (s : State) : State :=
  let c := a.coreId
  let k := s.core c
  match takeFirst (fun o => decide (o.arr = a.arr.val) && decide (o.doneAt ≤ s.now)) k.ops with
  | none => s
  | some (o, rest) =>
    let s := s.setCore c { k with ops := rest, lines := o.lines.foldl (fun acc l => insertLine l acc) k.lines }
    let s := countOp a o s
    let s := if o.clips = 0 then s
      else (((s.inc F.arrClip.count a.ix o.clips).raise F.arrErr.sat a.ix).raise F.coreArrstat.sat c.ix)
    if s.get F.arrState.state a.ix = aCompute ∧ (s.engine a).convEnd ≤ s.now then s.setArrState a aIdle else s

def execArrayOpComplete (a : ArrId) (s : State) : Host.Outcome State Fault Refusal := done (arrayOpComplete a s)

/-- The line written in this cycle for a bank: the first, in order of entry, that has entered, whose bank is in its
array-result-write position, and whose array's buffer took no unwritten line earlier. -/
def nextLine (now bank : Nat) (ls : List ResultLine) : Option ResultLine :=
  ls.find? fun l => decide (l.enter ≤ now ∧ l.line % 8 = bank) && !(ls.any fun x => decide (x.arr = l.arr ∧ x.enter < l.enter))

/-- The bank that is in the array-result-write position during a cycle. -/
def awBank (now : Nat) : Nat := (now + 5) % 8

/-- Write a buffered line to its destination with its marks, one in a slot (R72, R81, R201). -/
def resultLineWrite (c : CoreId) (s : State) : State :=
  let k := s.core c
  match if s.now < k.lineAt ∨ ¬ s.wheelRuns c.die then none else nextLine s.now (awBank s.now) k.lines with
  | none => s
  | some l =>
    let s := s.setCore c { k with lines := k.lines.erase l, lineAt := s.now + 1 }
    let addr := spadAddr c (256 * l.line)
    let s := ((s.store addr l.data).markWritten addr l.sat l.err false).unpendLine addr
    if l.err then s.raise F.coreArrstat.errmark c.ix else s

def execResultLineWrite (c : CoreId) (s : State) : Host.Outcome State Fault Refusal := done (resultLineWrite c s)

/-! ## LDL (R203) and latch landing (R80) -/

/-- Schedule a latch load; its read lands in the first array-read position of the source's bank after this cycle.  [DEDUCED, log 87] -/
def ldlSlot (c : CoreId) (lat fmt src : Nat) (s : State) : SlotRes :=
  slotAFree c s <|
  need (decide (fmt ≠ 0) || decide (src % 2 = 0)) sIllegal 0 <|
  let k := s.core c
  let ofs := s.before.get F.coreSeqBase.base (c.ix 0) + src * 128
  let b := bankOf ofs
  let land := nextSlot b 1 (s.now + 1)
  need (!(k.loads.any fun l => decide (bankOf l.src = b) && decide (l.landAt = land)) && (Map.find s.spadClear c.die).all fun t => decide (t ≤ land))
    sSlotOwner (b + 8 * 1) <|
  match s.located c 0 (src * 128) (if fmt = 0 then 256 else 128) with
  | .error f => .error f
  | .ok ofs =>
    need (!(k.loads.any fun l => decide (l.lat = lat) && decide (l.landAt = land))) sWriteConflict (64 + lat) <|
    .ok (s.setCore c { k with loads := k.loads ++ [⟨lat, fmt, ofs, land, s.get F.coreSeqPc.pc c.ix⟩], nextA := s.now + 1 })

def execLdl (c : CoreId) (lat : Fin 8) (fmt : Fin 4) (src : Fin 2048) (s : State) : Host.Outcome State Fault Refusal :=
  done (onSlot c 0 (ldlSlot c lat fmt src) s)

/-- Whether a half's element codes are all 0, or 0 and Q2 code 10 (R203). -/
def zeroHalf (fmt : Nat) (codes : List Nat) : Bool :=
  codes.all fun x => decide (x = 0) || (decide (fmt = 3) && decide (x % 4 = 2))

/-- Bytes a latch of a format reads (R61). -/
def latchBytes (fmt : Nat) : Nat := if fmt = 0 then 256 else 128

/-- A latch's contents from its source bytes; an operation may use them from the cycle after the landing on. -/
def latchOf (fmt : Nat) (bs : List Byte) (busy now bank : Nat) : Latch :=
  let codes := unpackCodes (QFmt.ofCode fmt) bs 256
  { fmt := fmt, elts := codes, zero0 := zeroHalf fmt (codes.take 128), zero1 := zeroHalf fmt (codes.drop 128), busyUntil := busy
    usable := now + 1, bank := bank }

/-- A due latch load lands: the latch takes its format, codes and zero marks, or the landing faults on an unready source line
or a busy latch (R80, R203); the fault's source is ARRIVAL. -/
def latchLanding (c : CoreId) (s : State) : State :=
  let k := s.core c
  match takeFirst (fun l => decide (l.landAt ≤ s.now)) k.loads with
  | none => s
  | some (l, rest) =>
    let old := Map.getD k.latches l.lat {}
    let s1 := s.setCore c { k with loads := rest }
    let addr := spadAddr c l.src
    match s.lineFault addr (latchBytes l.fmt) with
    | some f => s1.schedFault c 3 l.bundle f
    | none =>
      if s.now < old.busyUntil then s1.schedFault c 3 l.bundle { code := sLatch, detail := l.lat }
      else
        let new := latchOf l.fmt (s.bytes addr (latchBytes l.fmt)) old.busyUntil s.now (bankOf l.src)
        (s1.setCore c { k with loads := rest, latches := Map.put k.latches l.lat new }).correctIn F.coreSpadEcc.ce c.ix addr
          (latchBytes l.fmt)

def execLatchLanding (c : CoreId) (s : State) : Host.Outcome State Fault Refusal := done (latchLanding c s)

/-! ## XSET (R204) and the exchange (R51, R52) -/

/-- XSET (R204): the exchange stitch is named in a streaming harness; in a spatial one nothing happens.  [DEDUCED, log 82] -/
def xsetSlot (c : CoreId) (idx : Nat) (s : State) : SlotRes :=
  slotAFree c s <|
  let t := s.stReg c idx
  let streaming := s.bit F.coreArrstat.streaming c.ix
  need (!streaming || decide (s.stitch < t)) sStitchLate idx <|
  let s := s.setCore c { s.core c with nextA := s.now + 1 }
  if streaming then .ok (s.setCore c { s.core c with exchange := some t }) else .ok s

def execXset (c : CoreId) (idx : Fin 4) (s : State) : Host.Outcome State Fault Refusal :=
  done (onSlot c 0 (xsetSlot c idx) s)

/-- At cc 0 of the named stitch the sets exchange roles (R52); a spatial harness has none (R85). -/
def setExchange (c : CoreId) (s : State) : State :=
  let k := s.core c
  match k.exchange with
  | none => s
  | some t =>
    if 16 * t ≤ s.now then
      let v := s.computeSet c
      (s.setCore c { k with exchange := none }).set F.coreArrstat.compute_set c.ix v
    else s

def execSetExchange (c : CoreId) (s : State) : Host.Outcome State Fault Refusal := done (setExchange c s)

end Sys2Proof.Machine
end

