-- ==== Sys2Proof/Machine/Vector.lean ====
section
/-!
DEFINITION. Slot V (R199-R217): register reads and results in flight, lane operations, vector memory, block scale and
quantise, partial scaling, attention tiles, softmax and the stream context.
-/

namespace Sys2Proof.Machine
open Sys2Proof

/-! ## Registers and results in flight (R199) -/

def zeroLanes : List Word32 := List.replicate 32 0#32

def selV (r : Nat) : ResultDest → Option (List Word32)
  | .vreg r' l => if r' = r then some l else none
  | _ => none

def selS (r : Nat) : ResultDest → Option Word32
  | .sreg r' v => if r' = r then some v else none
  | _ => none

def selCtx : ResultDest → Option (Word64 × Nat × Nat × Nat)
  | .ctx k l p a => some (k, l, p, a)
  | _ => none

/-- Vector register as an instruction issued now reads it. -/
def State.vreg (s : State) (c : CoreId) (r : Nat) : List Word32 :=
  match latestDue s.now (selV r) (s.core c).results none with
  | some p => p.2
  | none => Map.getD (s.core c).vregs r zeroLanes

/-- Scalar register as an instruction issued now reads it. -/
def State.sreg (s : State) (c : CoreId) (r : Nat) : Word32 :=
  match latestDue s.now (selS r) (s.core c).results none with
  | some p => p.2
  | none => Map.getD (s.core c).sregs r 0#32

/-- Stream context in force: key, layer, position, aux (R217). -/
def State.vecCtx (s : State) (c : CoreId) : Word64 × Nat × Nat × Nat :=
  match latestDue s.now selCtx (s.core c).results none with
  | some p => p.2
  | none => (BitVec.ofNat 64 (s.get F.vecCfgKey.key c.ix), s.get F.vecCfgCtx.layer c.ix, s.get F.vecCfgCtx.pos c.ix,
      s.get F.vecCfgCtx.aux c.ix)

/-- Register number in WRITE_CONFLICT's DETAIL (R199). -/
def destNum : ResultDest → Option Nat
  | .vreg r _ => some r
  | .sreg r _ => some (32 + r)
  | _ => none

/-- The first result that falls due with another at its register. -/
def conflictOf (old : List PendingResult) : List PendingResult → Option Nat
  | [] => none
  | r :: rs =>
    match destNum r.dest with
    | none => conflictOf old rs
    | some n =>
      if old.any (fun o => decide (o.due = r.due) && decide (destNum o.dest = some n)) then some n else conflictOf old rs

/-- Post an instruction's results, or WRITE_CONFLICT. -/
def postResults (c : CoreId) (lat : Nat) (dests : List ResultDest) (s : State) : SlotRes :=
  let k := s.core c
  let new := dests.map fun d => ({ due := s.now + lat, dest := d } : PendingResult)
  match conflictOf k.results new with
  | some n => .error { code := sWriteConflict, detail := n }
  | none => .ok (s.setCore c { k with results := k.results ++ new })

/-- Write one due result into its register. -/
def commitResult (c : CoreId) (d : ResultDest) (s : State) : State :=
  let k := s.core c
  match d with
  | .vreg r l => s.setCore c { k with vregs := Map.put k.vregs r l }
  | .sreg r v => s.setCore c { k with sregs := Map.put k.sregs r v }
  | .flags b =>
    ((((if b.testBit 0 then s.raise F.vecCfgStat.nan c.ix else s) |>
      fun s => if b.testBit 1 then s.raise F.vecCfgStat.ovf c.ix else s) |>
      fun s => if b.testBit 2 then s.raise F.vecCfgStat.dz c.ix else s) |>
      fun s => if b.testBit 3 then s.raise F.vecCfgStat.isat c.ix else s)
  | .ctx key layer pos aux =>
    s.sets c.ix [(F.vecCfgKey.key, key.toNat), (F.vecCfgCtx.layer, layer), (F.vecCfgCtx.pos, pos), (F.vecCfgCtx.aux, aux)]
  | .st i v => s.set F.coreSeqSt.stitch (c.ix i) v

/-- Insert by due cycle, behind those due no later. -/
def insertResult (r : PendingResult) : List PendingResult → List PendingResult
  | [] => [r]
  | x :: xs => if r.due < x.due then r :: x :: xs else x :: insertResult r xs

/-- Every result that is due becomes the register's held value, in order of its cycle (R199). -/
def vectorWriteback (c : CoreId) (s : State) : State :=
  let k := s.core c
  let due := (k.results.filter fun r => decide (r.due ≤ s.now)).foldl (fun acc r => insertResult r acc) []
  let s := s.setCore c { k with results := k.results.filter fun r => decide (s.now < r.due) }
  forAll due (fun r s => commitResult c r.dest s) s

def execVectorResultWriteback (c : CoreId) (s : State) : Host.Outcome State Fault Refusal := done (vectorWriteback c s)

/-! ## Slot bookkeeping -/

/-- A slot-V value that issues: the slot is free in this cycle; a class-X instruction also keeps its interval (R197, R205). -/
def vSlot (c : CoreId) (classX : Bool) (s : State) (body : State → SlotRes) : SlotRes :=
  let k := s.core c
  need (decide (k.nextV ≤ s.now) && (!classX || decide (k.nextX ≤ s.now))) sIllegal 1 <|
  match body s with
  | .error f => .error f
  | .ok s =>
    let k := s.core c
    .ok (s.setCore c { k with nextV := s.now + 1, nextX := if classX then s.now + 2 else k.nextX })

/-- An undefined slot-V value or a refused access is also counted in VEC.CFG.ISSUE. -/
def State.countVFault (s : State) (c : CoreId) (f : SFault) : State :=
  if f.code = sIllegal then s.inc F.vecCfgIssue.undef c.ix
  else if f.code = sSlotOwner then s.inc F.vecCfgIssue.slotref c.ix
  else s

/-- Run a slot-V instruction on a core that is issuing. -/
def onSlotV (c : CoreId) (f : State → SlotRes) (s : State) : State :=
  if s.issuing c then
    match f s with
    | .ok s' => s'
    | .error e => (s.countVFault c e).schedFault c 1 (s.get F.coreSeqPc.pc c.ix) e
  else s

/-- An undefined encoding of slot V (R197). -/
def illegalV : SlotRes := .error { code := sIllegal, detail := 1 }

/-! ## Lane values (Table 06.9) -/

/-- Element types of form VR. -/
inductive ETy where
  | fp32 | bf16 | int16 | int8
  deriving DecidableEq, Repr

/-- Type of a TY code (Table 06.8). -/
def ETy.ofCode : Nat → ETy
  | 0 => .fp32
  | 1 => .bf16
  | 2 => .int16
  | _ => .int8

def ETy.isFloat : ETy → Bool
  | .fp32 => true
  | .bf16 => true
  | _ => false

def ETy.intBits : ETy → Nat
  | .int16 => 16
  | _ => 8

/-- Float value of a lane; a BF16 lane is its top half. -/
def laneFP (ty : ETy) (w : Word32) : FP :=
  match ty with
  | .bf16 => FP.ofBits (w &&& 0xFFFF0000#32)
  | _ => FP.ofBits w

/-- Integer value of a lane. -/
def laneInt (ty : ETy) (w : Word32) : Int := signed ty.intBits w.toNat

/-- Round an exact non-zero value to BF16, nearest even, directly (R206). -/
def bf16Round (q : Rat) : Word32 :=
  let neg := decide (q < 0)
  let a := ratAbs q
  let e := max (ratLog2 a) (-126)
  let m := (roundRne (a / pow2 (e - 7))).toNat
  if m < 128 then zeroBits neg
  else
    let e' := if m = 256 then e + 1 else e
    let m' := if m = 256 then 128 else m
    if 127 < e' then infBits neg
    else BitVec.ofNat 32 (signBit neg + (e' + 127).toNat * 2 ^ 23 + (m' - 128) * 65536)

/-- An exact value in the destination's float type. -/
def fpOut (ty : ETy) (x : FP) : Word32 :=
  match ty, x with
  | .bf16, .num q => if q = 0 then zeroBits false else bf16Round q
  | _, x => x.toBits

/-- Flag bits: NAN 1, OVF 2, DZ 4, ISAT 8. -/
def floatFlags (res : Word32) (srcs : List FP) : Nat :=
  match FP.ofBits res with
  | .nan => if srcs.any FP.isNaN then 0 else 1
  | .inf _ => if srcs.any (fun x => x.isNaN || x.isInf) then 0 else 2
  | _ => 0

/-- An integer result saturated at its type's range, with the ISAT flag. -/
def intOut (bits : Nat) (v : Int) : Word32 × Nat :=
  let r := satInt (-(2 ^ (bits - 1))) (2 ^ (bits - 1) - 1) v
  (BitVec.ofInt 32 r, if r = v then 0 else 8)

/-- max or min of two floats: a NaN gives NaN; +0 is above −0 (Table 06.9). -/
def fpMax (x y : FP) : FP :=
  match x, y with
  | .nan, _ => .nan
  | _, .nan => .nan
  | .zero a, .zero b => .zero (a && b)
  | .inf a, y => if a then y else .inf a
  | x, .inf b => if b then x else .inf b
  | x, y => if x.val < y.val then y else x

def fpMin (x y : FP) : FP := FP.neg (fpMax (FP.neg x) (FP.neg y))

/-- Form-VR fields (Table 06.8). -/
structure VrFields where
  d : Nat
  a : Nat
  b : Nat
  c : Nat
  ty : Nat
  bs : Bool
  sub : Nat
  aux8 : Nat
  deriving DecidableEq, Repr

/-- Operand B: a register, or a scalar in every lane (R206). -/
def State.operandB (s : State) (c : CoreId) (f : VrFields) : List Word32 :=
  if f.bs then List.replicate 32 (s.sreg c (f.b % 16)) else s.vreg c f.b

/-- Lane i of a register. -/
def lane (l : List Word32) (i : Nat) : Word32 := l.getD i 0#32

/-- Result of one lane with its flags. -/
abbrev LaneOut := Word32 × Nat

/-- Apply a lane function to 32 lanes. -/
def mapLanes (f : Nat → LaneOut) : List Word32 × Nat :=
  let rs := (List.range 32).map f
  (rs.map fun r => r.1, rs.foldl (fun t r => t ||| r.2) 0)

/-- Post a vector result and its flags at issue + latency. -/
def vecOut (c : CoreId) (lat d : Nat) (r : List Word32 × Nat) (s : State) : SlotRes :=
  postResults c lat ([.vreg d r.1] ++ if r.2 = 0 then [] else [.flags r.2]) s

/-- Two-operand arithmetic lane. -/
def binLane (ty : ETy) (ff : FP → FP → FP) (fi : Int → Int → Int) (a b : Word32) : LaneOut :=
  if ty.isFloat then
    let x := laneFP ty a
    let y := laneFP ty b
    let r := fpOut ty (ff x y)
    (r, floatFlags r [x, y])
  else intOut ty.intBits (fi (laneInt ty a) (laneInt ty b))

/-- Reserved fields of a form-VR instruction without SUB and AUX8 are 0, and B[4] is 0 under BS (R197, R206). -/
def vrPlain (f : VrFields) : Bool := decide (f.sub = 0) && decide (f.aux8 = 0) && (!f.bs || decide (f.b < 16))

/-- A two-operand instruction of form VR (R206). -/
def vrBinary (ff : FP → FP → FP) (fi : Int → Int → Int) (c : CoreId) (f : VrFields) (s : State) : SlotRes :=
  vSlot c false s fun s =>
    if !vrPlain f then illegalV
    else
      let a := s.vreg c f.a
      let b := s.operandB c f
      vecOut c 4 f.d (mapLanes fun i => binLane (ETy.ofCode f.ty) ff fi (lane a i) (lane b i)) s

/-- VADD (R206, Table 06.9). -/
def vaddSlot (c : CoreId) (f : VrFields) (s : State) : SlotRes := vrBinary FP.add (fun x y => x + y) c f s
/-- VSUB (R206, Table 06.9). -/
def vsubSlot (c : CoreId) (f : VrFields) (s : State) : SlotRes :=
  vrBinary (fun x y => FP.add x (FP.neg y)) (fun x y => x - y) c f s
/-- VMUL (R206, Table 06.9). -/
def vmulSlot (c : CoreId) (f : VrFields) (s : State) : SlotRes := vrBinary FP.mul (fun x y => x * y) c f s
/-- VMAX (R206, Table 06.9). -/
def vmaxSlot (c : CoreId) (f : VrFields) (s : State) : SlotRes := vrBinary fpMax max c f s
/-- VMIN (R206, Table 06.9). -/
def vminSlot (c : CoreId) (f : VrFields) (s : State) : SlotRes := vrBinary fpMin min c f s

/-- Fused multiply-add lane: exact before one rounding. -/
def fmaLane (ty : ETy) (a b d : Word32) : LaneOut :=
  let x := laneFP ty a
  let y := laneFP ty b
  let z := laneFP ty d
  let r := fpOut ty (FP.add (FP.mul x y) z)
  (r, floatFlags r [x, y, z])

/-- VFMA (R206, Table 06.9). -/
def vfmaSlot (c : CoreId) (f : VrFields) (s : State) : SlotRes :=
  vSlot c false s fun s =>
    if !vrPlain f || decide (2 ≤ f.ty) then illegalV
    else
      let a := s.vreg c f.a
      let b := s.operandB c f
      let d := s.vreg c f.c
      vecOut c 4 f.d (mapLanes fun i => fmaLane (ETy.ofCode f.ty) (lane a i) (lane b i) (lane d i)) s

/-- Comparison of one lane: SUB 0 equal, 1 less, 2 less or equal; NaN compares false. -/
def cmpLane (ty : ETy) (sub : Nat) (a b : Word32) : Bool :=
  if ty.isFloat then
    let x := (laneFP ty a).toBits
    let y := (laneFP ty b).toBits
    match sub with
    | 0 => f32Eq x y
    | 1 => f32Lt x y
    | _ => f32Lt x y || f32Eq x y
  else
    match sub with
    | 0 => decide (laneInt ty a = laneInt ty b)
    | 1 => decide (laneInt ty a < laneInt ty b)
    | _ => decide (laneInt ty a ≤ laneInt ty b)

/-- VCMP (R206, Table 06.9). -/
def vcmpSlot (c : CoreId) (f : VrFields) (s : State) : SlotRes :=
  vSlot c false s fun s =>
    if decide (2 < f.sub) || decide (f.aux8 ≠ 0) || (f.bs && decide (16 ≤ f.b)) then illegalV
    else
      let a := s.vreg c f.a
      let b := s.operandB c f
      vecOut c 4 f.d (mapLanes fun i =>
        (if cmpLane (ETy.ofCode f.ty) f.sub (lane a i) (lane b i) then 0xFFFFFFFF#32 else 0#32, 0)) s

/-- VSEL (R206, Table 06.9). -/
def vselSlot (c : CoreId) (f : VrFields) (s : State) : SlotRes :=
  vSlot c false s fun s =>
    if !vrPlain f then illegalV
    else
      let a := s.vreg c f.a
      let b := s.operandB c f
      let d := s.vreg c f.c
      vecOut c 4 f.d (mapLanes fun i => (if lane d i ≠ 0#32 then lane a i else lane b i, 0)) s

/-- VMOV (R206, Table 06.9). -/
def vmovSlot (c : CoreId) (f : VrFields) (s : State) : SlotRes :=
  vSlot c false s fun s =>
    if decide (1 < f.sub) || decide (f.aux8 ≠ 0) then illegalV
    else
      let v := if f.sub = 0 then s.vreg c f.a else List.replicate 32 (s.sreg c (f.b % 16))
      vecOut c 4 f.d (v, 0) s

/-- VMOVS (R206, Table 06.9). -/
def vmovsSlot (c : CoreId) (f : VrFields) (s : State) : SlotRes :=
  vSlot c false s fun s =>
    if decide (1 < f.sub) || decide (f.aux8 ≠ 0) || decide (16 ≤ f.d) then illegalV
    else
      let v := if f.sub = 0 then lane (s.vreg c f.a) f.b else BitVec.ofNat 32 (s.get F.vecCfgTscale.t (c.ix (f.b % 16)))
      postResults c 4 [.sreg f.d v] s

/-- One lane of VCVT (R207). -/
def cvtLane (src dst : ETy) (sr : Option (Word64 × Word64)) (i : Nat) (w : Word32) : LaneOut :=
  if src = dst then (w, 0)
  else if dst.isFloat then
    if src.isFloat then
      let x := laneFP src w
      let r := match dst, sr with
        | .bf16, some (key, ctr) => bf16Sr w (draw key ctr i)
        | .bf16, none => bf16Rne w
        | _, _ => x.toBits
      (r, floatFlags r [x])
    else
      let v := laneInt src w
      (if v = 0 then zeroBits false else fpOut dst (.num (v : Rat)), 0)
  else if src.isFloat then
    match laneFP src w with
    | .nan => (0#32, 8)
    | .inf n => ((intOut dst.intBits (if n then -(2 ^ 40) else 2 ^ 40)).1, 8)
    | x => intOut dst.intBits (roundRne x.val)
  else intOut dst.intBits (laneInt src w)

/-- VCVT (R207): sites 0 and 1 are undefined.  [DEDUCED, log 77] -/
def vcvtSlot (c : CoreId) (f : VrFields) (s : State) : SlotRes :=
  vSlot c false s fun s =>
    let site := f.b / 2 % 4
    if decide (f.b % 2 ≠ 0) || decide (site < 2) || decide (f.sub ≠ 0) then illegalV
    else
      let src := ETy.ofCode f.ty
      let dst := ETy.ofCode (f.b / 8)
      let x := s.vecCtx c
      let ctr := rngCounter 2 x.2.1 x.2.2.1 (x.2.2.2 * 4096 + f.aux8 * 16)
      let sr := if src = .fp32 && dst = .bf16 && decide (site = 2) && s.bit F.vecCfgRnd.site2 c.ix then some (x.1, ctr) else none
      let a := s.vreg c f.a
      vecOut c 4 f.d (mapLanes fun i => cvtLane src dst sr i (lane a i)) s

/-- VSWP (R206, Table 06.9). -/
def vswpSlot (c : CoreId) (f : VrFields) (s : State) : SlotRes :=
  vSlot c false s fun s =>
    if decide (f.sub ≠ 0) || decide (f.aux8 ≠ 0) || decide (2 ≤ f.ty) then illegalV
    else
      let a := s.vreg c f.a
      let ty := ETy.ofCode f.ty
      vecOut c 4 f.d (mapLanes fun i =>
        (if i % 2 = 0 then (FP.neg (laneFP ty (lane a (i + 1)))).toBits else (laneFP ty (lane a (i - 1))).toBits, 0)) s

/-- Neighbouring lanes combined, one tree level (R208). -/
def treeLevel (f : Word32 → Word32 → Word32) : List Word32 → List Word32
  | x :: y :: t => f x y :: treeLevel f t
  | l => l

/-- The fixed tree over 32 lanes. -/
def treeReduce (f : Word32 → Word32 → Word32) (l : List Word32) : Word32 :=
  (treeLevel f (treeLevel f (treeLevel f (treeLevel f (treeLevel f l))))).headD 0#32

/-- A sum in the fixed tree (R208). -/
def treeSum (l : List Word32) : Word32 := treeReduce f32Add l

/-- VRSUM (R208): a tree of FP32 sums; BF16 is rounded once, at the end.  [DEDUCED, log 81] -/
def vrsumSlot (c : CoreId) (f : VrFields) (s : State) : SlotRes :=
  vSlot c false s fun s =>
    if decide (f.sub ≠ 0) || decide (f.aux8 ≠ 0) || decide (2 ≤ f.ty) then illegalV
    else
      let ty := ETy.ofCode f.ty
      let xs := (s.vreg c f.a).map fun w => (laneFP ty w).toBits
      let t := treeSum xs
      let r := if f.ty = 1 then bf16Rne t else t
      vecOut c 4 f.d (List.replicate 32 r, floatFlags r (xs.map FP.ofBits)) s

/-- VRMAX (R208). -/
def vrmaxSlot (c : CoreId) (f : VrFields) (s : State) : SlotRes :=
  vSlot c false s fun s =>
    if decide (f.sub ≠ 0) || decide (f.aux8 ≠ 0) then illegalV
    else
      let ty := ETy.ofCode f.ty
      let a := s.vreg c f.a
      let r : Word32 :=
        if ty.isFloat then
          (a.foldl (fun m w => match m with
            | none => some (laneFP ty w)
            | some x => some (fpMax x (laneFP ty w))) (none : Option FP)).elim 0#32 FP.toBits
        else BitVec.ofInt 32 (a.foldl (fun m w => max m (laneInt ty w)) (laneInt ty (lane a 0)))
      vecOut c 4 f.d (List.replicate 32 r, 0) s

/-- A class-X function of one FP32 operand. -/
def vrUnaryX (g : Word32 → Word32) (dz : Word32 → Bool) (flagMask : Nat) (c : CoreId) (f : VrFields) (s : State) : SlotRes :=
  vSlot c true s fun s =>
    if decide (f.sub ≠ 0) || decide (f.aux8 ≠ 0) || decide (f.ty ≠ 0) then illegalV
    else
      let a := s.vreg c f.a
      vecOut c 8 f.d (mapLanes fun i =>
        let r := g (lane a i)
        (r, (floatFlags r [FP.ofBits (lane a i)] &&& flagMask) ||| (if dz (lane a i) then 4 else 0))) s

def isZeroWord (w : Word32) : Bool :=
  match FP.ofBits w with
  | .zero _ => true
  | _ => false

/-- VEXP (R150, Table 06.9). -/
def vexpSlot (c : CoreId) (f : VrFields) (s : State) : SlotRes := vrUnaryX f32Exp (fun _ => false) 3 c f s
/-- VRCP (R150, Table 06.9). -/
def vrcpSlot (c : CoreId) (f : VrFields) (s : State) : SlotRes := vrUnaryX f32Rcp isZeroWord 1 c f s
/-- VRSQ (R150, Table 06.9). -/
def vrsqSlot (c : CoreId) (f : VrFields) (s : State) : SlotRes := vrUnaryX f32Rsq isZeroWord 1 c f s

/-! ## Vector memory (R200, R210) -/

/-- SLOT_OWNER when a single access's bank is in neither vector position (R200); while a clear suspends the wheel no bank is.
[DEDUCED, log 203] -/
def State.wheelFault (s : State) (c : CoreId) (ofs : Nat) : Option SFault :=
  let b := bankOf ofs
  let p := wheelPos b s.now
  if (p = 0 ∨ p = 7) ∧ s.wheelRuns c.die then none else some { code := sSlotOwner, detail := b + 8 * p }

/-- The checks of one access of `n` bytes at task offset `o` of the scratchpad, lowest code first; the physical offset if none
fails. -/
def State.vAccess (s : State) (c : CoreId) (o n : Nat) (isRead : Bool) : Except SFault Nat :=
  let ofs := s.before.get F.coreSeqBase.base (c.ix 0) + o
  match s.located c 0 o n with
  | .error f => .error ((s.wheelFault c ofs).getD f)
  | .ok ofs =>
    let addr := spadAddr c ofs
    let m := s.mark addr
    let ready := if isRead then s.lineFault addr n
      else if 0 < m.pend then some { code := sNotReady, detail := bankOf ofs }
      else match s.ueIn addr n with
        | some w => if n < 8 then some { code := sNotReady, detail := bankOf ofs + 8, ue := some w } else none
        | none => none
    match ready with
    | some f => .error f
    | none =>
      match s.wheelFault c ofs with
      | some f => .error f
      | none => .ok ofs

/-- Bytes an element type moves for 32 lanes: 0 FP32, 1 BF16, 2 INT16, 3 INT8, 4 RAW (R210). -/
def vmSize : Nat → Nat
  | 0 => 128
  | 1 => 64
  | 2 => 64
  | 3 => 32
  | _ => 128

/-- Element i of loaded bytes in a lane. -/
def loadLane (ty : Nat) (bs : List Byte) (i : Nat) : Word32 :=
  let eb := vmSize ty / 32
  let x := bytesToNat ((bs.drop (eb * i)).take eb)
  match ty with
  | 1 => BitVec.ofNat 32 (x * 65536)
  | 2 => BitVec.ofInt 32 (signed 16 x)
  | 3 => BitVec.ofInt 32 (signed 8 x)
  | _ => BitVec.ofNat 32 x

/-- Bytes a lane stores. -/
def storeLane (ty : Nat) (w : Word32) : List Byte :=
  match ty with
  | 1 => natToBytes 2 (w.toNat / 65536)
  | 2 => natToBytes 2 w.toNat
  | 3 => natToBytes 1 w.toNat
  | _ => natToBytes 4 w.toNat

/-- The effective offset, or the fault of a misaligned one: undefined for a fixed immediate, BOUND otherwise (R210).  [DESIGN CHOICE, log 212] -/
def State.effOffset (s : State) (c : CoreId) (imm size : Nat) (ind : Bool) (z : Nat) : Except SFault Nat :=
  if ind then
    let e := imm + (s.sreg c z).toNat
    if e % size = 0 then .ok e
    else .error ((s.wheelFault c (s.before.get F.coreSeqBase.base (c.ix 0) + e)).getD { code := sBound, detail := 0 })
  else if imm % size = 0 then .ok imm
  else .error { code := sIllegal, detail := 1 }

/-- VLD (R210). -/
def vldSlot (c : CoreId) (d ofs ty : Nat) (ind : Bool) (z : Nat) (s : State) : SlotRes :=
  vSlot c false s fun s =>
    if 4 < ty then illegalV
    else
      let n := vmSize ty
      match s.effOffset c (ofs * 32) n ind z with
      | .error f => .error f
      | .ok o =>
        match s.vAccess c o n true with
        | .error f => .error f
        | .ok p =>
          let bs := s.bytes (spadAddr c p) n
          vecOut c 4 d ((List.range 32).map (loadLane ty bs), 0) (s.correctIn F.coreSpadEcc.ce c.ix (spadAddr c p) n)

/-- A scratchpad store by the vector engine: bytes, and the line's marks cleared (R201). -/
def State.vStore (s : State) (c : CoreId) (ofs : Nat) (bs : List Byte) : State :=
  (s.store (spadAddr c ofs) bs).markWritten (spadAddr c ofs) false false false

/-- VST (R210). -/
def vstSlot (c : CoreId) (src ofs ty : Nat) (ind : Bool) (z : Nat) (s : State) : SlotRes :=
  vSlot c false s fun s =>
    if 4 < ty then illegalV
    else
      let n := vmSize ty
      match s.effOffset c (ofs * 32) n ind z with
      | .error f => .error f
      | .ok o =>
        match s.vAccess c o n false with
        | .error f => .error f
        | .ok p => .ok (s.vStore c p ((s.vreg c src).flatMap (storeLane ty)))

/-- VLDS (R210). -/
def vldsSlot (c : CoreId) (d sz ofs : Nat) (ind : Bool) (z : Nat) (s : State) : SlotRes :=
  vSlot c false s fun s =>
    if 2 < sz then illegalV
    else
      let n := 2 ^ sz
      match s.effOffset c ofs n ind z with
      | .error f => .error f
      | .ok o =>
        match s.vAccess c o n true with
        | .error f => .error f
        | .ok p =>
          let v := BitVec.ofNat 32 (bytesToNat (s.bytes (spadAddr c p) n))
          postResults c 4 [.sreg d v] (s.correctIn F.coreSpadEcc.ce c.ix (spadAddr c p) n)

/-- VSTS (R210). -/
def vstsSlot (c : CoreId) (src sz ofs : Nat) (ind : Bool) (z : Nat) (s : State) : SlotRes :=
  vSlot c false s fun s =>
    if 2 < sz then illegalV
    else
      let n := 2 ^ sz
      match s.effOffset c ofs n ind z with
      | .error f => .error f
      | .ok o =>
        match s.vAccess c o n false with
        | .error f => .error f
        | .ok p => .ok (s.vStore c p (natToBytes n (s.sreg c src).toNat))

/-! ## Block scale and quantise (R211, R212) -/

/-- Registers a block kind spans: 0 ACT128, 1 KV32, 2 PAIR256. -/
def kindRegs : Nat → Nat
  | 0 => 4
  | 1 => 1
  | _ => 8

/-- The block's elements from consecutive registers. -/
def State.blockElts (s : State) (c : CoreId) (r kind : Nat) : List Word32 :=
  (List.range (kindRegs kind)).flatMap fun i => s.vreg c (r + i)

/-- A format that a KIND admits (R211). -/
def kindFmtOk (kind fmt : Nat) : Bool := decide (kind < 3) && (decide (kind ≠ 1) || decide (fmt < 2))

/-- Tensor scale i as an exact value. -/
def State.tscale (s : State) (c : CoreId) (i : Nat) : Rat := (FP.ofBits (BitVec.ofNat 32 (s.get F.vecCfgTscale.t (c.ix i)))).val

/-- Scale word (Table 06.12). -/
def scaleWord (b0 b1 tsi : Nat) (capped : Bool) : Word32 :=
  BitVec.ofNat 32 (b0 % 256 + 256 * (b1 % 256) + 2 ^ 16 * (tsi % 16) + 2 ^ 20 * boolNat capped)

/-- QSC (R211). -/
def qscSlot (c : CoreId) (src kind fmt tsi z k : Nat) (s : State) : SlotRes :=
  vSlot c false s fun s =>
    if !kindFmtOk kind fmt || decide (src % kindRegs kind ≠ 0) then illegalV
    else
      let xs := (s.blockElts c src kind).map FP.ofBits
      let b := chooseScale (blockAmax xs) (s.tscale c tsi) (QFmt.ofCode fmt)
      let nonfin := (xs.filter fun x => x.isNaN || x.isInf).length
      match postResults c 4 [.sreg z (scaleWord b.1 (if kind = 2 then b.1 else 0) tsi b.2)] s with
      | .error f => .error f
      | .ok s =>
        let s := if nonfin = 0 then s else s.inc F.vecPcntFaults.nonfin (c.ix k) nonfin
        .ok (if b.2 then s.inc F.vecPcntFaults.tsfault (c.ix k) else s)

/-- Lanes of bytes: four bytes a lane. -/
def lanesOfBytes (bs : List Byte) : List Word32 :=
  (List.range 32).map fun i => BitVec.ofNat 32 (bytesToNat ((bs.drop (4 * i)).take 4))

/-- Bytes of a register: lane 0 lowest. -/
def bytesOfLanes (l : List Word32) : List Byte := l.flatMap fun w => natToBytes 4 w.toNat

/-- Rounding of a QNT purpose: 0 and 1 take the site's mode, 3 is RNE. -/
def State.qntRnd (s : State) (c : CoreId) (pur kind blk sub : Nat) : RndMode :=
  let x := s.vecCtx c
  if pur = 0 then
    if s.bit F.vecCfgRnd.site0 c.ix then
      .sr x.1 (rngCounter 0 x.2.1 x.2.2.1 (sub * 2 ^ 20 + blk * (if kind = 0 then 64 else 128)))
    else .rne
  else if pur = 1 then
    if s.bit F.vecCfgRnd.site1 c.ix then .sr x.1 (rngCounter 1 x.2.1 x.2.2.1 (blk * 16)) else .rne
  else .rne

/-- QNT (R212). -/
def qntSlot (c : CoreId) (d src fmt kind pur k blk sub z : Nat) (s : State) : SlotRes :=
  vSlot c false s fun s =>
    let wide := kind = 2 ∧ fmt = 0
    if !kindFmtOk kind fmt || decide (src % kindRegs kind ≠ 0) || decide (pur = 2) || (decide wide && decide (d = 31)) then illegalV
    else
      let f := QFmt.ofCode fmt
      let sw := (s.sreg c z).toNat
      let bad := decide (sw % 256 = 0xFF)
      let b := if bad then 0 else sw % 256
      let xs := (s.blockElts c src kind).map FP.ofBits
      let q := quantElts xs (s.tscale c (sw / 2 ^ 16 % 16)) b f (s.qntRnd c pur kind blk sub) 0
      let zero := q.all fun p => decide (p.1 = 0)
      let half := fun h => ((q.drop (128 * h)).take 128).all fun p => decide (p.1 = 0)
      let zeroblk := if kind = 2 then boolNat (half 0) + boolNat (half 1) else boolNat zero
      let sat := (q.filter fun p => p.2).length
      let b0 := if zero then 0 else b
      let b1 := if kind = 2 ∧ zero then 0 else if bad then 0 else sw / 256 % 256
      let out := packCodes f (q.map fun p => f.encode p.1)
      let sw' := BitVec.ofNat 32 (sw / 2 ^ 16 * 2 ^ 16 + 256 * b1 + b0)
      let dests := [ResultDest.vreg d (lanesOfBytes (out ++ List.replicate 128 0#8)), .sreg z sw'] ++
        if wide then [ResultDest.vreg (d + 1) (lanesOfBytes (out.drop 128))] else []
      match postResults c 4 dests s with
      | .error e => .error e
      | .ok s =>
        let ix := c.ix k
        let s := if bad then s.inc F.vecPcntScales.badscale ix else s
        let s := s.inc F.vecPcntElems.count ix q.length
        let s := if sat = 0 then s else s.inc F.vecPcntSatel.count ix sat
        .ok (if zeroblk = 0 then s else s.inc F.vecPcntZeroblk.count ix zeroblk)

/-! ## VPSC (R213) -/

/-- Column accumulation of one line's elements: the accumulators and the 0xFF scales met. -/
def vpscElts (md n li perLine : Nat) (part : Nat → Int) (ca cw : Nat → Nat) (acc : List Word32) : List Word32 × Nat :=
  (List.range perLine).foldl (fun st e =>
    let g := li * perLine + e
    let w := if md = 0 then g / n else 0
    let j := if md = 0 then g % n else g
    if 1 < w ∨ n ≤ j then st
    else
      let a := ca w
      let b := cw (w * n + j)
      if a = 0xFF ∨ b = 0xFF then (st.1, st.2 + 1)
      else (st.1.set j (f32Add (st.1.getD j 0#32) (scalePartial (part e) a b)), st.2)) (acc, 0)

/-- Replace lanes of a register list by the first n accumulator values. -/
def splitAcc (n : Nat) (old : Nat → List Word32) (acc : List Word32) : List (List Word32) :=
  (List.range ((n + 31) / 32)).map fun r =>
    (List.range 32).map fun i => if 32 * r + i < n then acc.getD (32 * r + i) 0#32 else lane (old r) i

/-- VPSC (R213).  [DEDUCED, log 79] -/
def vpscSlot (c : CoreId) (a line ws z wf wid md li : Nat) (first : Bool) (k : Nat) (s : State) : SlotRes :=
  vSlot c false s fun s =>
    let f := QFmt.ofCode wf
    let n := f.cols
    let lastByte := if md = 0 then 2 * n - 1 else n - 1
    let contradicts := (decide (wid = 1) && decide (wf = 3) && decide (md = 0)) ||
      (decide (wid = 0) && decide (wf = 0) && decide (md = 1))
    match s.vAccess c (line * 256) 256 true with
    | .error e => .error e
    | .ok p =>
      if decide (31 < a + (n + 31) / 32 - 1) || decide (31 < ws + lastByte / 128) || contradicts then illegalV
      else
        let addr := spadAddr c p
        let bs := s.bytes addr 256
        let eb := if wid = 0 then 2 else 4
        let part := fun e => signed (8 * eb) (bytesToNat ((bs.drop (eb * e)).take eb))
        let sw := (s.sreg c z).toNat
        let tab := (List.range (lastByte / 128 + 1)).flatMap fun r => bytesOfLanes (s.vreg c (ws + r))
        let old := fun r => s.vreg c (a + r)
        let acc0 := (List.range n).map fun j => if first then 0#32 else lane (old (j / 32)) (j % 32)
        let r := vpscElts md n li (256 / eb) part (fun w => sw / 256 ^ w % 256) (fun i => (tab.getD i 0#8).toNat) acc0
        let flags := (List.range n).foldl (fun t j => t ||| floatFlags (r.1.getD j 0#32) [FP.ofBits (acc0.getD j 0#32)]) 0
        let dests := (splitAcc n old r.1).zipIdx.map fun q => ResultDest.vreg (a + q.2) q.1
        match postResults c 4 (dests ++ if flags = 0 then [] else [.flags flags]) s with
        | .error e => .error e
        | .ok s =>
          let s := s.correctIn F.coreSpadEcc.ce c.ix addr 256
          let s := if (s.mark addr).sat then s.inc F.vecPcntScales.arrsat (c.ix k) else s
          .ok (if r.2 = 0 then s else s.inc F.vecPcntScales.badscale (c.ix k) r.2)

/-! ## VDQ (R214) -/

/-- VDQ (R214). -/
def vdqSlot (c : CoreId) (d src fmt grp z k : Nat) (s : State) : SlotRes :=
  vSlot c false s fun s =>
    let f := QFmt.ofCode fmt
    if 128 < 4 * f.bits * (grp + 1) then illegalV
    else
      let sw := (s.sreg c z).toNat
      let b := sw % 256
      let T := s.tscale c (sw / 2 ^ 16 % 16)
      let stream := bytesToNat (bytesOfLanes (s.vreg c src))
      let r := mapLanes fun i =>
        let q := T * bs8Decode b * (f.value (unpackElt f stream (32 * grp + i)) : Rat)
        let w := if q = 0 then zeroBits false else f32Round q
        (w, floatFlags w [])
      match vecOut c 4 d r s with
      | .error e => .error e
      | .ok s => .ok (if b = 0xFF then s.inc F.vecPcntScales.badscale (c.ix k) else s)

/-! ## Attention tiles (R215) -/

/-- Exact sum of terms under IEEE 754's rules for non-finite ones. -/
def exactSum (ts : List FP) : FP := ts.foldl FP.add (.zero false)

def ratFP (q : Rat) : FP := if q = 0 then .zero false else .num q

/-- The two lines of a tile, checked for readiness and for VA and VB (R200, R215).  [DESIGN CHOICE, log 211] -/
def State.tileAccess (s : State) (c : CoreId) (tile : Nat) : Except SFault Nat :=
  let ofs := s.before.get F.coreSeqBase.base (c.ix 0) + tile * 256
  let b := bankOf ofs
  let owner : Option SFault := if wheelPos b s.now = 0 ∧ s.wheelRuns c.die then none
    else some { code := sSlotOwner, detail := b + 8 * wheelPos b s.now }
  match s.located c 0 (tile * 256) 512 with
  | .error f => .error (owner.getD f)
  | .ok ofs =>
    match (s.lineFault (spadAddr c ofs) 256).or (s.lineFault (spadAddr c (ofs + 256)) 256) with
    | some f => .error f
    | none =>
      match owner with
      | some f => .error f
      | none => .ok ofs

/-- Code value of position p, dimension d of a tile. -/
def tileVal (bs : List Byte) (fmt p d : Nat) : Int :=
  let f : QFmt := if fmt = 0 then .q4 else .q8
  f.value (unpackElt f (bytesToNat ((bs.drop (16 * p)).take 16)) d)

/-- Shared frame of the tile instructions: read the tile, compute 32 lanes, count bad scales. -/
def tileSlot (body : List Byte → (Nat → Nat) → List Word32 → List Word32 → List Word32 × Nat)
    (c : CoreId) (d x tile sv ss fmt h k : Nat) (s : State) : SlotRes :=
  vSlot c false s fun s =>
    if decide (tile = 1023) || (decide (fmt = 0) && decide (h ≠ 0)) then illegalV
    else
      match s.tileAccess c tile with
      | .error e => .error e
      | .ok p =>
        let addr := spadAddr c p
        let bs := s.bytes addr 512
        let sb := bytesOfLanes (s.vreg c sv)
        let raw := fun i => (sb.getD (32 * ss + i) 0#8).toNat
        let bad := ((List.range 32).filter fun i => decide (raw i = 0xFF)).length
        let scale := fun i => if raw i = 0xFF then 0 else raw i
        let r := body bs scale (s.vreg c x) (s.vreg c d)
        match vecOut c 4 d r s with
        | .error e => .error e
        | .ok s =>
          let s := s.correctIn F.coreSpadEcc.ce c.ix addr 512
          .ok (if bad = 0 then s else s.inc F.vecPcntScales.badscale (c.ix k) bad)

/-- Accumulate one exact value into a lane.  [DEDUCED, log 80] -/
def tileLane (first : Bool) (u : FP) (srcs : List FP) (old : Word32) : LaneOut :=
  let u := u.toBits
  let r := if first then u else f32Add old u
  (r, floatFlags r (if first then srcs else FP.ofBits old :: srcs))

/-- VQKT (R215). -/
def vqktSlot (c : CoreId) (d x tile sv ss fmt h : Nat) (first : Bool) (k : Nat) (s : State) : SlotRes :=
  tileSlot (fun bs scale xs old =>
    let nd := if fmt = 0 then 32 else 16
    mapLanes fun p =>
      let qs := (List.range nd).map fun i => FP.ofBits (lane xs (16 * h + i))
      let u := if scale p = 0 then FP.zero false
        else FP.mul (exactSum (qs.zipIdx.map fun q => FP.mul q.1 (ratFP (tileVal bs fmt p q.2 : Rat)))) (.num (bs8Decode (scale p)))
      tileLane first u (if scale p = 0 then [] else qs) (lane old p)) c d x tile sv ss fmt h k s

/-- VPVT (R215). -/
def vpvtSlot (c : CoreId) (d x tile sv ss fmt h : Nat) (first : Bool) (k : Nat) (s : State) : SlotRes :=
  tileSlot (fun bs scale xs old =>
    let nd := if fmt = 0 then 32 else 16
    let ps := (List.range 32).filter fun p => decide (scale p ≠ 0)
    mapLanes fun i =>
      if i < 16 * h ∨ 16 * h + nd ≤ i then (lane old i, 0)
      else
        let xsP := ps.map fun p => FP.ofBits (lane xs p)
        let u := exactSum (ps.map fun p =>
          FP.mul (FP.ofBits (lane xs p)) (ratFP (bs8Decode (scale p) * (tileVal bs fmt p (i - 16 * h) : Rat))))
        tileLane first u xsP (lane old i)) c d x tile sv ss fmt h k s

/-! ## VSMX (R216) and VCTX (R217) -/

def negInf : Word32 := 0xFF800000#32
def oneF : Word32 := 0x3F800000#32

/-- Results of one softmax step: exponentials, maximum, sum, rescale factor. -/
def softmaxStep (v : List Word32) (m0 l0 : Word32) (n : Nat) : List Word32 × Word32 × Word32 × Word32 :=
  let m1 := if n = 0 then m0 else ((v.take n).foldl (fun m w => fpMax m (FP.ofBits w)) (FP.ofBits m0)).toBits
  let alpha := if n = 0 ∨ m0 = negInf then oneF else f32Exp (f32Sub m0 m1)
  let e := (List.range 32).map fun i => if i < n then f32Exp (f32Sub (lane v i) m1) else 0#32
  (e, m1, f32Add (f32Mul l0 alpha) (treeSum e), alpha)

/-- VSMX (R216). -/
def vsmxSlot (c : CoreId) (d src m n : Nat) (first : Bool) (s : State) : SlotRes :=
  vSlot c true s fun s =>
    let m0 := if first then negInf else s.sreg c (4 * m)
    let l0 := if first then 0#32 else s.sreg c (4 * m + 1)
    let cnt := min (s.sreg c n).toNat 32
    let v := s.vreg c src
    let r := softmaxStep v m0 l0 cnt
    let srcs := (v.take cnt).map FP.ofBits ++ if first then [] else [FP.ofBits m0, FP.ofBits l0]
    let res := r.1 ++ [r.2.1, r.2.2.1, r.2.2.2]
    let nan := (v.take cnt).any (fun w => (FP.ofBits w).isNaN) ||
      (res.any (fun w => (FP.ofBits w).isNaN) && !srcs.any FP.isNaN)
    let ovf := (r.1 ++ [r.2.2.1, r.2.2.2]).any (fun w => (FP.ofBits w).isInf) && !srcs.any (fun x => x.isNaN || x.isInf)
    let flags := boolNat nan + 2 * boolNat ovf
    postResults c 8 ([.vreg d r.1, .sreg (4 * m) r.2.1, .sreg (4 * m + 1) r.2.2.1, .sreg (4 * m + 2) r.2.2.2] ++
      if flags = 0 then [] else [.flags flags]) s

/-- VCTX (R217). -/
def vctxSlot (c : CoreId) (ks ps xs layer : Nat) (s : State) : SlotRes :=
  vSlot c false s fun s =>
    if ks % 2 ≠ 0 then illegalV
    else
      let key := BitVec.ofNat 64 ((s.sreg c (ks + 1)).toNat * 2 ^ 32 + (s.sreg c ks).toNat)
      postResults c 4 [.ctx key layer ((s.sreg c ps).toNat % 2 ^ 28) ((s.sreg c xs).toNat % 2 ^ 12)] s

/-! ## The commands of slot V -/

def vrOf (o : VrOperands) : VrFields := ⟨o.d, o.a, o.b, o.c, o.ty, o.bs, o.sub, o.aux8⟩

def execVadd (c : CoreId) (f : VrOperands) (s : State) : Host.Outcome State Fault Refusal :=
  done (onSlotV c (vaddSlot c (vrOf f)) s)

def execVsub (c : CoreId) (f : VrOperands) (s : State) : Host.Outcome State Fault Refusal :=
  done (onSlotV c (vsubSlot c (vrOf f)) s)

def execVmul (c : CoreId) (f : VrOperands) (s : State) : Host.Outcome State Fault Refusal :=
  done (onSlotV c (vmulSlot c (vrOf f)) s)

def execVfma (c : CoreId) (f : VrOperands) (s : State) : Host.Outcome State Fault Refusal :=
  done (onSlotV c (vfmaSlot c (vrOf f)) s)

def execVmax (c : CoreId) (f : VrOperands) (s : State) : Host.Outcome State Fault Refusal :=
  done (onSlotV c (vmaxSlot c (vrOf f)) s)

def execVmin (c : CoreId) (f : VrOperands) (s : State) : Host.Outcome State Fault Refusal :=
  done (onSlotV c (vminSlot c (vrOf f)) s)

def execVcmp (c : CoreId) (f : VrOperands) (s : State) : Host.Outcome State Fault Refusal :=
  done (onSlotV c (vcmpSlot c (vrOf f)) s)

def execVsel (c : CoreId) (f : VrOperands) (s : State) : Host.Outcome State Fault Refusal :=
  done (onSlotV c (vselSlot c (vrOf f)) s)

def execVmov (c : CoreId) (f : VrOperands) (s : State) : Host.Outcome State Fault Refusal :=
  done (onSlotV c (vmovSlot c (vrOf f)) s)

def execVmovs (c : CoreId) (f : VrOperands) (s : State) : Host.Outcome State Fault Refusal :=
  done (onSlotV c (vmovsSlot c (vrOf f)) s)

def execVcvt (c : CoreId) (f : VrOperands) (s : State) : Host.Outcome State Fault Refusal :=
  done (onSlotV c (vcvtSlot c (vrOf f)) s)

def execVswp (c : CoreId) (f : VrOperands) (s : State) : Host.Outcome State Fault Refusal :=
  done (onSlotV c (vswpSlot c (vrOf f)) s)

def execVrsum (c : CoreId) (f : VrOperands) (s : State) : Host.Outcome State Fault Refusal :=
  done (onSlotV c (vrsumSlot c (vrOf f)) s)

def execVrmax (c : CoreId) (f : VrOperands) (s : State) : Host.Outcome State Fault Refusal :=
  done (onSlotV c (vrmaxSlot c (vrOf f)) s)

def execVexp (c : CoreId) (f : VrOperands) (s : State) : Host.Outcome State Fault Refusal :=
  done (onSlotV c (vexpSlot c (vrOf f)) s)

def execVrcp (c : CoreId) (f : VrOperands) (s : State) : Host.Outcome State Fault Refusal :=
  done (onSlotV c (vrcpSlot c (vrOf f)) s)

def execVrsq (c : CoreId) (f : VrOperands) (s : State) : Host.Outcome State Fault Refusal :=
  done (onSlotV c (vrsqSlot c (vrOf f)) s)

def execVld (c : CoreId) (d : Fin 32) (ofs : Fin 8192) (ty : Fin 8) (ind : Bool) (z : Fin 16) (s : State) : Host.Outcome State Fault Refusal :=
  done (onSlotV c (vldSlot c d ofs ty ind z) s)

def execVst (c : CoreId) (src : Fin 32) (ofs : Fin 8192) (ty : Fin 8) (ind : Bool) (z : Fin 16) (s : State) : Host.Outcome State Fault Refusal :=
  done (onSlotV c (vstSlot c src ofs ty ind z) s)

def execVlds (c : CoreId) (d : Fin 16) (sz : Fin 4) (ofs : Fin 262144) (ind : Bool) (z : Fin 16) (s : State) : Host.Outcome State Fault Refusal :=
  done (onSlotV c (vldsSlot c d sz ofs ind z) s)

def execVsts (c : CoreId) (src : Fin 16) (sz : Fin 4) (ofs : Fin 262144) (ind : Bool) (z : Fin 16) (s : State) : Host.Outcome State Fault Refusal :=
  done (onSlotV c (vstsSlot c src sz ofs ind z) s)

def execQsc (c : CoreId) (src : Fin 32) (kind fmt : Fin 4) (tsi z : Fin 16) (k : Fin 4) (s : State) : Host.Outcome State Fault Refusal :=
  done (onSlotV c (qscSlot c src kind fmt tsi z k) s)

def execQnt (c : CoreId) (d src : Fin 32) (fmt kind pur k : Fin 4) (blk : Fin 128) (sub z : Fin 16) (s : State) : Host.Outcome State Fault Refusal :=
  done (onSlotV c (qntSlot c d src fmt kind pur k blk sub z) s)

def execVpsc (c : CoreId) (a : Fin 32) (line : Fin 1024) (ws : Fin 32) (z : Fin 16) (wf : Fin 4) (wid md li : Fin 2) (first : Bool) (k : Fin 4) (s : State) : Host.Outcome State Fault Refusal :=
  done (onSlotV c (vpscSlot c a line ws z wf wid md li first k) s)

def execVdq (c : CoreId) (d src : Fin 32) (fmt : Fin 4) (grp : Fin 8) (z : Fin 16) (k : Fin 4) (s : State) : Host.Outcome State Fault Refusal :=
  done (onSlotV c (vdqSlot c d src fmt grp z k) s)

def execVqkt (c : CoreId) (d x : Fin 32) (tile : Fin 1024) (sv : Fin 32) (ss : Fin 4) (fmt h : Fin 2) (first : Bool) (k : Fin 4) (s : State) : Host.Outcome State Fault Refusal :=
  done (onSlotV c (vqktSlot c d x tile sv ss fmt h first k) s)

def execVpvt (c : CoreId) (d x : Fin 32) (tile : Fin 1024) (sv : Fin 32) (ss : Fin 4) (fmt h : Fin 2) (first : Bool) (k : Fin 4) (s : State) : Host.Outcome State Fault Refusal :=
  done (onSlotV c (vpvtSlot c d x tile sv ss fmt h first k) s)

def execVsmx (c : CoreId) (d src : Fin 32) (m : Fin 4) (n : Fin 16) (first : Bool) (s : State) : Host.Outcome State Fault Refusal :=
  done (onSlotV c (vsmxSlot c d src m n first) s)

def execVctx (c : CoreId) (ks ps xs : Fin 16) (layer : Fin 256) (s : State) : Host.Outcome State Fault Refusal :=
  done (onSlotV c (vctxSlot c ks ps xs layer) s)

end Sys2Proof.Machine
end

