-- ==== Sys2Proof/Machine/Control.lean ====
section
/-!
DEFINITION. Slot T without transfers and signals (R218, R219): control flow, stitch targets and scalar immediates.
-/

namespace Sys2Proof.Machine
open Sys2Proof

/-- The slot-T unit is free in this cycle (R197). -/
def tSlot (c : CoreId) (s : State) (body : State → SlotRes) : SlotRes :=
  need (decide ((s.core c).nextT ≤ s.now)) sIllegal 2 <|
  match body s with
  | .error f => .error f
  | .ok s => .ok (s.setCore c { s.core c with nextT := s.now + 1 })

/-- PC of a core (R168). -/
def State.pc (s : State) (c : CoreId) : Nat := s.get F.coreSeqPc.pc c.ix

/-- Set the PC of a core. -/
def State.setPc (s : State) (c : CoreId) (n : Nat) : State := s.set F.coreSeqPc.pc c.ix n

/-- Sequential flow to the next bundle address, or PC_RANGE past 2,047 (R175).  [DESIGN CHOICE, log 210] -/
def State.advancePc (s : State) (c : CoreId) : SlotRes :=
  need (decide (s.pc c < 2047)) sPcRange 0 (.ok (s.setPc c (s.pc c + 1)))

/-- Replace the loop stack (R175). -/
def State.setLoops (s : State) (c : CoreId) (l : List (Nat × Nat)) : State :=
  (s.setCore c { s.core c with loops := l }).set F.coreSeqPc.loop_depth c.ix l.length

/-- END (R218): the task is DONE. -/
def endSlot (c : CoreId) (s : State) : SlotRes := tSlot c s fun s => .ok (s.set F.coreSeqTask.state c.ix qDone)

/-- JMP (R218). -/
def jmpSlot (c : CoreId) (tgt : Nat) (s : State) : SlotRes := tSlot c s fun s => .ok (s.setPc c tgt)

/-- LOOP (R175, R218): LOOP at a fifth level. -/
def loopSlot (c : CoreId) (nM1 : Nat) (s : State) : SlotRes :=
  tSlot c s fun s =>
    let l := (s.core c).loops
    need (decide (l.length < 4)) sLoop 4 ((s.setLoops c ((s.pc c + 1, nM1 + 1) :: l)).advancePc c)

/-- ELP (R175, R218). -/
def elpSlot (c : CoreId) (s : State) : SlotRes :=
  tSlot c s fun s =>
    match (s.core c).loops with
    | [] => .error { code := sLoop, detail := 0 }
    | (start, n) :: l =>
      if 1 < n then .ok ((s.setLoops c ((start, n - 1) :: l)).setPc c start)
      else (s.setLoops c l).advancePc c

/-- STLD (R219). -/
def stldSlot (c : CoreId) (i mode j imm : Nat) (s : State) : SlotRes :=
  tSlot c s fun s =>
    let base := match mode with
      | 0 => s.get F.coreSeqLaunch.stitch c.ix
      | 1 => s.stReg c i
      | _ => s.stReg c j
    need (decide (mode < 3)) sIllegal 2 (postResults c 1 [.st i ((base + imm) % 2 ^ 64)] s)

/-- SLI (R219). -/
def sliSlot (c : CoreId) (z imm : Nat) (s : State) : SlotRes :=
  tSlot c s fun s => postResults c 1 [.sreg z (BitVec.ofInt 32 (signed 20 imm))] s

/-- SLH (R219). -/
def slhSlot (c : CoreId) (z imm : Nat) (s : State) : SlotRes :=
  tSlot c s fun s => postResults c 1 [.sreg z (BitVec.ofNat 32 (imm * 2 ^ 20 + (s.sreg c z).toNat % 2 ^ 20))] s

/-- SADD (R219). -/
def saddSlot (c : CoreId) (z a imm : Nat) (s : State) : SlotRes :=
  tSlot c s fun s => postResults c 1 [.sreg z (s.sreg c a + BitVec.ofInt 32 (signed 20 imm))] s

def execEnd (c : CoreId) (s : State) : Host.Outcome State Fault Refusal := done (onSlot c 2 (endSlot c) s)

def execJmp (c : CoreId) (tgt : Fin 2048) (s : State) : Host.Outcome State Fault Refusal := done (onSlot c 2 (jmpSlot c tgt) s)

def execLoop (c : CoreId) (nM1 : Fin 65536) (s : State) : Host.Outcome State Fault Refusal := done (onSlot c 2 (loopSlot c nM1) s)

def execElp (c : CoreId) (s : State) : Host.Outcome State Fault Refusal := done (onSlot c 2 (elpSlot c) s)

def execStld (c : CoreId) (i mode j : Fin 4) (imm : BitVec 24) (s : State) : Host.Outcome State Fault Refusal :=
  done (onSlot c 2 (stldSlot c i mode j imm.toNat) s)

def execSli (c : CoreId) (z : Fin 16) (imm : BitVec 20) (s : State) : Host.Outcome State Fault Refusal :=
  done (onSlot c 2 (sliSlot c z imm.toNat) s)

def execSlh (c : CoreId) (z : Fin 16) (imm : BitVec 12) (s : State) : Host.Outcome State Fault Refusal :=
  done (onSlot c 2 (slhSlot c z imm.toNat) s)

def execSadd (c : CoreId) (z a : Fin 16) (imm : BitVec 20) (s : State) : Host.Outcome State Fault Refusal :=
  done (onSlot c 2 (saddSlot c z a imm.toNat) s)

/-- An all-zero slot issues nothing (R170). -/
def execNop (s : State) : Host.Outcome State Fault Refusal := done s

end Sys2Proof.Machine
end

