-- ==== Sys2Proof/Machine/Fabric.lean ====
section
/-!
DEFINITION. The fabric (chapter 09): geometry, links, static route latencies, dynamic routes and detours, sync objects,
signal messages, dynamic hops and static-lane errors.
-/

namespace Sys2Proof.Machine
open Sys2Proof

/-! ## Geometry (R6, R20, R22, R292) -/

/-- Module coordinates of a cluster: columns 0-63 eastward, rows 0-47 southward. -/
def cluX (c : CluId) : Nat := c.die.val % 4 * 16 + c.clu.val % 16
def cluY (c : CluId) : Nat := c.die.val / 4 * 8 + c.clu.val / 16

def cluXY? (x y : Nat) : Option CluId :=
  if x < 64 ∧ y < 48 then cluAt? (y / 8 * 4 + x / 16) (y % 8 * 16 + x % 16) else none

/-- The cluster one hop in a direction: 0 N, 1 E, 2 S, 3 W. -/
def cluNext (c : CluId) (dir : Nat) : Option CluId :=
  match dir with
  | 0 => if cluY c = 0 then none else cluXY? (cluX c) (cluY c - 1)
  | 1 => cluXY? (cluX c + 1) (cluY c)
  | 2 => cluXY? (cluX c) (cluY c + 1)
  | _ => if cluX c = 0 then none else cluXY? (cluX c - 1) (cluY c)

/-- Router port of a hop (Table 09.2). -/
def hopPort (c : CluId) (dir : Nat) : Nat :=
  match cluNext c dir with
  | some e => if e.die = c.die then dir + 1 else if dir % 2 = 0 then 5 else 6
  | none => if dir % 2 = 0 then 5 else 6

/-- The port the hop enters the next router by. -/
def enterPort (c e : CluId) (dir : Nat) : Nat :=
  if e.die = c.die then (dir + 2) % 4 + 1 else if dir % 2 = 0 then 5 else 6

/-- A hop crosses the seam (R21). -/
def isSeam (c e : CluId) (dir : Nat) : Bool :=
  decide (e.die = c.die) && decide (dir % 2 = 1) && decide ((cluX c % 16, cluX e % 16) = (7, 8) ∨ (cluX c % 16, cluX e % 16) = (8, 7))

/-- State of a router port in CLU.RTR.LINK: 0 OK, 1 UNUSED, 2 FAILED. -/
def State.linkState (s : State) (c : CluId) (port : Nat) : Nat := bitsOf (s.get F.cluRtrLink.state c.ix) (2 * (port - 1)) 2

/-- Set the state of a link. -/
def State.setLink (s : State) (c : CluId) (port st : Nat) : State :=
  s.set F.cluRtrLink.state c.ix (putBits (s.get F.cluRtrLink.state c.ix) (2 * (port - 1)) 2 st)

/-- A hop can be taken: both ends of its link are OK. -/
def State.hopOk (s : State) (c : CluId) (dir : Nat) : Bool :=
  match cluNext c dir with
  | none => false
  | some e => decide (s.linkState c (hopPort c dir) = 0) && decide (s.linkState e (enterPort c e dir) = 0)

/-- A hop is over a FAILED link (R309). -/
def State.hopFailed (s : State) (c : CluId) (dir : Nat) : Bool :=
  match cluNext c dir with
  | none => true
  | some e => decide (s.linkState c (hopPort c dir) = 2) || decide (s.linkState e (enterPort c e dir) = 2)

/-- Reported latency of a bridge (R23). -/
def State.bridgeLat (s : State) (d e : Nat) : Nat := s.get F.stwXingBridge.lat_cc (Ix.stw d e)

/-- The lead steward's die of a partition: its lowest lit die (R156, R509). -/
def State.leadDie (s : State) (p : Nat) : Nat :=
  let ds := s.diesOf p
  (((ds.filter fun d => !s.dieDark d).head?).orElse fun _ => ds.head?).getD 31

/-- The module, or the partition that holds the die, is in ember mode (R513). -/
def State.dieEmber (s : State) (d : Nat) : Bool :=
  s.bit F.nirEmberStat.module (Ix.mod) ||
  (match s.partOf d with
    | some p => (s.get F.nirEmberStat.parts (Ix.mod)).testBit p
    | none => false)

/-- Region power states (Table 14.10). -/
def rOff : Nat := 0
def rPrep : Nat := 1
def rWait : Nat := 2
def rLadder : Nat := 3
def rClearing : Nat := 4
def rOn : Nat := 5
def rDown : Nat := 6
def rDead : Nat := 7

/-- The region is powered and its die is not dark. -/
def State.regionOn (s : State) (c : CluId) : Bool :=
  decide (s.get F.cluPwrStat.state c.ix = rOn) && !s.dieDark c.die.val

/-! ## Static routes (R295, R297, R298) -/

/-- Accumulated leg: place, latency so far, narrowest width, lane hops of the current run. -/
structure Leg where
  at_ : CluId
  lat : Nat
  width : Nat
  run : Nat
  deriving DecidableEq, Repr

/-- Latency of a closed run of lane hops. -/
def runLat (a : Nat) : Nat := if a = 0 then 0 else 3 * (a + 1)

/-- One hop of a route; a hop off the grid ends it. -/
def State.legHop (s : State) (l : Leg) (hop : Nat) : Option Leg :=
  let dir := hop % 4
  let near := hop / 4 % 2 = 1
  match cluNext l.at_ dir with
  | none => none
  | some e =>
    if e.die = l.at_.die then
      let seam := if isSeam l.at_ e dir then 4 else 0
      if near then some ⟨e, l.lat + runLat l.run + 6 + seam, l.width, 0⟩
      else some ⟨e, l.lat + seam, min l.width 16, l.run + 1⟩
    else some ⟨e, l.lat + runLat l.run + s.bridgeLat l.at_.die.val dir, min l.width (if dir % 2 = 0 then 16 else 32), 0⟩

def State.legHops (s : State) (l : Leg) : List Nat → Option Leg
  | [] => some l
  | h :: hs =>
    match s.legHop l h with
    | none => none
    | some l' => s.legHops l' hs

/-- Hop fields of route n of a cluster. -/
def State.routeHops (s : State) (c : CluId) (n : Nat) : List Nat :=
  (List.range (min (s.get F.cluRtrRoute.nhop (c.ix n)) 38)).map fun k => bitsOf (s.get F.cluRtrRoute.hop (c.ix n)) (6 * k) 6

/-- Latency, width and end of route n. -/
def State.routeLeg (s : State) (c : CluId) (n : Nat) : Option (Nat × Nat × CluId) :=
  if !s.bit F.cluRtrRoute.valid (c.ix n) then none
  else match s.routeHops c n with
    | [] => some (3, 64, c)
    | hs =>
      match s.legHops ⟨c, 0, 64, 0⟩ hs with
      | none => none
      | some l => some (l.lat + runLat l.run, l.width, l.at_)

/-- Write CLU.RTR.RLAT of a cluster's routes at activation (R298). -/
def State.writeRlat (s : State) (c : CluId) : State :=
  forAll (List.range 16) (fun n s =>
    match s.routeLeg c n with
    | none => s.sets (c.ix n) [(F.cluRtrRlat.lat_cc, 0), (F.cluRtrRlat.width, 0), (F.cluRtrRlat.valid, 0)]
    | some (l, w, _) => s.sets (c.ix n) [(F.cluRtrRlat.lat_cc, l), (F.cluRtrRlat.width, w), (F.cluRtrRlat.valid, 1)]) s

/-! ## Dynamic routes (R299, R502, R503) -/

/-- Next direction by dimension order: to the destination's die column, then die row, then the cluster's column and row. -/
def dimOrder (c d : CluId) : Option Nat :=
  let dx := c.die.val % 4
  let dy := c.die.val / 4
  let tx := d.die.val % 4
  let ty := d.die.val / 4
  if dx < tx then some 1 else if tx < dx then some 3
  else if dy < ty then some 2 else if ty < dy then some 0
  else if cluX c < cluX d then some 1 else if cluX d < cluX c then some 3
  else if cluY c < cluY d then some 2 else if cluY d < cluY c then some 0
  else none

/-- A link of a die is out of use for its rewritten route tables: it is listed as failed when they were written. -/
def avoided (bad : List (Nat × Nat)) (c e : CluId) (dir : Nat) : Bool :=
  bad.any fun b => decide (b = (c.clu.val, hopPort c dir)) || decide (b = (e.clu.val, enterPort c e dir))

/-- Level of a cluster in the spanning tree rooted at cluster (0, 0) over the links in use: breadth first. -/
def treeLevels (bad : List (Nat × Nat)) : Nat → List CluId → List (CluId × Nat) → Nat → List (CluId × Nat)
  | 0, _, acc, _ => acc
  | fuel + 1, frontier, acc, lvl =>
    let new := frontier.foldl (fun (t : List CluId) c =>
      [1, 3, 2, 0].foldl (fun t dir =>
        match cluNext c dir with
        | none => t
        | some e =>
          if e.die ≠ c.die ∨ avoided bad c e dir ∨ t.contains e ∨ acc.any (fun p => decide (p.1 = e)) then t else t ++ [e]) t) []
    if new.isEmpty then acc else treeLevels bad fuel new (acc ++ new.map fun c => (c, lvl + 1)) (lvl + 1)

/-- Level of a cluster in a tree of detours. -/
def levelOf (lv : List (CluId × Nat)) (c : CluId) : Option Nat := Map.find lv c

/-- A hop goes up: towards the root, by level and then by cluster index. -/
def goesUp (lv : List (CluId × Nat)) (c e : CluId) : Bool :=
  match levelOf lv c, levelOf lv e with
  | some a, some b => decide (b < a) || (decide (b = a) && decide (e.clu.val < c.clu.val))
  | _, _ => false

/-- Shortest up*/down* path to `dst`: breadth first over (cluster, whether a down hop has been taken, first direction). -/
def searchPath (bad : List (Nat × Nat)) (lv : List (CluId × Nat)) (dst : CluId) :
    Nat → List (CluId × Bool × Nat) → List (CluId × Bool) → Option Nat
  | 0, _, _ => none
  | fuel + 1, frontier, seen =>
    match frontier.find? fun f => decide (f.1 = dst) with
    | some f => some f.2.2
    | none =>
      let new := frontier.foldl (fun (t : List (CluId × Bool × Nat)) f =>
        [1, 3, 2, 0].foldl (fun t dir =>
          match cluNext f.1 dir with
          | none => t
          | some e =>
            let down := !goesUp lv f.1 e
            if e.die ≠ f.1.die ∨ avoided bad f.1 e dir ∨ (f.2.1 ∧ ¬ down) ∨ seen.contains (e, down) ∨
              t.any (fun p => decide (p.1 = e) && p.2.1 == down) then t
            else t ++ [(e, down, f.2.2)]) t) []
      if new.isEmpty then none else searchPath bad lv dst fuel new (seen ++ new.map fun p => (p.1, p.2.1))

/-- Next direction within a die by its rewritten route tables (R502). -/
def tableRoute (bad : List (Nat × Nat)) (c d : CluId) : Option Nat :=
  let root : CluId := ⟨c.die, ⟨0, by omega⟩⟩
  let lv := treeLevels bad 128 [root] [(root, 0)] 0
  let starts := [1, 3, 2, 0].filterMap fun dir =>
    match cluNext c dir with
    | none => none
    | some e => if e.die ≠ c.die ∨ avoided bad c e dir then none else some (e, !goesUp lv c e, dir)
  searchPath bad lv d 256 starts [(c, false)]

/-- The cluster of the edge `dir` of a die whose slice is OK and nearest to the one wanted, lower index on a tie (R503). -/
def State.edgeSlice (s : State) (c : CluId) (dir : Nat) : Option CluId :=
  let d := c.die.val
  let at_ := fun k => if dir % 2 = 0 then cluAt? d ((if dir = 0 then 0 else 112) + k) else cluAt? d (16 * k + if dir = 1 then 15 else 0)
  let want := if dir % 2 = 0 then c.clu.val % 16 else c.clu.val / 16
  let n := if dir % 2 = 0 then 16 else 8
  let ok := fun k =>
    match at_ k with
    | some e => s.hopOk e dir
    | none => false
  let dist := fun k => if k ≤ want then want - k else k - want
  let best := (List.range n).foldl (fun (t : Option Nat) k =>
    if ok k then
      match t with
      | none => some k
      | some b => if dist k < dist b then some k else t
    else t) none
  match best with
  | none => none
  | some k => at_ k

/-- Next direction within a die: the route tables' once rewritten, else dimension order. -/
def State.inDie (s : State) (c d : CluId) : Option Nat :=
  match Map.find s.rerouted c.die.val with
  | none => dimOrder c d
  | some bad => tableRoute bad c d

/-- Next direction of a dynamic packet at c bound for d: on another die, over the nearest OK slice of the exit edge, else the
other dimension first; none where no path is left. -/
def State.dynNext (s : State) (c d : CluId) : Option Nat :=
  if c.die = d.die then s.inDie c d
  else
    let cross := fun dir =>
      match s.edgeSlice c dir with
      | none => none
      | some e => if e = c then some dir else s.inDie c e
    let xdir := if c.die.val % 4 < d.die.val % 4 then some 1 else if d.die.val % 4 < c.die.val % 4 then some 3 else none
    let ydir := if c.die.val / 4 < d.die.val / 4 then some 2 else if d.die.val / 4 < c.die.val / 4 then some 0 else none
    let try_ := fun (o : Option Nat) =>
      match o with
      | some dir => cross dir
      | none => none
    match try_ xdir with
    | some dir => some dir
    | none => try_ ydir

/-- Whether a dynamic packet at c can reach d over OK links. -/
def State.dynPath (s : State) (d : CluId) : Nat → CluId → Bool
  | 0, _ => false
  | fuel + 1, c =>
    if c = d then true
    else match s.dynNext c d with
      | none => false
      | some dir =>
        if !s.hopOk c dir then false
        else match cluNext c dir with
          | none => false
          | some e => s.dynPath d fuel e

/-- A dynamic path exists (R299, R503). -/
def State.dynReach (s : State) (c d : CluId) : Bool := s.dynPath d 512 c

/-- Routers passed, seam links and bridge cycles of the dimension-order path (R304). -/
def State.sigPath (s : State) (d : CluId) : Nat → CluId → Nat × Nat × Nat
  | 0, _ => (1, 0, 0)
  | fuel + 1, c =>
    match dimOrder c d with
    | none => (1, 0, 0)
    | some dir =>
      match cluNext c dir with
      | none => (1, 0, 0)
      | some e =>
        let r := s.sigPath d fuel e
        (r.1 + 1, r.2.1 + (if isSeam c e dir then 1 else 0), r.2.2 + (if e.die = c.die then 0 else s.bridgeLat c.die.val dir))

/-- Cycles from issue to the earliest update by a signal message, less one: 2r + 4s + bridges. -/
def State.sigLat (s : State) (c d : CluId) : Nat :=
  let r := s.sigPath d 128 c
  2 * r.1 + 4 * r.2.1 + r.2.2

/-- A dynamic packet's uncontended latency: 3 a router, 4 a seam, the bridges (R300). -/
def State.dynLat (s : State) (c d : CluId) : Nat :=
  let r := s.sigPath d 128 c
  3 * r.1 + 4 * r.2.1 + r.2.2

/-! ## Sync objects (R304-R307) -/

/-- The first cycle from t in which no update waits at an input port of a sync unit: a port takes one a cycle (R305). -/
def portFree (q : List SyncUpd) (c : CluId) (port : Nat) : Nat → Nat → Nat
  | 0, t => t
  | fuel + 1, t => if q.any fun u => decide (u.clu = c ∧ u.port = port ∧ u.due = t) then portFree q c port fuel (t + 1) else t

/-- Insert an update behind those due earlier, resets before increments of the same cycle (R306). -/
def insertUpd (u : SyncUpd) : List SyncUpd → List SyncUpd
  | [] => [u]
  | x :: xs =>
    if u.due < x.due ∨ (u.due = x.due ∧ u.reset ∧ ¬ x.reset) then u :: x :: xs else x :: insertUpd u xs

/-- Present an update to a sync unit (R304), in the first cycle its input port is free (R305). -/
def State.addSync (s : State) (u : SyncUpd) : State :=
  { s with syncQ := insertUpd { u with due := portFree s.syncQ u.clu u.port s.syncQ.length u.due } s.syncQ }

/-- Apply one update: a count stops at 0xFFFF with OVF; a reset leaves OVF.  [DEDUCED, log 91] -/
def applySync (s : State) (u : SyncUpd) : State :=
  let ix := u.clu.ix u.obj
  let s := if u.reset then s.set F.cluSynObj.count ix 0 else s
  if u.inc = 0 then s
  else
    let v := s.get F.cluSynObj.count ix + u.inc
    let s := s.inc F.cluSynStat.signals u.clu.ix
    if 65535 < v then ((s.set F.cluSynObj.count ix 65535).raise F.cluSynObj.ovf ix).inc F.cluSynStat.ovf u.clu.ix
    else s.set F.cluSynObj.count ix v

/-- Apply every update of an earlier cycle: a test, read or copy sees the count before the updates of its own cycle. -/
def State.settleSync (s : State) : State :=
  let due := s.syncQ.filter fun u => decide (u.due < s.now)
  if due.isEmpty then s
  else due.foldl applySync { s with syncQ := s.syncQ.filter fun u => !decide (u.due < s.now) }

/-- A core cycle begins: updates of earlier cycles stand, and what this cycle's units read of the cycle before is the register file as
it is now. -/
def State.beginCycle (s : State) : State := { s.settleSync with cycleRegs := some s.settleSync.regs }

/-! ## Slot T: SIGL, SRST, SIG (R222, R304) -/

/-- An update of the own cluster's object at the next cycle (R304). -/
def syncSlot (c : CoreId) (obj : Nat) (reset : Bool) (inc : Nat) (s : State) : SlotRes :=
  tSlot c s fun s => .ok (s.settleSync.addSync ⟨s.now + 1, c.cluId, obj, reset, inc, c.core⟩)

/-- SIGL (R222, R304).  [DEDUCED, log 90] -/
def siglSlot (c : CoreId) (obj inc : Nat) (s : State) : SlotRes :=
  if inc = 0 then .error { code := sIllegal, detail := 2 } else syncSlot c obj false inc s

/-- SRST (R222, R304). -/
def srstSlot (c : CoreId) (obj : Nat) (s : State) : SlotRes := syncSlot c obj true 0 s

/-- A descriptor's 256 bits. -/
def State.descWord (s : State) (c : CoreId) (d : Nat) : Nat := s.get F.coreDesc.desc (c.ix d)

/-- The physical cluster a virtual cluster of the core's partition is bound to (R335). -/
def State.bound (s : State) (die vd vcl : Nat) : Option CluId :=
  match s.partOf die with
  | none => none
  | some p => Map.find s.tack ⟨p, vd, vcl⟩

/-- A torus module ID this module can send to (R418). -/
def State.torusOk (s : State) (id : Nat) : Bool :=
  let own := s.get F.nirTorusId.id (Ix.mod)
  decide (id / 4096 = own / 4096) && decide (id % 16 < s.get F.nirTorusId.sx_m1 (Ix.mod) + 1) &&
    decide (id / 16 % 16 < s.get F.nirTorusId.sy_m1 (Ix.mod) + 1) &&
    decide (id / 256 % 16 < s.get F.nirTorusId.sz_m1 (Ix.mod) + 1) && decide (id ≠ own)

/-- Header of a frame from its fields (Table 13.2). -/
def frameHdr (ty vc : Nat) (first last : Bool) (dst src part len32 xid ext : Nat) : BitVec 192 :=
  BitVec.ofNat 192 (ty + vc * 2 ^ 4 + boolNat last * 2 ^ 7 + dst * 2 ^ 16 + src * 2 ^ 32 + part * 2 ^ 48 + boolNat first * 2 ^ 51 +
    len32 * 2 ^ 52 + xid * 2 ^ 64 + ext * 2 ^ 80)

/-- SIG (R222): a message to the bound cluster's object; an unbound one is dropped by the issuing router; with MODX a SIGNAL
frame, or nothing where R418 refuses it. -/
def sigSlot (c : CoreId) (d : Nat) (s : State) : SlotRes :=
  tSlot c s fun s =>
    let w := s.descWord c d
    need (decide (bitsOf w 0 4 = 2)) sIllegal 2 <|
    let fixed := bitsOf w 4 1 = 1
    need (!decide fixed || s.bit F.coreSeqTask.anchor c.ix) sUnanchored 2 <|
    let vd := bitsOf w 5 5
    let vcl := bitsOf w 10 7
    let obj := bitsOf w 17 7
    let inc := bitsOf w 24 8
    if bitsOf w 32 1 = 1 then
      let id := bitsOf w 33 16
      if s.torusOk id then
        let hdr := frameHdr 3 2 false false id (s.get F.nirTorusId.id (Ix.mod)) ((s.partOf c.die.val).getD 0) 0 0
          (vd + vcl * 2 ^ 5 + obj * 2 ^ 12 + inc * 2 ^ 19)
        .ok { s with inject := s.inject ++ [⟨hdr, []⟩] }
      else .ok s
    else match s.bound c.die.val vd vcl with
      | none => .ok (s.inc F.cluRtrCnt.sigdrop c.cluId.ix)
      | some t =>
        .ok { s with msgs := s.msgs ++ [{ body := .signal obj inc, src := c, at_ := c.cluId, dst := t,
                                          ready := s.now + 1 + s.sigLat c.cluId t, since := s.now + 1 }] }

def execSig (c : CoreId) (d : Fin 64) (s : State) : Host.Outcome State Fault Refusal := done (onSlot c 2 (sigSlot c d) s)

def execSigl (c : CoreId) (obj : Fin 128) (inc : Fin 256) (s : State) : Host.Outcome State Fault Refusal :=
  done (onSlot c 2 (siglSlot c obj inc) s)

def execSrst (c : CoreId) (obj : Fin 128) (s : State) : Host.Outcome State Fault Refusal :=
  done (onSlot c 2 (srstSlot c obj) s)

/-! ## Attachments of the torus ports (Tables 13.1 and 16.8) -/

/-- Die a port attaches to. -/
def attachDie : Nat → Nat
  | 0 => 3
  | 1 => 0
  | 2 => 2
  | 3 => 1
  | 4 => 3
  | _ => 0

/-- Its alternate. -/
def altDie : Nat → Nat
  | 0 => 2
  | 1 => 1
  | 2 => 3
  | 3 => 0
  | 4 => 7
  | _ => 4

/-- A die that can attach a port: populated and not dark. -/
def State.attaches (s : State) (d : Nat) : Bool := decide (d < s.dieCount) && !s.dieDark d

/-- A dark die's port moves to its alternate (R504). -/
def State.attachMoves (s : State) (d : Nat) : Bool := (List.range 6).any fun p => decide (attachDie p = d) && s.attaches (altDie p)

/-! ## Links that fail (R301, R309) -/

/-- FABRIC-LINK (Table 09.5). -/
def State.fabricLink (s : State) (by_ die clu port kind lane halt at_ : Nat) : State :=
  s.emit 0x0011 2 by_ (s.partOf by_) [(at_, 64), (die, 5), (clu, 7), (port, 3), (kind, 2), (lane, 2), (halt, 64)]

/-- Count a change of the floor plan (R501). -/
def State.fpChange (s : State) : State :=
  (s.incWrap F.nirFpHead.gen (Ix.mod)).set F.nirFpHead.changed (Ix.mod) s.stitch

/-- Mark a link FAILED at both ends, in the floor plan too. -/
def State.failLink (s : State) (c e : CluId) (dir : Nat) : State :=
  let s := (s.setLink c (hopPort c dir) 2).setLink e (enterPort c e dir) 2
  let s := s.set F.nirFpClu.links (Ix.mod c.die c.clu) (s.get F.cluRtrLink.state c.ix)
  (s.set F.nirFpClu.links (Ix.mod e.die e.clu) (s.get F.cluRtrLink.state e.ix)).fpChange

/-- End a transfer with a status unless one is decided. -/
def State.endXfer (s : State) (id st : Nat) : State :=
  { s with flights := s.flights.map fun x => if x.id = id ∧ x.status = none then { x with status := some st } else x }

/-- Message i of the list, removed. -/
def dropMsg (s : State) (i : Nat) : State := { s with msgs := s.msgs.eraseIdx i }

/-- A signal's next hop is over a FAILED link or into a dark or ember die: the router that holds it discards it (R309). -/
def State.sigBlocked (s : State) (c d : CluId) : Option Nat :=
  match dimOrder c d with
  | none => none
  | some dir =>
    match cluNext c dir with
    | none => some dir
    | some e => if s.hopFailed c dir ∨ s.dieDark e.die.val ∨ s.dieEmber e.die.val then some dir else none

/-- Discard message i at router c: SIGDROP, and FABRIC-LINK KIND 2 for a link not reported before (R309). -/
def sigDrop (i : Nat) (c : CluId) (dir : Nat) (s : State) : State :=
  let s := (dropMsg s i).inc F.cluRtrCnt.sigdrop c.ix
  let key := (c.die.val, c.clu.val, hopPort c dir)
  if !s.reported.contains key then
    match cluNext c dir with
    | none => s
    | some e => ({ s with reported := key :: s.reported }).fabricLink c.die e.die e.clu (enterPort c e dir) 2 0 0 s.stitch
  else s

/-- Earlier signals of one source to one object are still on their way: order is kept (R308). -/
def signalAhead (ms : List Msg) (i : Nat) (m : Msg) (obj : Nat) : Bool :=
  (ms.take i).any fun x => decide (x.src = m.src) && decide (x.dst = m.dst) &&
    (match x.body with
      | .signal o _ => decide (o = obj)
      | _ => false)

/-- The sync unit has taken this cycle's update from the signal network (R305). -/
def State.sigPortTaken (s : State) (c : CluId) : Bool := s.syncQ.any fun u => decide (u.clu = c ∧ u.port = 4 ∧ u.due = s.now)

/-- Message i, at its object's cluster, presents its increment in this cycle, one message a cycle (R305, R308); a message whose next hop
is blocked is discarded where it is (R309). -/
def signalMessage (i : Nat) (s : State) : State :=
  match s.msgs[i]? with
  | none => s
  | some m =>
    match m.body with
    | .signal obj inc =>
      match s.sigBlocked m.at_ m.dst with
      | some dir => sigDrop i m.at_ dir s
      | none =>
        if m.at_ ≠ m.dst ∨ s.now < m.ready ∨ s.now < m.since + 2 ∨ signalAhead s.msgs i m obj then s
        else if s.sigPortTaken m.dst then s.inc F.cluRtrCnt.waits m.dst.ix
        else ((dropMsg s i).settleSync).addSync ⟨s.now, m.dst, obj, false, inc, 4⟩
    | _ => s

def execSignalMessage (i : Nat) (s : State) : Host.Outcome State Fault Refusal := done (signalMessage i s)

/-! ## Hops of dynamic flits (R300, R301, R308) -/

/-- The lane a message uses: the dynamic lane's VC0 (requests and write data), its VC1 (completions), or the signal slot (R293, R300). -/
def MsgBody.lane : MsgBody → Nat
  | .xfer _ => 0
  | .compl _ => 1
  | .signal _ _ => 2

/-- Cycles a message spends in a router before it can leave it (R300, R304). -/
def MsgBody.stay (b : MsgBody) : Nat := if b.lane = 2 then 2 else 3

/-- The direction a message takes from where it is (R299, R503). -/
def State.msgDir (s : State) (m : Msg) : Option Nat := if m.body.lane = 2 then dimOrder m.at_ m.dst else s.dynNext m.at_ m.dst

/-- The receive buffer of a virtual channel at a port holds 4 flits; a longer packet fills it (R300). -/
def bufferFull (s : State) (m : Msg) (e : CluId) (port : Nat) : Bool :=
  decide (m.body.lane ≠ 2) && decide (4 ≤ ((s.msgs.filter fun x => decide (x.at_ = e ∧ x.port = port ∧ x.body.lane = m.body.lane)).map
    fun x => min 4 x.flits).sum)

/-- Of two messages that want one output, the first is served first: VC1 before VC0, then the one that has waited longer, then the lower
port (R300, R311). -/
def goesFirst (a b : Msg) : Bool :=
  decide (b.body.lane < a.body.lane) || (decide (a.body.lane = b.body.lane) &&
    (decide (a.since < b.since) || (decide (a.since = b.since) && decide (a.port < b.port))))

/-- Another message takes the output first: it is ready, has room ahead, and is served before message i. -/
def State.outputLost (s : State) (i : Nat) (m : Msg) (dir : Nat) (e : CluId) (port : Nat) : Bool :=
  s.msgs.zipIdx.any fun p =>
    decide (p.2 ≠ i ∧ p.1.at_ = m.at_ ∧ (p.1.body.lane = 2 ↔ m.body.lane = 2)) && decide (s.msgDir p.1 = some dir) &&
      decide (p.1.since + p.1.body.stay ≤ s.now) && !bufferFull s p.1 e port && goesFirst p.1 m

/-- First cycle in which a lane of an output is free. -/
def State.laneFree (s : State) (c : CluId) (dir lane : Nat) : Nat := Map.getD s.laneUse (c, dir, lane) 0

/-- The output is taken in this cycle: a signal slot moves one message a cycle, the dynamic lane 16 B, which VC1 may take from a packet
of VC0 (R291, R300). -/
def State.outputBusy (s : State) (m : Msg) (dir : Nat) : Bool :=
  decide (s.now < s.laneFree m.at_ dir m.body.lane) || (decide (m.body.lane = 0) && decide (s.now < s.laneFree m.at_ dir 1))

/-- A message takes its output for one cycle a flit; one on VC1 holds up a packet of VC0. -/
def State.takeOutput (s : State) (m : Msg) (dir : Nat) : State :=
  let u := Map.put s.laneUse (m.at_, dir, m.body.lane) (s.now + m.flits)
  { s with laneUse := if m.body.lane = 1 then Map.put u (m.at_, dir, 0) (max s.now (s.laneFree m.at_ dir 0) + m.flits) else u }

/-- Cycles a hop adds to those in its routers: a seam link, a bridge (R300, R304). -/
def State.hopExtra (s : State) (c e : CluId) (dir : Nat) : Nat :=
  if e.die = c.die then (if isSeam c e dir then 4 else 0) else s.bridgeLat c.die.val dir

/-- The message at the next router. -/
def State.hopped (s : State) (m : Msg) (e : CluId) (dir : Nat) : Msg :=
  { m with at_ := e, tries := 0, since := s.now + s.hopExtra m.at_ e dir, port := enterPort m.at_ e dir }

/-- A dynamic packet that can go no further completes WINDOW_CLOSED at its source (R301, R503). -/
def strand (i : Nat) (m : Msg) (s : State) : State :=
  match m.body with
  | .xfer id => (dropMsg s i).endXfer id 3
  | .compl id => { dropMsg s i with flights := s.flights.map fun x => if x.id = id then { x with status := some 3 } else x }
  | .signal _ _ => s

/-- A flit that failed its parity check is retried and counted; after 16 failed retries in a row the link is FAILED and what it strands
completes WINDOW_CLOSED or is discarded. -/
def hopRetry (i : Nat) (m : Msg) (e : CluId) (dir : Nat) (s : State) : State :=
  if m.tries < 16 then { s.inc F.cluRtrErr.retry e.ix with msgs := s.msgs.set i { m with tries := m.tries + 1 } }
  else
    let s := s.failLink m.at_ e dir
    if m.body.lane = 2 then sigDrop i m.at_ dir s
    else
      let s := strand i m s
      ({ s with reported := (m.at_.die.val, m.at_.clu.val, hopPort m.at_ dir) :: s.reported }).fabricLink m.at_.die e.die e.clu
        (enterPort m.at_ e dir) 1 0 0 s.stitch

/-- A signal waiting for the same output that names the same object, with a sum of at most 255 (R308). -/
def mergeWith (ms : List Msg) (i : Nat) (m : Msg) (obj inc : Nat) : Option (Nat × Nat) :=
  (ms.zipIdx.find? fun p => decide (p.2 ≠ i) && decide (p.1.at_ = m.at_) && decide (p.1.dst = m.dst) &&
    (match p.1.body with
      | .signal o n => decide (o = obj) && decide (n + inc ≤ 255)
      | _ => false)).map fun p =>
    (p.2, match p.1.body with
      | .signal _ n => n
      | _ => 0)

/-- Message i at a router whose way on is open asks for its output: it merges with a signal that waits there too, waits for the
output or for room ahead, is retried, or moves on. -/
def hopOn (i : Nat) (ok : Bool) (m : Msg) (dir : Nat) (e : CluId) (s : State) : State :=
  let port := enterPort m.at_ e dir
  if s.now < m.since + m.body.stay ∨ bufferFull s m e port then s
  else if s.outputBusy m dir || s.outputLost i m dir e port then s.inc F.cluRtrCnt.waits m.at_.ix
  else if !ok then hopRetry i m e dir (s.takeOutput m dir)
  else
    let s := { s.takeOutput m dir with msgs := s.msgs.set i (s.hopped m e dir) }
    if m.body.lane = 2 then s else s.inc F.cluRtrCnt.dynpkt m.at_.ix

/-- Message i moves one hop, merges with one that waits for the same output, or its flit fails its check; what has no way on is discarded
or completes. -/
def flitHop (i : Nat) (ok : Bool) (s : State) : State :=
  match s.msgs[i]? with
  | none => s
  | some m =>
    if m.at_ = m.dst then s
    else match s.msgDir m, m.body with
    | none, _ => strand i m s
    | some dir, .signal obj inc =>
      if (s.sigBlocked m.at_ m.dst).isSome then sigDrop i m.at_ dir s
      else match mergeWith s.msgs i m obj inc, cluNext m.at_ dir with
        | some (j, n), _ =>
          ({ s with msgs := (s.msgs.set j { m with body := .signal obj (n + inc) }).eraseIdx i }).inc F.cluRtrCnt.sigmerge m.at_.ix
        | none, some e => hopOn i ok m dir e s
        | none, none => s
    | some dir, _ =>
      match cluNext m.at_ dir with
      | none => strand i m s
      | some e => if s.hopOk m.at_ dir then hopOn i ok m dir e s else strand i m s

def execDynamicFlitHop (i : Nat) (ok : Bool) (s : State) : Host.Outcome State Fault Refusal := done (flitHop i ok s)

/-- Cycles after its launch in which a static transfer's first flit reaches a router by a port, on a lane its route owns there.
[DESIGN CHOICE, log 180] -/
def State.flitLat (s : State) (c : CluId) (port lane : Nat) (l : Leg) : List Nat → Option Nat
  | [] => none
  | h :: hs =>
    match s.legHop l h with
    | none => none
    | some l' =>
      if l'.at_ = c ∧ enterPort l.at_ c (h % 4) = port ∧ (c.die ≠ l.at_.die ∨ h / 4 % 2 = 1 ∨ h / 8 % 4 = lane) then some (l'.lat + 3 * l'.run)
      else s.flitLat c port lane l' hs

/-- The flit a router discards is lost to the static transfer whose route owns the lane (R296, R301). -/
def State.loseFlit (s : State) (c : CluId) (port lane : Nat) (x : Xfer) : Xfer :=
  let k := x.core.cluId
  match x.launched, s.flitLat c port lane ⟨k, 0, 64, 0⟩ (s.routeHops k x.chan) with
  | some t, some l =>
    let w := max 1 (s.get F.cluRtrRlat.width (k.ix x.chan) / 16)
    let u := (s.now - t - l) * w + lane % w
    if x.fixed ∧ x.srck ≠ 2 ∧ x.status = none ∧ t + l ≤ s.now ∧ 16 * u < x.total then { x with holes := u :: x.holes } else x
  | _, _ => x

/-- A static-lane flit fails its check at the router that receives it: discarded, recorded, and the partition halts (R301). -/
def staticLaneError (c : CluId) (port lane : Nat) (s : State) : State :=
  let s := ((s.sets c.ix [(F.cluRtrErr.port, port), (F.cluRtrErr.lane, lane)]).raise F.cluRtrErr.static_err c.ix).set
    F.cluRtrErrstitch.stitch c.ix s.stitch
  let s := { s with flights := s.flights.map (s.loseFlit c port lane) }
  match s.partOf c.die.val with
  | none => s
  | some p => s.assertHalt p ⟨s.now, c.die, c.clu, 0⟩ false

def execStaticLaneError (c : CluId) (port : Fin 7) (lane : Fin 4) (s : State) : Host.Outcome State Fault Refusal :=
  done (staticLaneError c port lane s)

/-- HSIG (R304): the steward resets the object and/or adds INC when the write reaches the sync unit; 0 without RST does
nothing. -/
def hsigWrite (c : CluId) (obj inc : Nat) (rst : Bool) (s : State) : State :=
  if inc = 0 ∧ ¬ rst then s else s.settleSync.addSync ⟨s.now, c, obj, rst, inc, 6⟩

def execHsigWrite (c : CluId) (obj : Fin 128) (inc : Fin 256) (rst : Bool) (s : State) : Host.Outcome State Fault Refusal :=
  done (hsigWrite c obj inc rst s)

/-- Failed near and seam links of a die, as (cluster, port). -/
def State.failedLinks (s : State) (die : Nat) : List (Nat × Nat) :=
  (List.range 128).flatMap fun i =>
    match cluAt? die i with
    | none => []
    | some c => ([1, 2, 3, 4].filter fun p => decide (s.linkState c p = 2)).map fun p => (i, p)

/-- The steward rewrites its die's route tables for the links FAILED now (R502). -/
def routeTableRewrite (die : DieIx) (s : State) : State :=
  let bad := s.failedLinks die
  { s with rerouted := if bad.isEmpty then Map.del s.rerouted die.val else Map.put s.rerouted die.val bad }

def execRouteTableRewrite (die : DieIx) (s : State) : Host.Outcome State Fault Refusal := done (routeTableRewrite die s)

end Sys2Proof.Machine
end

