-- ==== Sys2Proof/Machine/Planes.lean ====
section
/-!
DEFINITION. Weight planes (R59, R85-R92): row writes and readbacks at a core's port, and clears.
-/

namespace Sys2Proof.Machine
open Sys2Proof

/-- Table 08.7 and R12 status codes. -/
def xOk : Nat := 0
/-- OUT_OF_WINDOW (Table 08.7). -/
def xOutOfWindow : Nat := 1
def xSourceDenied : Nat := 2
def xWindowClosed : Nat := 3
def xAddressFault : Nat := 4
def xAlignFault : Nat := 5
def xArrayBusy : Nat := 6
def xUnavailable : Nat := 7
def xEccUe : Nat := 8
def xCheckMismatch : Nat := 9
def xChannelFull : Nat := 10
def xMarkedSource : Nat := 11
def xLinkFail : Nat := 12

/-- Codes of a Q2 row with every skip code 10 replaced by 00, and how many were (R59). -/
def stripSkip (bs : List Byte) : List Byte × Nat :=
  let n := bytesToNat bs
  let r := (List.range 128).foldl (fun (t : Nat × Nat) i =>
    if bitsOf n (2 * i) 2 = 2 then (t.1 - 2 * 2 ^ (2 * i), t.2 + 1) else t) (n, 0)
  (natToBytes 32 r.1, r.2)

/-- Array and row of a weight-plane offset (Table 02.8). -/
def planeArr (ofs : Nat) : Fin 64 := ⟨ofs / 8192 % 64, Nat.mod_lt _ (by decide)⟩
/-- Row of a weight-plane offset (Table 02.8). -/
def planeRow (ofs : Nat) : Nat := ofs / 32 % 256

/-- The array accepts a row write: IDLE, LOADING or ACCESS (R89), its own clear ended (R92), and in a streaming harness not
of the computing set (R85). -/
def State.acceptsWrite (s : State) (a : ArrId) : Bool :=
  (decide (s.arrState a = aIdle) || decide (s.arrState a = aAccess)) && !s.awaitsClear a &&
    !(s.bit F.coreArrstat.streaming a.coreId.ix && decide (s.computeSet a.coreId = a.arr.val / 32))

/-- The array accepts a readback: IDLE, LOADING, ACCESS, and RETIRED (R90, Table 02.9); each row by itself.  [DEDUCED, log 84] -/
def State.acceptsRead (s : State) (a : ArrId) : Bool :=
  (decide (s.arrState a = aIdle) || decide (s.arrState a = aAccess) || decide (s.arrState a = aRetired)) && !s.awaitsClear a

/-- The array is in ACCESS until a cycle. -/
def State.access (s : State) (a : ArrId) (t : Nat) : State :=
  let e := s.engine a
  let s := s.setEngine a { e with accessEnd := max e.accessEnd t }
  if s.get F.arrState.state a.ix = aRetired then s else s.setArrState a aAccess

/-- One row write; whether it was accepted.  [DESIGN CHOICE, log 85] -/
def rowWrite (a : ArrId) (row : Nat) (bs : List Byte) (endAt : Nat) (s : State) : Bool × State :=
  if s.acceptsWrite a then
    let s := s.access a endAt
    let q := if s.wfmt a = .q2 then stripSkip bs else (bs, 0)
    let s := s.store (planeAddr a row) q.1
    let s := if q.2 = 0 then s else (s.inc F.arrQ2skip.count a.ix q.2).raise F.arrErr.q2_skip a.ix
    (true, s)
  else (false, (s.inc F.arrAccrej.wr_rej a.ix).raise F.arrErr.busy_rej a.ix)

/-- Cut a byte string into rows of 32. -/
def rowsOf (ofs : Nat) (bs : List Byte) : List (Nat × List Byte) :=
  (List.range (bs.length / 32)).map fun i => (ofs + 32 * i, (bs.drop (32 * i)).take 32)

/-- Write rows at consecutive offsets of a core; bytes accepted. -/
def rowsWrite (c : CoreId) (t : Nat) : List (Nat × List Byte) → State → Nat × State
  | [], s => (0, s)
  | (o, bs) :: rs, s =>
    let r := rowWrite (c.arr (planeArr o)) (planeRow o) bs t s
    let q := rowsWrite c (t + 1) rs r.2
    (q.1 + (if r.1 then 32 else 0), q.2)

/-- Address and alignment of an access to space 0x4 (R86, R87): the refusal, if any. -/
def planeFault (ofs n : Nat) : Option Nat :=
  if 0x80000 < ofs + n ∨ 0x80000 ≤ ofs then some xAddressFault
  else if ofs % 32 ≠ 0 ∨ n % 32 ≠ 0 ∨ n = 0 then some xAlignFault
  else none

/-- A refused access: an alignment fault marks the array named by its first offset, an address fault is counted (R12). -/
def planeRefuse (c : CoreId) (ofs st : Nat) (s : State) : State :=
  let s := if st = xAlignFault then s.raise F.arrErr.align (c.arr (planeArr ofs)).ix else s.countFault c.die
  s.send (.dynDone (fab 4 c.die c.clu c.core ofs) st [])

/-- An access waits at a core's port. -/
def State.askPlane (s : State) (p : PlaneAcc) : State := { s with planeQ := s.planeQ ++ [p] }

/-- A row write arrives at a core's port; its rows are presented one a cycle from this cycle on (R87, R88). -/
def rowWriteAt (c : CoreId) (ofs : Nat) (bs : List Byte) (s : State) : State :=
  match planeFault ofs bs.length with
  | some st => planeRefuse c ofs st s
  | none => s.askPlane { core := c, port := 1, ofs := ofs, data := bs, rows := bs.length / 32, read := false }

def execRowWrite (c : CoreId) (ofs : Nat) (data : List Byte) (s : State) : Host.Outcome State Fault Refusal :=
  done (rowWriteAt c ofs data s)

/-- A readback arrives at a core's port, 2 cycles a row. -/
def rowReadback (c : CoreId) (ofs n : Nat) (s : State) : State :=
  match planeFault ofs n with
  | some st => planeRefuse c ofs st s
  | none => s.askPlane { core := c, port := 1, ofs := ofs, data := [], rows := n / 32, read := true }

def execRowReadback (c : CoreId) (ofs n : Nat) (s : State) : Host.Outcome State Fault Refusal :=
  done (rowReadback c ofs n s)

/-- Offset of the row an access presents next. -/
def PlaneAcc.rowOfs (p : PlaneAcc) : Nat := p.ofs + 32 * p.done

/-- Rows of the access still to come in the array of its next row. -/
def PlaneAcc.left (p : PlaneAcc) : Nat := min (p.rows - p.done) (256 - planeRow p.rowOfs)

/-- The access served at a core's port in this cycle: port 0 before port 1 (R88). -/
def State.planeTurn (s : State) (c : CoreId) : Option PlaneAcc :=
  let q := s.planeQ.filter fun p => decide (p.core = c)
  if s.now < (s.core c).portFree then none
  else (q.find? fun p => decide (p.port = 0)).orElse fun _ => q.head?

/-- One row of an access, judged when every operation of the cycle has issued (R89, R90): written or read, or rejected.  [DESIGN CHOICE, log 208] -/
def planeRow1 (p : PlaneAcc) (s : State) : PlaneAcc × State :=
  let a := p.core.arr (planeArr p.rowOfs)
  let hold := fun (n : Nat) (s : State) => s.setCore p.core { s.core p.core with portFree := s.now + n }
  if p.read then
    if s.acceptsRead a then
      let s := hold 2 (s.access a (s.now + 2 * p.left))
      ({ p with done := p.done + 1, got := p.got ++ s.bytes (planeAddr a (planeRow p.rowOfs)) 32 }, s)
    else ({ p with done := p.done + 1, bad := p.bad + 1 }, hold 1 (s.inc F.arrAccrej.rd_rej a.ix))
  else
    let r := rowWrite a (planeRow p.rowOfs) ((p.data.drop (32 * p.done)).take 32) (s.now + p.left) s
    ({ p with done := p.done + 1, bad := p.bad + boolNat (!r.1) }, hold 1 r.2)

/-- An array that an access is at work on: it shows ACCESS (R93). -/
def State.inAccess (s : State) (a : ArrId) : Bool :=
  decide (s.arrState a = aIdle) && ((s.planeQ.any fun p => decide (p.core.arr (planeArr p.rowOfs) = a)) ||
    (Map.getD s.wts.digs a.coreId {}).reads.any fun r => decide (r.arr = a.arr.val) && decide (r.startAt ≤ s.now) && decide (s.now < r.endAt))

/-! ## Clears (R92) -/

/-- Cells of an array to zero. -/
def State.clearCells (s : State) (a : ArrId) : State :=
  { s with mem := Memory.clearRange s.mem (planeAddr a 0) (planeAddr a 0 + 8192) }

/-- Start a power-up clear: CLEARING for 256 cycles; a mapped-out array keeps reading MAPPED_OUT, which it leaves at the next kindling only
(R95), while its cells are cleared. -/
def powerClear (a : ArrId) (s : State) : State :=
  if s.mapOut.contains a then (s.setArrState a aMappedOut).setEngine a { s.engine a with clearEnd := some (s.now + 256), clearAfter := none }
  else (s.setArrState a aClearing).setEngine a { s.engine a with clearEnd := some (s.now + 256), clearAfter := none }

/-- A tenant clear meets an array in its present state: IDLE clears at once; an operation, an access or a calibration slot
ends first; RETIRED and MAPPED_OUT keep their state; OFF stays. -/
def tenantClearArray (a : ArrId) (s : State) : State :=
  let e := s.engine a
  let st := s.arrState a
  if st = aOff then s
  else if st = aIdle then (s.setArrState a aClearing).setEngine a { e with clearEnd := some (s.now + 256) }
  else if st = aRetired ∨ st = aMappedOut then
    s.setEngine a { e with clearEnd := some (max s.now (max e.convEnd e.accessEnd) + 256) }
  else if st = aCal then s.setEngine a { e with clearAfter := some s.now }
  else if st = aClearing then s
  else s.setEngine a { e with clearAfter := some (max e.convEnd e.accessEnd) }

/-- An array that left its operation, access or slot with a clear waiting enters CLEARING then; one that its slot retired keeps its
state. -/
def startWaitingClear (a : ArrId) (s : State) : State :=
  let e := s.engine a
  match e.clearAfter with
  | none => s
  | some t =>
    let st := s.arrState a
    if t ≤ s.now ∧ (st = aClearing ∨ st = aRetired) then
      (if st = aRetired then s else s.setArrState a aClearing).setEngine a
        { e with clearAfter := none, clearEnd := some (max t (max e.convEnd e.accessEnd) + 256) }
    else s

/-- The clear of an array ends: cells zero; CLEARING goes to IDLE, or back to RETIRED (left only at the next kindling, Table
02.9); a kept state stays.  [DEDUCED, log 20] -/
def arrayClearDone (a : ArrId) (s : State) : State :=
  let s := startWaitingClear a s
  let e := s.engine a
  match e.clearEnd with
  | none => s
  | some t =>
    if t ≤ s.now then
      let s := (s.clearCells a).setEngine a { e with clearEnd := none }
      if s.get F.arrState.state a.ix = aClearing then s.setArrState a (if s.get F.coreCalrecStat.retire_why a.ix = 0 then aIdle else aRetired) else s
    else s

def execArrayClearDone (a : ArrId) (s : State) : Host.Outcome State Fault Refusal := done (arrayClearDone a s)

end Sys2Proof.Machine
end

