-- ==== Sys2Proof/Machine/Windows.lean ====
section
/-!
DEFINITION. Arrivals at a memory (R12, R268, R280-R289): window tables, gates of fenced units, availability, and the window
command.
-/

namespace Sys2Proof.Machine
open Sys2Proof

/-! ## Parts of a fabric address (Table 00.5) -/

/-- Space of a fabric address (R11). -/
def addrSpace (a : Nat) : Nat := a / 2 ^ 44
def addrDie (a : Nat) : Nat := a / 2 ^ 39 % 32
def addrClu (a : Nat) : Nat := a / 2 ^ 32 % 128
def addrCore (a : Nat) : Nat := a / 2 ^ 30 % 4
def addrOfs (a : Nat) : Nat := if addrSpace a = 2 then a % 2 ^ 39 else a % 2 ^ 30

def addrCluId (a : Nat) : Option CluId := cluAt? (addrDie a) (addrClu a)
def addrCoreId (a : Nat) : Option CoreId := (addrCluId a).map fun c => ⟨c.die, c.clu, ⟨addrCore a, Nat.mod_lt _ (by decide)⟩⟩

/-- R12: the space, die and range of an access exist on this module. -/
def State.addressOk (s : State) (a n : Nat) : Bool :=
  decide (addrSpace a < 5) && decide (addrSpace a ≠ 3) && decide (addrDie a < 24) && decide (addrDie a < s.dieCount) &&
    decide (addrOfs a + n ≤ spaceSize (addrSpace a))

/-! ## Units and gates -/

/-- Shared-buffer units a range of a cluster touches (R267). -/
def sbufUnits (ofs n : Nat) : List Nat := if n = 0 then [] else (List.range ((ofs + n - 1) / 65536 - ofs / 65536 + 1)).map (· + ofs / 65536)

/-- Mode of a shared-buffer unit: 0 SCRATCH, 1 CACHE, 2 OFF (R268). -/
def State.sbufMode (s : State) (c : CluId) (u : Nat) : Nat := bitsOf (s.get F.cluSbufCfg.mode c.ix) (2 * u) 2

/-- State of a unit in CLU.SBUF.STAT: 0 READY, 1 FENCING, 2 OFF, 3 CLEARING. -/
def State.sbufState (s : State) (c : CluId) (u : Nat) : Nat := bitsOf (s.get F.cluSbufStat.state c.ix) (2 * u) 2

def State.setSbufState (s : State) (c : CluId) (u st : Nat) : State :=
  s.set F.cluSbufStat.state c.ix (putBits (s.get F.cluSbufStat.state c.ix) (2 * u) 2 st)

/-- Every unit of the range is a SCRATCH unit. -/
def State.scratchRange (s : State) (c : CluId) (ofs n : Nat) : Bool :=
  (sbufUnits ofs n).all fun u => decide (u < 8) && decide (s.sbufMode c u = 0)

/-- Channel groups a stack range touches, side × 4 + g (Table 08.4). -/
def stackGroups (ofs n : Nat) : List Nat :=
  if n = 0 then [] else (List.range ((ofs + n - 1) / 2 ^ 32 - ofs / 2 ^ 32 + 1)).map (· + ofs / 2 ^ 32)

/-- A stack group can be used (R288). -/
def State.groupReady (s : State) (die g : Nat) : Bool := (s.get F.stkStat.grp_ready (Ix.stw die (g / 4))).testBit (g % 4)

/-- Side of a stack offset (R272). -/
def sideOf (ofs : Nat) : Nat := ofs / 2 ^ 34 % 2

/-- A range lies in a unit in part (R267, R272, R289). -/
def meetsUnit (a n : Nat) : FenceUnit → Bool
  | .sbuf c i => decide (addrSpace a = 1) && decide (addrCluId a = some c) && (sbufUnits (addrOfs a) n).contains i.val
  | .group d sd g => decide (addrSpace a = 2) && decide (addrDie a = d.val) && (stackGroups (addrOfs a) n).contains (4 * sd.val + g.val)
  | .region c => decide (addrSpace a ≠ 2) && decide (addrCluId a = some c)

/-- Units with a closed gate that a range meets (R287, R289); an access of the cycle in which the gate is written finds it open (R262). -/
def State.gates (s : State) (a n : Nat) : List FenceUnit :=
  ((s.fences.filter fun p => decide (p.2.since < s.now)).map fun p => p.1).filter (meetsUnit a n)

/-- The core is mapped out (Table 16.7). -/
def State.coreMappedOut (s : State) (die clu core : Nat) : Bool := (s.get F.nirFpClu.flags (Ix.mod die clu)).testBit core

/-- A stack side is being cleared for a tenant (R285). -/
def State.stackClearing (s : State) (die side : Nat) : Bool := s.bit F.stkStat.clearing (Ix.stw die side)

/-- The destination is available, by the modes and states before this cycle's writes of them (R262): SCRATCH units that are not being
cleared, stack groups that are ready (R268, R271, R285, R288). -/
def State.available (s : State) (a n : Nat) : Bool :=
  match addrSpace a with
  | 1 =>
    match addrCluId a with
    | none => false
    | some c => s.before.scratchRange c (addrOfs a) n && (sbufUnits (addrOfs a) n).all fun u => decide (s.sbufState c u ≠ 3)
  | 2 => (stackGroups (addrOfs a) n).all fun g => s.groupReady (addrDie a) g && !s.stackClearing (addrDie a) (g / 4)
  | _ => true

/-- The region of a scratchpad, shared buffer or weight plane is off or dark; for the stacks, the die is dark. -/
def State.darkAt (s : State) (a : Nat) : Bool :=
  if addrSpace a = 2 then s.dieDark (addrDie a)
  else match addrCluId a with
    | none => true
    | some c => !s.regionOn c

/-! ## Banks and their wheels (R258-R260, R265, R267) -/

/-- Bank that holds a scratchpad or shared-buffer address. -/
def bankIdOf (a : Nat) : Option BankId :=
  let b : Fin 8 := ⟨bankOf a, Nat.mod_lt _ (by decide)⟩
  match addrSpace a with
  | 0 => (addrCoreId a).map fun c => .spad c b
  | 1 => (addrCluId a).map fun c => .sbuf c ⟨addrOfs a / 65536 % 8, Nat.mod_lt _ (by decide)⟩ b
  | _ => none

/-- Position of RW and of MT in a bank's wheel (Table 08.1, R267). -/
def rwPos : BankId → Nat
  | .spad _ _ => 4
  | .sbuf _ _ _ => 6

/-- Wheel position of MT (Table 08.1, R267). -/
def mtPos : BankId → Nat
  | .spad _ _ => 6
  | .sbuf _ _ _ => 7

/-- Number of a bank in its memory. -/
def bankNum : BankId → Nat
  | .spad _ b => b
  | .sbuf _ _ b => b

/-- Fabric address of line `row` of a bank. -/
def bankLine : BankId → Nat → Nat
  | .spad c b, row => spadAddr c ((row * 8 + b) * 256)
  | .sbuf c u b, row => sbufAddr c (u * 65536 + (row * 8 + b) * 256)

/-- Lines of a bank (R258, R267). -/
def bankRows : BankId → Nat
  | .spad _ _ => 128
  | .sbuf _ _ _ => 32

/-- ECC counters and instance of a bank. -/
def bankEcc : BankId → Fld × Fld × Ix
  | .spad c _ => (F.coreSpadEcc.ce, F.coreSpadEcc.ue, c.ix)
  | .sbuf c _ _ => (F.cluSbufEcc.ce, F.cluSbufEcc.ue, c.ix)

/-- Count an uncorrectable word found in a scratchpad or shared buffer and record it (R265). -/
def countUe (b : BankId) (w : Nat) (s : State) : State :=
  let e := bankEcc b
  let s := s.inc e.2.1 e.2.2
  match b with
  | .spad c _ => (s.sets c.ix [(F.coreSpadUeaddr.line, 8 * w % 2 ^ 30 / 256), (F.coreSpadUeaddr.word, w % 32)]).raise F.coreSpadUeaddr.valid c.ix
  | .sbuf _ _ _ => s

/-- Key of a position of a memory's wheel. -/
def claimKey (a pos : Nat) : Nat :=
  (if addrSpace a = 1 then a / 65536 else a / 2 ^ 30) * 16 + addrSpace a * 2 ^ 60 + pos

/-- Wheel position of transfer-in writes at an address (Table 08.1, R267). -/
def tiPos (a : Nat) : Nat := if addrSpace a = 1 then 4 else 2

/-- The wheel of the memory at an address turns (R284). -/
def State.wheelOn (s : State) (a : Nat) : Bool := decide (addrSpace a ≠ 0) || s.wheelRuns (addrDie a)

/-- The bank that holds an address is at a position in this cycle (R259). -/
def State.atPos (s : State) (a pos : Nat) : Bool := decide (wheelPos (bankOf a) s.now = pos) && s.wheelOn a

/-- Some access has used the position in this cycle. -/
def State.claimed (s : State) (a pos : Nat) : Bool := (Map.find s.claims (claimKey a pos)).any fun e => decide (e.1 = s.now)

/-- A static access has used the position in this cycle. -/
def State.claimedStatic (s : State) (a pos : Nat) : Bool := decide (Map.find s.claims (claimKey a pos) = some (s.now, true))

/-- An access uses a position in this cycle. -/
def State.claim (s : State) (a pos : Nat) (fixed : Bool) : State := { s with claims := Map.put s.claims (claimKey a pos) (s.now, fixed) }

/-! ## Windows (Table 08.8) -/

/-- A window entry (Table 08.8). -/
structure Window where
  open_ : Bool
  rt : Bool
  space : Nat
  srcMask : Nat
  modF : Bool
  modId : Nat
  base : Nat
  size : Nat
  deriving DecidableEq, Repr

/-- The table that checks arrivals at an address (R282): its register, rejection register and instance. -/
def winTable (a : Nat) : Reg × Reg × (Nat → Ix) :=
  match addrSpace a with
  | 1 => (.cluWin, .cluWinRej, fun i => ⟨addrDie a, addrClu a, 0, i, 0⟩)
  | 2 => (.stkWin, .stkWinRej, fun i => Ix.stw (addrDie a) i)
  | _ => (.coreWin, .coreWinRej, fun i => ⟨addrDie a, addrClu a, addrCore a, i, 0⟩)

/-- A window entry as it stands (R280). -/
def State.window (s : State) (r : Reg) (ix : Ix) : Window :=
  { open_ := s.bit ⟨r, 0, 1⟩ ix, rt := s.bit ⟨r, 1, 1⟩ ix, space := s.get ⟨r, 2, 4⟩ ix, srcMask := s.get ⟨r, 6, 6⟩ ix
    modF := s.bit ⟨r, 12, 1⟩ ix, modId := s.get ⟨r, 13, 16⟩ ix, base := s.get ⟨r, 32, 39⟩ ix, size := s.get ⟨r, 71, 40⟩ ix }

/-- Source classes (Table 08.6) of a transfer within the module; none for a die of another partition.  [DEDUCED, log 104] -/
def State.srcClass (s : State) (src : CluId) (a : Nat) : Option Nat :=
  if addrSpace a ≠ 2 ∧ addrCluId a = some src then some 0
  else if addrDie a = src.die.val then some 1
  else if s.partOf (addrDie a) ≠ none ∧ s.partOf (addrDie a) = s.partOf src.die.val then some 2
  else none

/-- Who sends: a source class, and for class 3 the module. -/
structure Sender where
  cls : Option Nat
  modId : Nat
  deriving DecidableEq, Repr

/-- Count a closed gate (R287) or a dark region (R289) at the cluster of the destination.  [DEDUCED, log 108] -/
def countFence (f : Fld) (a : Nat) (s : State) : State :=
  match addrCluId a with
  | none => s
  | some c => if addrSpace a = 2 then s else s.inc f c.ix

/-- The destination's region is being fenced for its power-down (R289). -/
def State.regionFenced (s : State) (a n : Nat) : Bool :=
  (s.gates a n).any fun u =>
    match u with
    | .region _ => true
    | _ => false

/-- Checks of an arrival in order (R280): its status and the state after counting. -/
def arrivalCheck (who : Sender) (a n win : Nat) (s : State) : Nat × State :=
  let t := winTable a
  let w := s.before.window t.1 (t.2.2 win)
  let rejIx := t.2.2 0
  if (addrSpace a = 0 ∨ addrSpace a = 4) ∧ s.coreMappedOut (addrDie a) (addrClu a) (addrCore a) then (xUnavailable, s)
  else if s.darkAt a && !s.regionFenced a n then (xWindowClosed, countFence F.cluSbufFence.late_lines a s)
  else if !(s.gates a n).isEmpty then (xWindowClosed, (countFence F.cluSbufFence.refused a s).inc ⟨t.2.1, 0, 16⟩ rejIx)
  else if !w.open_ then (xWindowClosed, s.inc ⟨t.2.1, 0, 16⟩ rejIx)
  else
    let denied := match who.cls with
      | none => true
      | some k => !w.srcMask.testBit k || (w.modF && decide (k = 3) && decide (w.modId ≠ who.modId))
    if denied then (xSourceDenied, s.inc ⟨t.2.1, 16, 16⟩ rejIx)
    else if ¬ (addrSpace a = w.space ∧ w.base ≤ addrOfs a ∧ addrOfs a + n ≤ w.base + w.size) then
      (xOutOfWindow, s.inc ⟨t.2.1, 32, 16⟩ rejIx)
    else if !s.available a n then (xUnavailable, s)
    else (xOk, s)

/-! ## The window command (R283) -/

/-- A command that reached its steward too late is reported (R27): the COMMAND event.  [DEDUCED, log 105] -/
def State.commandLate (s : State) (die cmd t : Nat) : State :=
  s.emit 0x0002 1 die (s.partOf die) [(s.stitch, 64), (die, 5), (Config.commandCode cmd, 8), (1, 3), (t, 64)]

/-- One number for a record's target byte: TKIND, TABLE, TARGET. -/
def vkey (tk table tgt : Nat) : Nat := tk * 2 ^ 80 + table * 2 ^ 64 + tgt

def vkTk (k : Nat) : Nat := k / 2 ^ 80
def vkTable (k : Nat) : Nat := k / 2 ^ 64 % 2 ^ 16
def vkTgt (k : Nat) : Nat := k % 2 ^ 64

/-- The byte a harness holds at a target. -/
def Harness.rawAt (h : Harness) (k : Nat) : Option RawByte := h.raw.find? fun b => decide (b.at_ = k)

/-- Module table entry (R335). -/
def Harness.moduleId (h : Harness) (i : Nat) : Option Nat :=
  match h.rawAt (vkey 2 2 (2 * i)), h.rawAt (vkey 2 2 (2 * i + 1)) with
  | some a, some b =>
    let v := a.val.toNat + b.val.toNat * 256
    if v = 0xFFFF then none else some v
  | _, _ => none

/-- A window image clamped as at load (Table 08.8): OPEN 0 for a space the table does not serve, BASE and SIZE multiples of
32 B, SIZE within the space, MODID translated or MODF cleared (R335).  [DEDUCED, log 123] -/
def clampWindow (mods : Nat → Option Nat) (table image : Nat) : Nat :=
  let space := bitsOf image 2 4
  let ok : Bool := match table with
    | 0 => decide (space = 0) || decide (space = 4)
    | 1 => decide (space = 1)
    | _ => decide (space = 2)
  let open_ := if ok then bitsOf image 0 1 else 0
  let base := bitsOf image 32 39 / 32 * 32
  let lim := spaceSize space
  let size := min (bitsOf image 71 40 / 32 * 32) (lim - min base lim)
  let modf : Nat × Nat := if bitsOf image 12 1 = 0 then (0, bitsOf image 13 16) else match mods (bitsOf image 13 16) with
    | some m => (1, m)
    | none => (0, bitsOf image 13 16)
  open_ + bitsOf image 1 11 * 2 + modf.1 * 2 ^ 12 + modf.2 * 2 ^ 13 + base * 2 ^ 32 + size * 2 ^ 71

/-- Write a window image into an entry. -/
def State.setWindow (s : State) (r : Reg) (ix : Ix) (image : Nat) : State :=
  s.sets ix ([(0, 1), (1, 1), (2, 4), (6, 6), (12, 1), (13, 16), (32, 39), (71, 40)].map fun p =>
    ((⟨r, p.1, p.2⟩ : Fld), bitsOf image p.1 p.2))

/-- Fields of a window entry (Table 08.8). -/
def winEntry (die table clu core entry : Nat) : Reg × Ix :=
  match table with
  | 0 => (.coreWin, ⟨die, clu, core, entry, 0⟩)
  | 1 => (.cluWin, ⟨die, clu, 0, entry, 0⟩)
  | _ => (.stkWin, Ix.stw die entry)

/-- A write of STW.WINCMD.AT submits the update for stitch T: LATE where T is less than 64 st ahead (R27, R283), LOCKED where RT is 0. -/
def windowCommand (die : DieIx) (at_ : Nat) (s : State) : State :=
  let ix := Ix.stw die
  let table := s.get F.stwWincmdSel.table ix
  let clu := s.get F.stwWincmdSel.cluster ix
  let core := s.get F.stwWincmdSel.core ix
  let entry := s.get F.stwWincmdSel.entry ix
  let image := s.get F.stwWincmdVal.image (Ix.stw die 0) + s.get F.stwWincmdVal.image (Ix.stw die 1) * 2 ^ 64
  let e := winEntry die table clu core entry
  let mods := fun i => ((s.partOf die).bind fun p => Map.find s.active p).bind fun h => h.moduleId i
  let s := s.set F.stwWincmdAt.stitch ix at_
  if at_ < s.stitch + 64 then
    (s.set F.stwWincmdResult.status ix 1).commandLate die 1 at_
  else if table = 3 ∨ ¬ s.bit ⟨e.1, 1, 1⟩ e.2 then s.set F.stwWincmdResult.status ix 2
  else
    let s := s.set F.stwWincmdResult.status ix 0
    { s with winUpdates := s.winUpdates ++ [⟨at_, die, table, clu, core, entry, clampWindow mods table image⟩] }

def execWindowCommand (die : DieIx) (at_ : BitVec 64) (s : State) : Host.Outcome State Fault Refusal :=
  done (windowCommand die at_.toNat s)

/-- A harness of the die's partition is activated in this cycle, or is still to be. -/
def State.activatesNow (s : State) (die : Nat) : Bool :=
  decide (s.cc = 0) && (s.partOf die).any fun p =>
    ((Map.find s.swaps p).any fun w => decide (w.at_ ≤ s.stitch) && !w.cut) ||
      ((Map.find s.active p).isSome && decide (s.get F.hrnActAt.stitch (Ix.mod p) = s.stitch))

/-- At stitch T the steward replaces the entries due, in the cycle after an activation of the same stitch (R283). -/
def windowCommandEffect (die : DieIx) (s : State) : State :=
  if s.activatesNow die then s else
  let due := fun (u : WinUpdate) => decide (u.die = die.val) && decide (u.at_ ≤ s.stitch)
  let ups := s.winUpdates.filter due
  let s := { s with winUpdates := s.winUpdates.filter fun u => !due u }
  forAll ups (fun u s =>
    let e := winEntry u.die u.table u.clu u.core u.entry
    s.setWindow e.1 e.2 u.image) s

def execWindowCommandEffect (die : DieIx) (s : State) : Host.Outcome State Fault Refusal := done (windowCommandEffect die s)

end Sys2Proof.Machine
end

