-- ==== Sys2Proof/Machine/Transfer.lean ====
section
/-!
DEFINITION. The transfer engine and the stacks (R166, R167, R221, R263-R281, R403-R405): XFER, launch, source reads, arrivals,
landings, completions, stack reads and writes, the cache.
-/

namespace Sys2Proof.Machine
open Sys2Proof

/-! ## Flights and channels -/

def State.flight (s : State) (id : Nat) : Option Xfer := s.flights.find? fun x => decide (x.id = id)

def State.setFlight (s : State) (x : Xfer) : State :=
  { s with flights := s.flights.map fun y => if y.id = x.id then x else y }

def State.chan (s : State) (c : CluId) (ch : Nat) : Chan := Map.getD s.chans (c, ch) {}

/-- Store a channel and show it in XFER.CH.STAT. -/
def State.setChan (s : State) (c : CluId) (ch : Nat) (k : Chan) : State :=
  ({ s with chans := Map.put s.chans (c, ch) k }).sets (c.ix ch)
    [(F.xferChStat.queued, k.queue.length), (F.xferChStat.busy, boolNat k.cur.isSome)]

/-! ## XFER (R221, R278) -/

/-- Bytes at the destination of a transfer of `len` source bytes (R403). -/
def destBytes (len chk : Nat) : Nat := if chk = 1 then len + 32 else if chk = 2 then len - 32 else len

/-- The transfer a descriptor describes, from a source at physical address `src`; a destination offset that no fabric address holds gives no
destination (R12).  [DEDUCED, log 103] -/
def State.xferOf (s : State) (c : CoreId) (d src : Nat) : Xfer :=
  let w := s.descWord c d
  let dspace := bitsOf w 52 4
  let dofs := bitsOf w 88 40
  let len := bitsOf w 128 24
  let chk := bitsOf w 156 2
  let srck := bitsOf w 9 2
  let t := s.bound c.die.val (bitsOf w 56 5) (bitsOf w 61 7)
  let fill := decide (srck = 2) && decide (dspace = 2) && decide (bitsOf w 12 40 = dofs) && decide (bitsOf w 70 1 = 0) &&
    (match t with
      | some e => decide (e.die = c.die)
      | none => false)
  { id := s.xferSeq, core := c, desc := d, bundle := s.pc c, chan := bitsOf w 5 4, fixed := decide (bitsOf w 4 1 = 1)
    srck := srck, src := src, len := len, fill := fill, dspace := dspace
    dst := if bitsOf w 70 1 = 1 ∨ (if dspace = 2 then 2 ^ 39 else 2 ^ 30) ≤ dofs then none
      else t.map fun e => if dspace = 2 then fabStack e.die dofs else fab dspace e.die e.clu (if dspace = 1 then 0 else bitsOf w 68 2) dofs
    torus := if bitsOf w 70 1 = 1 then some (bitsOf w 71 16) else none
    win := bitsOf w 152 4, chk := chk, csen := decide (bitsOf w 158 1 = 1), csdst := decide (bitsOf w 159 1 = 1)
    csobj := bitsOf w 160 7, csinc := bitsOf w 167 8, csrej := decide (bitsOf w 175 1 = 1), issued := s.now
    total := destBytes len chk, dstClu := if bitsOf w 70 1 = 1 then none else t }

/-- Lines of the issuing core's own scratchpad the transfer writes (R201). -/
def Xfer.ownLines (x : Xfer) : List Nat :=
  match x.dst with
  | none => []
  | some a =>
    if x.dspace = 0 ∧ addrCoreId a = some x.core ∧ 0 < x.total then
      (List.range ((addrOfs a + x.total - 1) / 256 - addrOfs a / 256 + 1)).map fun i => spadAddr x.core ((addrOfs a / 256 + i) * 256)
    else []

/-- A streaming reload of the schedule (R394). -/
def Xfer.isReload (x : Xfer) : Bool := x.fixed && decide (x.srck = 2) && decide (x.dspace = 4)

/-- The cluster a transfer's bytes go to. -/
def Xfer.target (x : Xfer) : Option CluId := x.dst.bind fun a => if addrSpace a = 2 then x.dstClu else addrCluId a

/-- Every hop of a list of hops can be taken. -/
def State.pathOk (s : State) : CluId → List Nat → Bool
  | _, [] => true
  | c, h :: hs => s.hopOk c (h % 4) && (cluNext c (h % 4)).any fun e => s.pathOk e hs

/-- No hop of a static transfer's route is over a link that is out of use (R23). -/
def State.routeOpen (s : State) (x : Xfer) : Bool :=
  !x.fixed || decide (x.srck = 2) || s.pathOk x.core.cluId (s.routeHops x.core.cluId x.chan)

/-- Bytes of the destination already dealt with. -/
def Xfer.pos (x : Xfer) : Nat := x.landed + x.refused + x.gone

/-- Arrays a streaming reload names whose last byte lies at positions (lo, hi] of the transfer (R394, R396). -/
def Xfer.reloadSpan (x : Xfer) (lo hi : Nat) : List ArrId :=
  match x.dst with
  | none => []
  | some a =>
    match addrCoreId a with
    | none => []
    | some c =>
      if x.isReload then
        (List.finRange 64).filterMap fun i =>
          let e := min ((i.val + 1) * 8192) (addrOfs a + x.total) - addrOfs a
          if i.val * 8192 < addrOfs a + x.total ∧ addrOfs a < (i.val + 1) * 8192 ∧ lo < e ∧ e ≤ hi then some (c.arr i) else none
      else []

/-- Arrays a streaming reload names. -/
def Xfer.reloadArrays (x : Xfer) : List ArrId := x.reloadSpan 0 x.total

/-- One reload transfer less is outstanding for some arrays (R396). -/
def reloadDone (as : List ArrId) (s : State) : State :=
  forAll as (fun a s => s.setEngine a { s.engine a with reload := (s.engine a).reload - 1 }) s

/-- Lines a reload transfer holds in its cluster's reload buffer. -/
def Xfer.heldLines (x : Xfer) : Nat :=
  if x.isReload && x.status.isNone then (x.data.length - x.pos + 255) / 256 - (x.lost.filter fun o => decide (x.pos ≤ o)).length else 0

/-- Lines in the reload buffer of a cluster (R395). -/
def State.reloadHeld (s : State) (c : CluId) : Nat :=
  (s.flights.filter fun x => decide (x.core.cluId = c)).foldl (fun n x => n + x.heldLines) 0

/-- The source of slot T's transfer: physical address, or BOUND; a shared buffer range must be SCRATCH units (R268). -/
def State.xferSource (s : State) (c : CoreId) (k o n : Nat) : Except SFault Nat :=
  match s.located c k o n with
  | .error f => .error f
  | .ok p =>
    match k with
    | 0 => .ok (spadAddr c p)
    | 1 => if s.before.scratchRange c.cluId p n then .ok (sbufAddr c.cluId p) else .error { code := sBound, detail := 1 }
    | _ => .ok (fabStack c.die p)

/-- Queue the transfer, or end it CHANNEL_FULL. -/
def queueXfer (c : CoreId) (x : Xfer) (s : State) : State :=
  let s := { s with xferSeq := s.xferSeq + 1 }
  let k := s.chan c.cluId x.chan
  if 8 ≤ k.queue.length then { s with flights := s.flights ++ [{ x with status := some xChannelFull }] }
  else
    let s := s.setChan c.cluId x.chan { k with queue := k.queue ++ [x] }
    let s := forAll x.ownLines (fun a s => s.pendLine a) s
    forAll x.reloadArrays (fun a s => s.setEngine a { s.engine a with reload := (s.engine a).reload + 1 }) s

/-- XFER (R220, R221). -/
def xferSlot (c : CoreId) (d : Nat) (s : State) : SlotRes :=
  tSlot c s fun s =>
    let w := s.descWord c d
    match (if bitsOf w 0 4 = 1 then s.xferSource c (bitsOf w 9 2) (bitsOf w 12 40) (bitsOf w 128 24)
      else .error { code := sIllegal, detail := 2 }) with
    | .error f => .error f
    | .ok src =>
      need (decide (bitsOf w 4 1 = 0) || s.bit F.coreSeqTask.anchor c.ix) sUnanchored 2 (.ok (queueXfer c (s.xferOf c d src) s))

def execXfer (c : CoreId) (d : Fin 64) (s : State) : Host.Outcome State Fault Refusal := done (onSlot c 2 (xferSlot c d) s)

/-! ## Endings -/

/-- Signal the completion object in a cluster (Table 09.6). -/
def signalDone (x : Xfer) (c : CluId) (s : State) : State :=
  s.settleSync.addSync ⟨s.now + 1, c, x.csobj, false, x.csinc, 5⟩

/-- Decide a transfer's status: its pending marks that no landing will clear go, and a destination object is signalled. -/
def decideXfer (x : Xfer) (st : Nat) (s : State) : State :=
  let pos := x.landed + x.refused + x.gone
  let left := match x.dst with
    | none => []
    | some a => x.ownLines.filter fun l => decide (a + pos ≤ l) || decide (l ≤ a + pos ∧ a + pos < l + 256 ∧ pos < x.total)
  let s := forAll left (fun l s => s.unpendLine l) s
  let signal := x.csen && x.csdst && !x.signalled && (decide (st = xOk) || x.csrej)
  let s := match x.target with
    | some c => if signal then signalDone x c s else s
    | none => s
  s.setFlight { x with status := some st, signalled := x.signalled || signal }

/-- Decide a transfer's status at its destination: from another cluster the completion travels to the issuing one on the dynamic lane
(R281, R293).  [DESIGN CHOICE, log 181] -/
def decideAt (x : Xfer) (st : Nat) (s : State) : State :=
  let s := decideXfer x st s
  match x.target with
  | none => s
  | some t =>
    if t = x.core.cluId ∨ x.fill then s
    else { s with msgs := s.msgs ++ [{ body := .compl x.id, src := x.core, at_ := t, dst := x.core.cluId
                                       ready := s.now + s.dynLat t x.core.cluId, since := s.now }] }

/-- A fault in the issuing core for an access of this transfer: source T, the XFER's bundle (R264).  [DEDUCED, log 102] -/
def xferFault (x : Xfer) (f : SFault) (s : State) : State := s.schedFault x.core 2 x.bundle f

/-- All bytes to land have landed, been rejected by their arrays or discarded. -/
def Xfer.spent (x : Xfer) : Bool := decide (x.total ≤ x.landed + x.refused + x.gone)

/-- A completed transfer of which a fence still discards lines (R287). -/
def Xfer.draining (x : Xfer) : Bool := x.granted && decide (x.status = some xWindowClosed) && !x.spent

/-- The carried transfer has read its last source line: the channel is free from the next cycle (R278). -/
def freeChan (c : CluId) (ch : Nat) (s : State) : State :=
  let k := s.chan c ch
  let s := s.setChan c ch { k with cur := none, freeAt := s.now + 1 }
  { s with flights := s.flights.filter fun x => !(x.completed && decide (k.cur = some x.id) && !x.draining) }

/-- Decide the transfer once nothing is left to land. -/
def settleXfer (x : Xfer) (s : State) : State :=
  let s := s.setFlight x
  if x.spent && x.granted && x.status.isNone then
    decideAt x (if x.fin ≠ xOk then x.fin else if 0 < x.refused then xArrayBusy else if x.holes ≠ [] then xWindowClosed else xOk) s
  else s

/-! ## Launch (R278, R404, R418) -/

/-- The status a transfer is refused with at launch, if any (R12, R335, R418). -/
def State.launchRefusal (s : State) (x : Xfer) : Option Nat :=
  match x.torus with
  | some id => if s.torusOk id then none else some xAddressFault
  | none =>
    match x.dst with
    | none => some xAddressFault
    | some a => if x.fill ∨ s.addressOk a x.total then none else some xAddressFault

/-- Whether the transfer's first bytes travel as a dynamic packet (R294). -/
def Xfer.dynamic (x : Xfer) : Bool := !x.fixed && !x.fill && x.torus.isNone

/-- The oldest transfer of a channel launches once the channel is free (R278); one that waits at a halt launches too.  [DESIGN CHOICE, log 182] -/
def transferLaunch (c : CluId) (ch : Nat) (s : State) : State :=
  let k := s.chan c ch
  match k.cur, k.queue with
  | none, x :: q =>
    if x.issued + 1 ≤ s.now ∧ k.freeAt ≤ s.now then
      let old := s.before
      let poly := old.get F.chkCfg.poly (c.ix ch)
      let s := s.set F.chkRun.reg (c.ix ch) (if old.bit F.chkCfg.cont (c.ix ch) then old.get F.chkRun.reg (c.ix ch) else (polyOf poly).init)
      let x := { x with launched := some s.now, poly := poly, acc := old.bit F.chkCfg.acc (c.ix ch) }
      let s := { s with flights := s.flights ++ [x] }
      match s.launchRefusal x with
      | some st => decideXfer x st (s.setChan c ch { k with queue := q, cur := none })
      | none =>
        let s := s.setChan c ch { k with queue := q, cur := some x.id }
        match x.dynamic, x.target with
        | true, some t =>
          { s with msgs := s.msgs ++ [{ body := .xfer x.id, src := x.core, at_ := c, dst := t, ready := s.now + s.dynLat c t
                                        since := s.now, flits := max 1 ((x.total + 15) / 16) }] }
        | _, _ => s
    else s
  | _, _ => s

def execTransferLaunch (c : CluId) (ch : Fin 16) (s : State) : Host.Outcome State Fault Refusal := done (transferLaunch c ch s)

/-! ## Check values on a channel (R403, R404) -/

/-- Pass source bytes through the channel's check-value unit: the bytes that go on, and the transfer. -/
def absorb (c : CluId) (x : Xfer) (bs : List Byte) (late : Bool) (s : State) : Xfer × State :=
  let ix := c.ix x.chan
  let p := polyOf x.poly
  let run := s.get F.chkRun.reg ix
  let body := match x.chk with
    | 2 => bs.take (x.len - 32 - x.data.length)
    | _ => bs
  let s := if x.chk ≠ 0 ∨ x.acc = true then s.set F.chkRun.reg ix (chkBytes p run body) else s
  let run := s.get F.chkRun.reg ix
  let units := if late then (List.range ((body.length + 31) / 32)).map fun i => (x.data.length + 32 * i) / 32 else []
  let x := { x with data := x.data ++ body, held := x.held ++ bs.drop body.length, late := x.late ++ units }
  if x.chk = 1 ∧ x.data.length = x.len then ({ x with data := x.data ++ chkTrailer p run }, s)
  else if x.chk = 2 ∧ x.held.length = 32 then
    let s := s.inc F.chkCnt.checked ix
    if x.held = chkTrailer p run then (x, s) else ({ x with fin := xCheckMismatch }, s.inc F.chkCnt.mismatch ix)
  else (x, s)

/-- A source line cannot be read on: the lines before it land, then the transfer ends with a status (R264, R265). -/
def stopXfer (c : CluId) (x : Xfer) (st : Nat) (s : State) : State :=
  let y := { x with fin := st, total := x.data.length }
  let s := forAll (x.ownLines.filter fun l => !y.ownLines.contains l) (fun l s => s.unpendLine l) (freeChan c x.chan s)
  settleXfer y s

/-! ## The cache (R269, R270) -/

/-- CACHE units of a cluster, ascending. -/
def State.cacheUnits (s : State) (c : CluId) : List Nat := (List.range 8).filter fun u => decide (s.sbufMode c u = 1)

/-- Slot of a stack address, if the cluster has a cache. -/
def State.cacheSlot (s : State) (c : CluId) (a : Nat) : Option Nat :=
  let n := (s.cacheUnits c).length
  if n = 0 then none else some (a / 256 % 2 ^ 31 % (256 * n))

/-- A VALID copy of the line. -/
def State.cacheHit (s : State) (c : CluId) (a : Nat) : Option CacheSlot :=
  match s.cacheSlot c a with
  | none => none
  | some i =>
    match Map.find s.cache (c, i) with
    | none => none
    | some k => if k.valid ∧ k.line = a / 256 ∧ k.endsAt.all (fun t => decide (s.now ≤ t)) then some k else none

/-- A write by the cluster's own engine updates a VALID copy and makes the fill of a FILLING line void (R270). -/
def cacheWrite (c : CluId) (a : Nat) (bs : List Byte) (s : State) : State :=
  match s.cacheSlot c a with
  | none => s
  | some i =>
    match Map.find s.cache (c, i) with
    | none => s
    | some k =>
      if k.line ≠ a / 256 then s
      else if k.filling then { s with cache := Map.put s.cache (c, i) { k with drop := true } }
      else if k.valid then
        let o := a % 256
        { s with cache := Map.put s.cache (c, i) { k with data := k.data.take o ++ bs ++ k.data.drop (o + bs.length) } }
      else s

/-- A write of 1 to INVAL.ALL: no slot is valid after the end of this cycle, and fills in flight are void (R270). -/
def cacheInvalidateAll (c : CluId) (s : State) : State :=
  { s with cache := s.cache.map fun p =>
      if p.1.1 = c then (p.1, { p.2 with endsAt := some (min s.now (p.2.endsAt.getD s.now)), drop := true }) else p }

def execCacheInvalidateAll (c : CluId) (s : State) : Host.Outcome State Fault Refusal := done (cacheInvalidateAll c s)

/-! ## Stack controllers (R272-R277) -/

/-- A write enters its controller's queue, in order of port among those of one cycle (R275). -/
def insertWrite (w : StackWr) : List StackWr → List StackWr
  | [] => [w]
  | x :: xs => if x.entered = w.entered ∧ w.port < x.port then w :: x :: xs else x :: insertWrite w xs

/-- Bytes from address a with those written at b on top. -/
def laidOver (a : Nat) (ds : List Byte) (b : Nat) (bs : List Byte) : List Byte :=
  ds.zipIdx.map fun d => if b ≤ a + d.2 ∧ a + d.2 < b + bs.length then bs.getD (a + d.2 - b) d.1 else d.1

/-- First byte of what a stack read holds: a fill reads its whole line. -/
def StackRead.from (r : StackRead) : Nat :=
  match r.target with
  | .cache _ => r.addr / 256 * 256
  | _ => r.addr

/-- A write enters its controller's queue, ahead of a read that a higher port presents in the same cycle (R275, R276).  [DEDUCED, log 149] -/
def State.postWrite (s : State) (port a : Nat) (bs : List Byte) : State :=
  { s with stackWrites := insertWrite ⟨port, s.now, a, bs⟩ s.stackWrites
           stackReads := s.stackReads.map fun r =>
             if r.issued = s.now ∧ port < r.clu.clu.val then { r with data := laidOver r.from r.data a bs } else r }

/-- Two stack addresses have the same controller. -/
def sameSide (a b : Nat) : Bool := decide (addrDie a = addrDie b) && decide (sideOf (addrOfs a) = sideOf (addrOfs b))

/-- Writes that reached a controller before a read of it are performed first (R276). -/
def State.drainSide (s : State) (a : Nat) : State :=
  let mine := s.stackWrites.filter fun w => sameSide w.addr a
  mine.foldl (fun s w => s.store w.addr w.data) { s with stackWrites := s.stackWrites.filter fun w => !sameSide w.addr a }

/-- A read reaches its controller behind the writes posted before it, and takes what its bytes hold then (R276). -/
def State.askStack (s : State) (r : StackRead) : State :=
  let s := s.drainSide r.addr
  let n := match r.target with
    | .cache _ => 256
    | _ => r.n
  { s with stackReads := s.stackReads ++ [{ r with data := s.bytes r.from n }] }

/-- The controller performs the oldest posted write of a stack side. -/
def stackWrite (die : DieIx) (side : Fin 2) (s : State) : State :=
  match takeFirst (fun w => sameSide w.addr (fabStack die (side * 2 ^ 34))) s.stackWrites with
  | none => s
  | some (w, rest) => { s with stackWrites := rest }.store w.addr w.data

def execStackWrite (die : DieIx) (side : Fin 2) (s : State) : Host.Outcome State Fault Refusal := done (stackWrite die side s)

/-- Reported read latency of the side that holds an address, at the step in force (R37). -/
def State.stackLat (s : State) (a : Nat) : Nat :=
  s.get F.stwXingStkRtn.lat_cc (Ix.stw (addrDie a) (sideOf (addrOfs a) * 6 + s.get F.nirTimeStep.cur_step (Ix.mod)))

/-! ## Landing (R166, R260, R263, R280) -/

/-- Claim a wheel position in this cycle for a static access; SLOT_OWNER where another static access holds it (R260). -/
def claimStatic (x : Xfer) (a pos : Nat) (s : State) : State :=
  let t := s.claim a pos true
  if s.claimedStatic a pos then xferFault x { code := sSlotOwner, detail := bankOf a + 8 * pos } t else t

/-- The next destination chunk: its address, and its length (a line, or a row of a weight plane). -/
def Xfer.chunk (x : Xfer) (a : Nat) : Nat × Nat :=
  let pos := x.landed + x.refused + x.gone
  let unit := if addrSpace a = 4 then 32 else 256
  (a + pos, min (unit - (a + pos) % unit) (x.total - pos))

/-- Bytes of a chunk that the transfer still holds, by position: those of a discarded flit are missing (R301). -/
def Xfer.holds (x : Xfer) (pos : Nat) : Bool := !x.holes.contains (pos / 16)

/-- Store the bytes of a chunk that are there; how many are missing. -/
def storeHeld (x : Xfer) (pos a : Nat) (bs : List Byte) (s : State) : Nat × State :=
  if x.holes.isEmpty then (0, s.store a bs)
  else
    let keep := bs.zipIdx.filter fun b => x.holds (pos + b.2)
    (bs.length - keep.length, keep.foldl (fun s b => s.store (a + b.2) [b.1]) s)

/-- Write one chunk at its destination. -/
def landChunk (x : Xfer) (a n : Nat) (s : State) : Xfer × State :=
  let pos := x.landed + x.refused + x.gone
  let bs := (x.data.drop pos).take n
  let late := x.late.any fun u => decide (pos / 32 ≤ u ∧ u * 32 < pos + n)
  match addrSpace a with
  | 2 =>
    let s := cacheWrite x.core.cluId a bs (s.postWrite x.core.clu a bs)
    ({ x with landed := x.landed + n }, s)
  | 4 =>
    match addrCoreId a with
    | none => (x, s)
    | some c =>
      if bs.zipIdx.any fun b => !x.holds (pos + b.2) then ({ x with gone := x.gone + n }, s)
      else
        (x, s.askPlane { core := c, port := 0, ofs := addrOfs a, data := bs, rows := 1, read := false, xfer := some x.id })
  | _ =>
    let r := storeHeld x pos a bs s
    let s := r.2.markWritten a false false late
    let s := if x.ownLines.contains (a / 256 * 256) then s.unpendLine a else s
    ({ x with landed := x.landed + (n - r.1), gone := x.gone + r.1 }, s)

/-- First cycle the chunk that ends at byte `e` is complete at a static transfer's destination (R166). -/
def State.completeAt (s : State) (x : Xfer) (e : Nat) : Nat :=
  let ix := x.core.cluId.ix x.chan
  let w := max 1 (s.get F.cluRtrRlat.width ix)
  x.launched.getD 0 + s.get F.cluRtrRlat.lat_cc ix + (e + w - 1) / w - 1

/-- A static transfer's next line is due at a position of a memory in this cycle. -/
def State.lineDue (s : State) (a pos : Nat) (x : Xfer) : Bool :=
  x.fixed && x.granted && x.status.isNone && decide (x.srck ≠ 2) && x.dst.any fun d =>
    let k := x.chunk d
    decide (0 < k.2 ∧ tiPos k.1 = pos ∧ claimKey k.1 pos = claimKey a pos) && s.atPos k.1 pos &&
      decide (s.completeAt x (x.landed + x.refused + x.gone + k.2) ≤ s.now)

/-- A static transfer's next source line is read at a position of a memory in this cycle. -/
def State.readDue (s : State) (a pos : Nat) (x : Xfer) : Bool :=
  x.fixed && x.launched.isSome && decide (x.srck ≠ 2 ∧ x.read < x.len ∧ pos = 5) && decide (claimKey (x.src + x.read) pos = claimKey a pos) &&
    s.atPos (x.src + x.read) pos && decide ((s.chan x.core.cluId x.chan).cur = some x.id)

/-- A static access takes the position in this cycle: a transfer not marked static leaves it (R260). -/
def State.staticWants (s : State) (a pos : Nat) : Bool :=
  (s.flights.any fun x => s.lineDue a pos x || s.readDue a pos x) ||
    s.stackReads.any fun r => decide (r.due = some s.now) &&
      (match r.target with
        | .line t => decide (tiPos t = pos ∧ claimKey t pos = claimKey a pos)
        | _ => false)

/-- A transfer not marked static may use the position in this cycle (R260). -/
def State.openPos (s : State) (a pos : Nat) : Bool := s.atPos a pos && !s.claimed a pos && !s.staticWants a pos

/-- The position the chunk needs is offered in this cycle; a static line takes the first one after it is complete (R166). -/
def State.offered (s : State) (x : Xfer) (a e : Nat) : Bool :=
  match addrSpace a with
  | 2 => true
  | 4 =>
    match addrCoreId a with
    | none => false
    | some c => decide ((s.core c).portFree ≤ s.now) && !(s.planeQ.any fun p => decide (p.core = c ∧ p.port = 0))
  | _ => if x.fixed then s.atPos a (tiPos a) && (decide (x.srck = 2) || decide (s.now < s.completeAt x e + 8)) else s.openPos a (tiPos a)

/-- An access at a weight-plane port is over: a requester is answered, a transfer's row lands or is refused (R89, R90). -/
def planeEnds (p : PlaneAcc) (s : State) : State :=
  match p.xfer with
  | none => s.send (.dynDone (fab 4 p.core.die p.core.clu p.core.core p.ofs) (if p.bad = 0 then xOk else xArrayBusy) (if p.bad = 0 then p.got else []))
  | some id => match s.flight id with
    | none => s
    | some x =>
      if x.status.isSome then s
      else settleXfer (if p.bad = 0 then { x with landed := x.landed + 32 } else { x with refused := x.refused + 32 }) s

/-- A core's weight-plane port serves its row of the cycle (R87, R88). -/
def servePlane (c : CoreId) (s : State) : State :=
  match s.planeTurn c with
  | none => s
  | some p =>
    let r := planeRow1 p s
    let i := s.planeQ.findIdx fun q => decide (q = p)
    if r.1.done < p.rows then { r.2 with planeQ := s.planeQ.set i r.1 }
    else planeEnds r.1 { r.2 with planeQ := s.planeQ.eraseIdx i }

/-- What ends with a core cycle, after everything else of it: last conversions are counted (R202), the weight-plane ports serve a row. -/
def State.endCycle (s : State) : State :=
  let s := forAll s.cores countOps s
  forAll ((s.planeQ.map fun p => p.core).eraseDups) servePlane s

/-- The next core cycle of the stitch. -/
def State.nextCycle (s : State) : State := if s.cc < 15 then { s.endCycle with cc := s.cc + 1 }.beginCycle else s

/-- Core cycles of the stitch pass. -/
def State.passCycles : Nat → State → State
  | 0, s => s
  | n + 1, s => passCycles n s.nextCycle

/-- Discard a line that arrives after its unit's gate closed (R287). -/
def lateLine (x : Xfer) (a n : Nat) (s : State) : State :=
  (countFence F.cluSbufFence.late_lines a s).setFlight { x with gone := x.gone + n }

/-- A granted transfer whose route has lost a link ends WINDOW_CLOSED with the bytes landed, and nothing of it is still to come (R23). -/
def cutXfer (x : Xfer) (s : State) : State :=
  let s := decideAt x xWindowClosed s
  { s with flights := s.flights.map fun y => if y.id = x.id then { y with total := x.pos } else y }

/-- The next line of a granted transfer is written in its transfer-in slot, or discarded after a fence closed. -/
def transferLineLand (id : Nat) (s : State) : State :=
  match s.flight id with
  | none => s
  | some x =>
    match x.dst with
    | none => s
    | some a0 =>
      let pos := x.landed + x.refused + x.gone
      let a := (x.chunk a0).1
      let n := (x.chunk a0).2
      let arrived := !x.isReload && decide (pos + n ≤ x.data.length) && (!x.fixed || decide (x.srck = 2) || decide (s.completeAt x (pos + n) ≤ s.now))
      if x.granted && decide (0 < n) && arrived then
        if x.status = some xWindowClosed then lateLine x a n s
        else if x.status.isSome then s
        else if !s.routeOpen x then cutXfer x s
        else if s.offered x a (pos + n) then
          let s := if addrSpace a < 2 then (if x.fixed then claimStatic x a (tiPos a) s else s.claim a (tiPos a) false) else s
          let r := landChunk x a n s
          settleXfer r.1 r.2
        else s
      else s

def execTransferLineLand (id : Nat) (s : State) : Host.Outcome State Fault Refusal := done (transferLineLand id s)

/-- The first bytes meet the destination's checks (R280). -/
def arrive (x : Xfer) (a : Nat) (s : State) : State :=
  let r := arrivalCheck ⟨s.srcClass x.core.cluId a, 0⟩ a (destBytes x.len x.chk) x.win s
  if r.1 = xOk then settleXfer { x with granted := true } r.2 else decideAt x r.1 r.2

/-- A transfer's first bytes reach the destination: for a static one at the end of its legs, for a dynamic one when its
packet has come through; one whose route has lost a link ends WINDOW_CLOSED (R23), as a packet without a path does (R301, R503).  [DESIGN CHOICE, log 183] -/
def transferArrival (id : Nat) (s : State) : State :=
  match s.flight id with
  | none => s
  | some x =>
    match x.dst with
    | none => s
    | some a =>
      if x.granted ∨ x.status.isSome ∨ x.fill ∨ x.launched = none ∨ (x.read = 0 ∧ 0 < x.total) then s
      else if x.fixed then
        if x.srck = 2 ∨ s.now < s.completeAt x 1 then s
        else if s.routeOpen x then arrive x a s
        else decideXfer x xWindowClosed s
      else
        match s.msgs.zipIdx.find? fun p => decide (p.1.body = .xfer id) with
        | none => s
        | some (m, i) =>
          let s' := dropMsg s i
          if m.at_ = m.dst then (if m.ready ≤ s.now ∧ m.since + 3 ≤ s.now then arrive x a s' else s)
          else if s.dynReach m.at_ m.dst then s
          else decideXfer x xWindowClosed s'

def execTransferArrival (id : Nat) (s : State) : Host.Outcome State Fault Refusal := done (transferArrival id s)

/-! ## Source reads (R264, R279) -/

/-- Whether the carried transfer's lines come from the stacks to a target timed by R273. -/
def Xfer.timedStack (x : Xfer) : Bool := decide (x.srck = 2) && (x.fixed || x.fill)

/-- Torus port of the first hop to a module, by dimension order (R417). -/
def State.torusPort (s : State) (id : Nat) : Option Nat :=
  let own := s.get F.nirTorusId.id (Ix.mod)
  let size := fun i => s.get (if i = 0 then F.nirTorusId.sx_m1 else if i = 1 then F.nirTorusId.sy_m1 else F.nirTorusId.sz_m1) (Ix.mod) + 1
  let dist := fun i => ((id / 16 ^ i % 16) + size i - own / 16 ^ i % 16 % size i) % size i
  ([0, 1, 2].find? fun i => decide (dist i ≠ 0)).map fun i => if dist i ≤ size i - dist i then 2 * i else 2 * i + 1

/-- A transfer's XID (Table 13.2). -/
def Xfer.xid (x : Xfer) : Nat := x.core.die * 2 ^ 11 + x.core.clu * 2 ^ 4 + x.chan

/-- Cut the bytes read into WRITE frames of up to MAXPAY bytes (R420). -/
def cutFrames (d vd vcl core dofs maxpay : Nat) (x : Xfer) (own part : Nat) : Nat → Xfer → List Frame → Xfer × List Frame
  | 0, y, fs => (y, fs)
  | fuel + 1, y, fs =>
    let n := min maxpay (x.total - y.gone)
    if n = 0 ∨ y.data.length < y.gone + n then (y, fs)
    else
      let ext := vd + vcl * 2 ^ 5 + core * 2 ^ 12 + x.dspace * 2 ^ 14 + x.win * 2 ^ 18 + min (dofs + y.gone) (2 ^ 39 - 1) * 2 ^ 22 + x.total * 2 ^ 61 +
        boolNat (x.csen && x.csdst) * 2 ^ 85 + x.csobj * 2 ^ 86 + x.csinc * 2 ^ 93 + boolNat x.csrej * 2 ^ 101
      let f : Frame := ⟨frameHdr 1 0 (decide (y.gone = 0)) (decide (y.gone + n = x.total)) d own part (n / 32) x.xid ext,
        (y.data.drop y.gone).take n⟩
      cutFrames d vd vcl core dofs maxpay x own part fuel { y with gone := y.gone + n } (fs ++ [f])

/-- Frames of a torus transfer for the bytes read so far go to the module's own injection. -/
def sendFrames (x : Xfer) (s : State) : Xfer × State :=
  match x.torus with
  | none => (x, s)
  | some id =>
    let w := s.descWord x.core x.desc
    let maxpay := match s.torusPort id with
      | some p => 32 * s.get F.lnkStat.maxpay32 (Ix.mod p)
      | none => 4096
    let r := cutFrames id (bitsOf w 56 5) (bitsOf w 61 7) (bitsOf w 68 2) (bitsOf w 88 40) maxpay x (s.get F.nirTorusId.id (Ix.mod))
      ((s.partOf x.core.die.val).getD 0) (x.total / 32 + 1) x []
    (r.1, { s with inject := s.inject ++ r.2 })

/-- Source bytes go on; the last ones free the channel. -/
def sourceDone (c : CluId) (x : Xfer) (bs : List Byte) (late : Bool) (s : State) : State :=
  let r := absorb c { x with read := x.read + bs.length, asked := s.now } bs late s
  let q := sendFrames r.1 r.2
  let s := settleXfer q.1 q.2
  if q.1.len ≤ q.1.read then freeChan c x.chan s else s

/-- Bytes of words past correction: what they read as is not stated, so every byte is a free value.  [DESIGN CHOICE, log 74] -/
def State.freeBytes (s : State) (n : Nat) : List Byte := (List.range n).map fun i => BitVec.ofNat 8 (Config.freeNat 12 (s.draws + i))

/-- Bytes read from a memory, those of uncorrectable words free. -/
def State.bytesUe (s : State) (a n : Nat) : List Byte :=
  if s.upsets.isEmpty then s.bytes a n
  else (s.bytes a n).zipIdx.map fun b => if s.ueWord ((a + b.2) / 8) then BitVec.ofNat 8 (Config.freeNat 12 (s.draws + b.2)) else b.1

/-- Words past correction in a range are counted and the last one recorded (R265). -/
def countUes (a n : Nat) (s : State) : State :=
  match bankIdOf a with
  | none => s
  | some b => forAll ((wordsOf a n).filter s.ueWord) (fun w s => countUe b w s) s

/-- The reader takes its TO position: a static one meets SLOT_OWNER where its bank is not there, or another static access is (R260). -/
def claimRead (x : Xfer) (a : Nat) (s : State) : State :=
  if ¬ x.fixed then s.claim a 5 false
  else if s.atPos a 5 then claimStatic x a 5 s
  else xferFault x { code := sSlotOwner, detail := bankOf a + 40 } s

/-- One source line of a transfer that reads a scratchpad or shared buffer at its TO position.  A static one that meets a marked line
or an uncorrectable word raises its fault and goes on, as every launched transfer lands (R191, R264). -/
def localRead (c : CluId) (x : Xfer) (a n : Nat) (s : State) : State :=
  let m := s.mark a
  let b := bankOf a
  if !x.fixed && (!s.openPos a 5 || decide (0 < m.pend)) then s
  else if addrSpace a = 1 ∧ (!s.available a n ∨ (!x.fixed ∧ !(s.gates a n).isEmpty)) then stopXfer c x xUnavailable s
  else
    let s := claimRead x a s
    let bad := (s.ueIn a n).isSome
    let ecc := if addrSpace a = 1 then (F.cluSbufEcc.ce, c.ix) else (F.coreSpadEcc.ce, x.core.ix)
    let why := if 0 < m.pend then some b else if m.err || bad then some (b + 8) else none
    match why with
    | none => sourceDone c x (s.bytes a n) m.late (s.correctIn ecc.1 ecc.2 a n)
    | some detail =>
      let t := countUes a n s
      if x.fixed then
        sourceDone c x (s.bytesUe a n) m.late ((xferFault x { code := sNotReady, detail := detail } t).takeDraws (if bad then n else 0))
      else stopXfer c x xMarkedSource t

/-- Address in the shared buffer of a cache slot: the unit is the slot's among the CACHE units, ascending (R269). -/
def State.slotPlace (s : State) (c : CluId) (i : Nat) : Nat := sbufAddr c ((s.cacheUnits c).getD (i / 256) 0 * 65536 + i % 256 * 256)

/-- One source line of a non-static transfer from the stacks: a cache hit is read from its unit at TO, a miss asks the stack, one request a
cycle over all channels (R270, R273, R287). -/
def dynStackRead (c : CluId) (x : Xfer) (a n : Nat) (s : State) : State :=
  if s.stackReads.any fun r => decide (r.xfer = some x.id) then s
  else match s.cacheHit c a, s.cacheSlot c a with
    | some k, some i =>
      if !s.openPos (s.slotPlace c i) 5 then s
      else sourceDone c x ((k.data.drop (a % 256)).take n) k.late ((s.claim (s.slotPlace c i) 5 false).inc F.cluSbufHits.count c.ix)
    | _, _ =>
      if (Map.find s.lastReq c).any fun t => decide (s.now ≤ t) then s
      else
        let s := if (s.cacheUnits c).isEmpty then s else s.inc F.cluSbufMisses.count c.ix
        if s.available a n && (s.gates a n).isEmpty then
          { s with lastReq := Map.put s.lastReq c s.now }.askStack ⟨some x.id, c, a, n, .data, s.now, none, []⟩
        else stopXfer c x xUnavailable s

/-- The carried transfer reads its next source line (R264, R279). -/
def transferSourceRead (c : CluId) (ch : Nat) (s : State) : State :=
  match (s.chan c ch).cur.bind s.flight with
  | none => s
  | some x =>
    let a := x.src + x.read
    let n := min (256 - a % 256) (x.len - x.read)
    if n = 0 ∨ x.timedStack ∨ (0 < x.read ∧ s.now ≤ x.asked) then s
    else if x.srck = 2 then dynStackRead c x a n s
    else localRead c x a n s

def execTransferSourceRead (c : CluId) (ch : Fin 16) (s : State) : Host.Outcome State Fault Refusal :=
  done (transferSourceRead c ch s)

/-! ## Stack line requests and returns (R273, R277) -/

/-- Target, address, length and required wheel position of the next request of a timed stack transfer. -/
def State.nextRequest (s : State) (c : CluId) (x : Xfer) : Option (StackTarget × Nat × Nat × Option (Nat × Nat)) :=
  let a := x.src + x.read
  if x.fill then
    let n := min (256 - a % 256) (x.len - x.read)
    (s.cacheSlot c a).map fun i => (.cache i, a, n, some (i % 8, 4))
  else x.dst.map fun d =>
    let t := d + x.read
    let n := min (256 - t % 256) (x.len - x.read)
    if x.dspace = 4 then (.reload t, a, n, none) else (.line t, a, n, some (bankOf t, tiPos t))

/-- The engine issues a line's request when its return meets the destination bank's TI position; one a cycle over all
channels, lines in order. -/
def stackLineRequest (c : CluId) (ch : Nat) (s : State) : State :=
  match (s.chan c ch).cur.bind s.flight with
  | none => s
  | some x =>
    if !x.timedStack || decide (x.len ≤ x.read) || (Map.find s.lastReq c).any (fun t => decide (s.now ≤ t)) ||
      (decide (0 < x.read) && decide (s.now ≤ x.asked)) then s
    else match s.nextRequest c x with
      | none => freeChan c ch (decideXfer x xUnavailable s)
      | some (t, a, n, pos) =>
        let due := s.now + s.stackLat a
        let meets := match pos with
          | none => true
          | some (b, p) => decide (wheelPos b due = p)
        if !meets then s
        else
          let s := { s with lastReq := Map.put s.lastReq c s.now }.askStack ⟨some x.id, c, a, n, t, s.now, some due, []⟩
          let s := match t with
            | .cache i => { s with cache := Map.put s.cache (c, i) { line := a / 256, filling := true } }
            | _ => s
          let s := s.setFlight { x with read := x.read + n, asked := s.now }
          if x.len ≤ x.read + n then freeChan c ch s else s

def execStackLineRequest (c : CluId) (ch : Fin 16) (s : State) : Host.Outcome State Fault Refusal :=
  done (stackLineRequest c ch s)

/-- Count a retried read (R277). -/
def countEcc (a : Nat) (e : ReadEcc) (s : State) : State :=
  let ix := Ix.stw (addrDie a) (sideOf (addrOfs a))
  match e with
  | .clean => s
  | .retried => s.inc F.stkEcc.retry ix
  | .failed => (s.inc F.stkEcc.retry ix).inc F.stkEcc.ue ix

/-- Land every complete chunk of a timed stack transfer. -/
def landReady (id : Nat) : Nat → State → State
  | 0, s => s
  | fuel + 1, s =>
    match s.flight id with
    | none => s
    | some x =>
      match x.dst with
      | none => s
      | some a0 =>
        let pos := x.landed + x.refused + x.gone
        let c := x.chunk a0
        if x.granted ∧ x.status = none ∧ 0 < c.2 ∧ pos + c.2 ≤ x.data.length then
          let s := if addrSpace c.1 < 2 then claimStatic x c.1 (tiPos c.1) s else s
          let r := landChunk x c.1 c.2 s
          landReady id fuel (settleXfer r.1 r.2)
        else s

/-- Data of a timed read reach a scratchpad or shared-buffer line. -/
def returnLine (r : StackRead) (x : Xfer) (bs : List Byte) (late : Bool) (s : State) : State :=
  let q := absorb r.clu x bs late s
  let s := q.2.setFlight q.1
  let s := match q.1.granted, q.1.status, q.1.dst with
    | false, none, some a => arrive q.1 a s
    | _, _, _ => s
  landReady x.id 2 s

/-- Data of a fill reach their slot, unless the fill was made void. -/
def returnFill (r : StackRead) (i : Nat) (bs : List Byte) (late : Bool) (s : State) : State :=
  let s := match Map.find s.cache (r.clu, i) with
    | none => s
    | some k =>
      if k.line ≠ r.addr / 256 ∨ ¬ k.filling then s
      else if k.drop then { s with cache := Map.del s.cache (r.clu, i) }
      else { s with cache := Map.put s.cache (r.clu, i) { k with valid := true, filling := false, late := late, endsAt := none, data := bs } }
  match r.xfer.bind s.flight with
  | none => s
  | some x => settleXfer { x with granted := true, landed := x.landed + r.n } s

/-- Stack read i may return now: exactly at its reported latency, or after it where an error was retried, at its bank's TI position (R37,
R38, R273); a dynamic read at any time. -/
def State.returnsNow (s : State) (r : StackRead) (e : ReadEcc) : Bool :=
  match r.due with
  | none => true
  | some t =>
    if e = .clean then decide (s.now = t)
    else decide (t < s.now) &&
      (match r.target with
        | .line a => s.atPos a (tiPos a)
        | .cache i => s.atPos (s.slotPlace r.clu i) 4
        | _ => true)

/-- Stack read i returns with what its bytes held when it reached the controller: exactly at its reported latency, or late after a retry
(LATE mark, R38); a dynamic read whose retry failed ends ECC_UE.  What a static read whose retry failed delivers is not stated and is
free.  A line of a streaming reload that comes late goes into its plane without a mark.  [DESIGN CHOICE, log 184] -/
def stackReadReturn (i : Nat) (e : ReadEcc) (s : State) : State :=
  match s.stackReads[i]? with
  | none => s
  | some r =>
    if !s.returnsNow r e then s
    else
      let s := countEcc r.addr e s
      let s := { s with stackReads := s.stackReads.eraseIdx i }
      let late := decide (e ≠ .clean)
      let got := if e = .failed then s.freeBytes r.data.length else r.data
      let s := if e = .failed then s.takeDraws 256 else s
      match r.target with
      | .cache k => returnFill r k got late s
      | .line _ =>
        match r.xfer.bind s.flight with
        | none => s
        | some x => returnLine r x got late s
      | .reload _ =>
        match r.xfer.bind s.flight with
        | none => s
        | some x =>
          let x := if 32 ≤ s.reloadHeld r.clu then { x with lost := x.lost ++ [x.data.length] } else x
          let q := absorb r.clu x got false s
          let s := q.2.setFlight q.1
          match q.1.granted, q.1.status, q.1.dst with
          | false, none, some a => arrive q.1 a s
          | _, _, _ => s
      | .data =>
        match r.xfer.bind s.flight with
        | none => s
        | some x => if e = .failed then stopXfer r.clu x xEccUe s else sourceDone r.clu x r.data false s

def execStackReadReturn (i : Nat) (e : ReadEcc) (s : State) : Host.Outcome State Fault Refusal := done (stackReadReturn i e s)

/-! ## Completion (R179, R281) -/

/-- The transfer's completion is still on its way over the fabric. -/
def State.complAway (s : State) (id : Nat) : Bool :=
  s.msgs.any fun m => decide (m.body = MsgBody.compl id) && (decide (m.at_ ≠ m.dst) || decide (s.now < m.since + 3))

/-- A completion reaches the issuing cluster: recorded, counted, signalled; a static transfer's that is not OK raises WINDOW
as an ARRIVAL fault. -/
def transferCompletion (id : Nat) (s : State) : State :=
  match s.flight id with
  | none => s
  | some x =>
    match x.status with
    | none => s
    | some st =>
      if x.completed || s.complAway id then s
      else
        let s := { s with msgs := s.msgs.filter fun m => decide (m.body ≠ MsgBody.compl id) }
        let ix := x.core.cluId.ix x.chan
        let s := s.sets ix [(F.xferChLast.status, st), (F.xferChLast.desc, x.desc), (F.xferChLast.core, x.core.core.val),
          (F.xferChLast.static, boolNat x.fixed), (F.xferChLast.landed, x.landed)]
        let s := if st = xOk then s.inc F.xferChStat.done ix else s.inc F.xferChRej.rejected ix
        let s := if st = xChannelFull then s.inc F.xferChRej.full ix else s
        let s := if x.csen && !x.csdst && (decide (st = xOk) || x.csrej) then signalDone x x.core.cluId s else s
        let s := if st ≠ xOk ∧ st ≠ xChannelFull then reloadDone (x.reloadSpan x.pos x.total) s else s
        let s := if x.fixed && decide (st ≠ xOk) then s.schedFault x.core 3 x.bundle { code := sWindow, detail := x.desc } else s
        if x.draining || decide ((s.chan x.core.cluId x.chan).cur = some id) then s.setFlight { x with completed := true }
        else { s with flights := s.flights.filter fun y => decide (y.id ≠ id) }

def execTransferCompletion (id : Nat) (s : State) : Host.Outcome State Fault Refusal := done (transferCompletion id s)

end Sys2Proof.Machine
end

