-- ==== Sys2Proof/Machine/MemEvents.lean ====
section
/-!
DEFINITION. Memory events (R261, R265, R266, R284-R289): the RW queues, corrected write-back and scrub, fences, switching
off and zeroing, stack clears.
-/

namespace Sys2Proof.Machine
open Sys2Proof

/-! ## The RW queue (R261) -/

/-- Why a dynamic access to an address is not performed: no such address; its region dark (R289, R303), or its gate closed to a write (R287);
its gate closed to a read, or its unit not SCRATCH (R268). -/
def State.accessStop (s : State) (a n : Nat) (write : Bool) : Option Nat :=
  if !s.addressOk a n then some xAddressFault
  else if s.darkAt a ∨ (write ∧ !(s.gates a n).isEmpty) then some xWindowClosed
  else if !(s.gates a n).isEmpty ∨ !s.available a n then some xUnavailable
  else none

/-- Count a dynamic access that is not performed: an address fault (R12), a dark region (R289), a closed gate (R287). -/
def countStop (a n st : Nat) (s : State) : State :=
  if st = xAddressFault then s.countFault (addrDie a)
  else if s.darkAt a then countFence F.cluSbufFence.late_lines a s
  else if !(s.gates a n).isEmpty then countFence F.cluSbufFence.refused a s
  else s

/-- A request joins a bank's queue: of two ports that enter in one cycle port 0 is first, and port 1 enters in the next cycle (R261). -/
def joinQueue (r : RwReq) (q : List RwReq) : Option (List RwReq) :=
  match q.getLast? with
  | none => some [r]
  | some l =>
    if 4 ≤ q.length ∨ (r.entered ≤ l.entered ∧ l.port = r.port) then none
    else if l.entered < r.entered then some (q ++ [r])
    else if r.port < l.port then some (q.dropLast ++ [r, { l with entered := r.entered + 1 }])
    else some (q ++ [{ r with entered := r.entered + 1 }])

/-- A dynamic request enters its bank's queue; one that finds the queue full retries later (R261). -/
def rwQueueRequest (port a : Nat) (w : Option (List Byte)) (n : Nat) (s : State) : State :=
  let len := match w with
    | some bs => bs.length
    | none => n
  match s.accessStop a len w.isSome, bankIdOf a with
  | some st, _ => (countStop a len st s).send (.dynDone a st [])
  | none, none => (s.countFault (addrDie a)).send (.dynDone a xAddressFault [])
  | none, some b =>
    if 256 < a % 256 + len then s
    else match joinQueue ⟨port, s.now, a, w, n⟩ (Map.getD s.rwq b []) with
      | none => s
      | some q => { s with rwq := Map.put s.rwq b q }

def execRwQueueRequest (port : Fin 2) (a : Addr) (w : Option (List Byte)) (n : Nat) (s : State) : Host.Outcome State Fault Refusal :=
  done (rwQueueRequest port a.toNat w n s)

/-- A word of a write that is covered in part and holds an uncorrectable error (R265). -/
def State.mergeBad (s : State) (a n : Nat) : Option Nat :=
  if s.upsets.isEmpty then none else (wordsOf a n).find? fun w => s.ueWord w && !coversWord a n w

/-- Bytes of a write that can be written: those of a word past correction that the write covers in part stay as they are (R265). -/
def State.mergeWords (s : State) (a n : Nat) : List Nat := (wordsOf a n).filter fun w => s.ueWord w && !coversWord a n w

/-- Perform one dynamic access.  A merge into a word past correction is a read of it: it is counted, and the access completes ECC_UE. -/
def rwPerform (b : BankId) (r : RwReq) (s : State) : State :=
  let e := bankEcc b
  match r.write with
  | some bs =>
    let bad := s.mergeWords r.addr bs.length
    let s := forAll bad (fun w s => countUe b w s) (s.correctMerged e.1 e.2.2 r.addr bs.length)
    let s := (s.store r.addr bs).markWritten r.addr false false false
    s.send (.dynDone r.addr (if bad.isEmpty then xOk else xEccUe) [])
  | none =>
    let bad := (wordsOf r.addr r.n).filter s.ueWord
    let s := forAll bad (fun w s => countUe b w s) (s.correctIn e.1 e.2.2 r.addr r.n)
    s.send (if bad.isEmpty then .dynDone r.addr xOk (s.bytes r.addr r.n) else .dynDone r.addr xEccUe [])

/-- The oldest request of a bank is served at the bank's RW position. -/
def rwAccess (b : BankId) (s : State) : State :=
  match Map.getD s.rwq b [] with
  | [] => s
  | r :: rest =>
    if s.atPos r.addr (rwPos b) ∧ r.entered < s.now ∧ ¬ s.claimed r.addr (rwPos b) then
      let n := (r.write.map List.length).getD r.n
      let t := { s with rwq := if rest.isEmpty then Map.del s.rwq b else Map.put s.rwq b rest }.claim r.addr (rwPos b) false
      match s.accessStop r.addr n r.write.isSome with
      | none => rwPerform b r t
      | some st => (countStop r.addr n st t).send (.dynDone r.addr st [])
    else s

def execRwAccess (b : BankId) (s : State) : Host.Outcome State Fault Refusal := done (rwAccess b s)

/-! ## ECC (R265, R266) -/

/-- A corrected word of the bank is written back at its MT position: its error is gone (R265). -/
def eccWriteback (b : BankId) (s : State) : State :=
  if s.atPos (bankLine b 0) (mtPos b) then
    match takeFirst (fun w => decide (bankIdOf (8 * w) = some b)) s.writebacks with
    | some (w, rest) => { s with writebacks := rest, upsets := s.upsets.filter fun u => !(decide (u.1 = w) && !u.2) }
    | none => s
  else s

def execEccWriteback (b : BankId) (s : State) : Host.Outcome State Fault Refusal := done (eccWriteback b s)

/-- Wheel turns per scrubbed line. -/
def State.scrubDiv (s : State) : BankId → Nat
  | .spad c _ => max 1 (s.get F.coreSpadCfg.scrub_div c.ix)
  | .sbuf c _ _ => max 1 (s.get F.cluSbufScrub.scrub_div c.ix)

/-- ECC-UE (Table 16.11). -/
def eccEvent (b : BankId) (row w : Nat) (s : State) : State :=
  let f := match b with
    | .spad c k => (c.die.val, c.clu.val, c.core.val, 0, row * 8 + k.val)
    | .sbuf c u k => (c.die.val, c.clu.val, 4, u.val, row * 8 + k.val)
  s.emit 0x0024 2 f.1 (s.partOf f.1) [(s.stitch, 64), (f.1, 5), (f.2.1, 7), (f.2.2.1, 3), (f.2.2.2.1, 3), (f.2.2.2.2, 10), (w % 32, 5)]

/-- Scrub one line: single-bit errors are corrected and counted, uncorrectable words counted and reported. -/
def scrubRow (b : BankId) (row : Nat) (s : State) : State :=
  let a := bankLine b row
  if 0 < (s.mark a).pend then s
  else
    let e := bankEcc b
    let bad := (wordsOf a 256).filter s.ueWord
    forAll bad (fun w s => eccEvent b row w (countUe b w s)) (s.correctIn e.1 e.2.2 a 256)

/-- At an MT position of the bank, every SCRUB_DIV-th turn, the next line in row order is scrubbed.  `flip` is an upset the
line's cells have suffered: a word, and whether it is past correction.  [DESIGN CHOICE, log 107] -/
def scrubLine (b : BankId) (flip : Option (Fin 32 × Bool)) (s : State) : State :=
  if s.atPos (bankLine b 0) (mtPos b) ∧ s.now / 8 % s.scrubDiv b = 0 then
    let row := Map.getD s.scrubRow b 0
    let s := { s with scrubRow := Map.put s.scrubRow b ((row + 1) % bankRows b) }
    let s := match flip with
      | none => s
      | some (w, ue) => { s with upsets := Map.put s.upsets (bankLine b row / 8 + w.val) (ue || s.ueWord (bankLine b row / 8 + w.val)) }
    scrubRow b row s
  else s

def execScrubLine (b : BankId) (flip : Option (Fin 32 × Bool)) (s : State) : Host.Outcome State Fault Refusal :=
  done (scrubLine b flip s)

/-! ## Fences (R287, R289) -/

/-- Close a unit's gate to new grants from this stitch. -/
def startFence (u : FenceUnit) (s : State) : State :=
  if ((Map.find s.fences u).any fun f => !f.off) then s
  else
    let s := { s with fences := Map.put s.fences u { start := s.stitch, since := s.now } }
    match u with
    | .sbuf c i => s.setSbufState c i 1
    | .group d sd g =>
      let ix := Ix.stw d sd
      s.set F.stkStat.grp_fencing ix (putBits (s.get F.stkStat.grp_fencing ix) g 1 1)
    | .region c => forAll (List.range 8) (fun i s => if s.sbufState c i = 0 then s.setSbufState c i 1 else s) s

/-- A granted transfer with lines still to land in the unit. -/
def landsIn (u : FenceUnit) (x : Xfer) : Bool :=
  x.granted && x.status.isNone && !x.spent &&
    (match x.dst with
      | some a => meetsUnit a x.total u
      | none => false)

/-- Stack requests of a group queued before the fence. -/
def State.groupBusy (s : State) (u : FenceUnit) : Bool :=
  match u with
  | .group d sd g => s.stackReads.any (fun r => decide (addrDie r.addr = d.val) && (stackGroups (addrOfs r.addr) 1).contains (4 * sd.val + g.val)) ||
      s.stackWrites.any (fun r => decide (addrDie r.addr = d.val) && (stackGroups (addrOfs r.addr) 1).contains (4 * sd.val + g.val))
  | _ => false

/-- Signal the destination object of an arriving transfer. -/
def signalIn (w : InWrite) (s : State) : State :=
  match addrCluId w.dst with
  | some c => if addrSpace w.dst = 2 then s else s.settleSync.addSync ⟨s.now + 1, c, w.csobj, false, w.csinc, 5⟩
  | none => s

def State.inWrite (s : State) (src xid : Nat) : Option InWrite := s.net.inWrites.find? fun w => decide (w.src = src) && decide (w.xid = xid)

/-- Replace the record of an arriving transfer, or drop it. -/
def State.putInWrite (s : State) (src xid : Nat) (w : Option InWrite) : State :=
  { s with net := { s.net with inWrites := (s.net.inWrites.filter fun v => !(decide (v.src = src) && decide (v.xid = xid))) ++ w.toList } }

/-- A COMPL frame answers an arriving torus transfer (R420). -/
def answerIn (w : InWrite) (st : Nat) (s : State) : State :=
  { s with inject := s.inject ++ [⟨frameHdr 2 1 true true w.src (s.get F.nirTorusId.id (Ix.mod)) w.part 0 w.xid (st + w.landed * 2 ^ 4), []⟩] }

/-- A granted torus transfer ends WINDOW_CLOSED with the bytes landed; what still comes of it is discarded (R287, R289, R504). -/
def closeIn (w : InWrite) (s : State) : State :=
  let s := s.putInWrite w.src w.xid (some { w with status := some xWindowClosed, late := true })
  answerIn w xWindowClosed (if w.csd ∧ w.csrej then signalIn w s else s)

/-- Granted torus transfers with bytes still to land in a unit. -/
def State.arrivingIn (s : State) (u : FenceUnit) : List InWrite :=
  s.net.inWrites.filter fun w => w.status.isNone && meetsUnit w.dst w.total u

/-- Granted transfers of a unit that have not finished end WINDOW_CLOSED, those over the torus too. -/
def closeUnit (u : FenceUnit) (s : State) : State :=
  forAll (s.arrivingIn u) closeIn (forAll (s.flights.filter (landsIn u)) (fun x s => decideAt x xWindowClosed s) s)

/-- The drain ends at the first stitch with nothing left, or 512 st after the start: WINDOW_CLOSED for what has not finished. -/
def fenceDrainEnd (u : FenceUnit) (s : State) : State :=
  match Map.find s.fences u with
  | none => s
  | some f =>
    let rest := !(s.flights.filter (landsIn u)).isEmpty || !(s.arrivingIn u).isEmpty || s.groupBusy u
    if f.closedAt.isNone && (!rest || decide (f.start + 512 ≤ s.stitch)) then
      closeUnit u { s with fences := Map.put s.fences u { f with closedAt := some s.stitch } }
    else s

def execFenceDrainEnd (u : FenceUnit) (s : State) : Host.Outcome State Fault Refusal := done (fenceDrainEnd u s)

/-- Lose the contents of an address range.  [DESIGN CHOICE, log 66] -/
def State.loseRange (s : State) (lo hi : Nat) : State :=
  { s with mem := Memory.clearRange s.mem lo hi
           upsets := s.upsets.filter fun p => decide (8 * p.1 < lo) || decide (hi ≤ 8 * p.1)
           marks := s.marks.filter fun p => decide (256 * p.1 < lo) || decide (hi ≤ 256 * p.1) }

/-- A unit is switched off at D + 1 behind its closed gate (Table 08.9) and its contents are lost; a region goes off by its own sequence (R460). -/
def unitPowerOff (u : FenceUnit) (s : State) : State :=
  match ((Map.find s.fences u).filter fun f => !f.off).bind fun f => f.closedAt with
  | none => s
  | some d =>
    let s' : State := { s with fences := s.fences.map fun (e : FenceUnit × Fence) => if e.1 = u then (e.1, { e.2 with off := true }) else e }
    if s.stitch < d + 1 then s
    else match u with
      | .sbuf c i =>
        let lo := sbufAddr c (i * 65536)
        (s'.loseRange lo (lo + 65536)).setSbufState c i 2
      | .group d sd g =>
        let ix := Ix.stw d sd
        let lo := fabStack d ((4 * sd + g) * 2 ^ 32)
        let s := s'.loseRange lo (lo + 2 ^ 32)
        (s.set F.stkStat.grp_fencing ix (putBits (s.get F.stkStat.grp_fencing ix) g 1 0)).set F.stkStat.grp_ready ix
          (putBits (s.get F.stkStat.grp_ready ix) g 1 0)
      | .region _ => s

def execUnitPowerOff (u : FenceUnit) (s : State) : Host.Outcome State Fault Refusal := done (unitPowerOff u s)

/-- Time of a stack clear at full bandwidth, and of zeroing a group: 1,572,864 st at step 0, in units of wall time (R285, R288). -/
def stackClearWall : Nat := 1572864 * 165

/-- A newly powered channel group has been zeroed: ready (R288). -/
def groupZeroDone (d : DieIx) (sd : Fin 2) (g : Fin 4) (s : State) : State :=
  let ix := Ix.stw d sd
  if (Map.find s.zeroing (d.val, 4 * sd.val + g.val)).any fun t => decide (t + stackClearWall ≤ s.wall) then
    let lo := fabStack d ((4 * sd + g) * 2 ^ 32)
    let s := { s with zeroing := Map.del s.zeroing (d.val, 4 * sd.val + g.val) }.loseRange lo (lo + 2 ^ 32)
    s.set F.stkStat.grp_ready ix (putBits (s.get F.stkStat.grp_ready ix) g 1 1)
  else s

def execGroupZeroDone (d : DieIx) (sd : Fin 2) (g : Fin 4) (s : State) : Host.Outcome State Fault Refusal := done (groupZeroDone d sd g s)

/-- A die's stack clear ends (R285). -/
def stackClearDone (d : DieIx) (s : State) : State :=
  if (Map.find s.clearing d.val).any fun t => decide (t + stackClearWall ≤ s.wall) then
    ({ s with clearing := Map.del s.clearing d.val }.set F.stkStat.clearing (Ix.stw d 0) 0).set F.stkStat.clearing (Ix.stw d 1) 0
  else s

def execStackClearDone (d : DieIx) (s : State) : Host.Outcome State Fault Refusal := done (stackClearDone d s)

/-- Some die of the partition is still being cleared: launches are refused CLEARING. -/
def State.partClearing (s : State) (p : Nat) : Bool := (s.diesOf p).any fun d => (Map.find s.clearing d).isSome

end Sys2Proof.Machine
end

