-- ==== Sys2Proof/Machine/Sequencer.lean ====
section
/-!
DEFINITION. The schedule sequencer (R168-R176, R197): slot decoding, bundle issue by the three launch kinds, task launch, and
the region cap on credits (R185).
-/

namespace Sys2Proof.Machine
open Sys2Proof

/-! ## Slot values (Tables 06.2 to 06.17, R197) -/

/-- What a defined slot value does; none for an undefined one. -/
abbrev SlotFn := Option (State → SlotRes)

/-- A defined value has its reserved bits zero. -/
def resv (w lo n : Nat) (f : State → SlotRes) : SlotFn := if bitsOf w lo n = 0 then some f else none

/-- Slot A (Tables 06.2 to 06.6). -/
def decodeA (c : CoreId) (w : Nat) : SlotFn :=
  match bitsOf w 34 6 with
  | 1 => resv w 0 17 (amvSlot c (bitsOf w 30 4) (bitsOf w 27 3) (bitsOf w 17 10))
  | 2 => resv w 0 17 (amvwSlot c (bitsOf w 30 4) (bitsOf w 27 3) (bitsOf w 17 10))
  | 3 => resv w 0 18 (ldlSlot c (bitsOf w 31 3) (bitsOf w 29 2) (bitsOf w 18 11))
  | 4 => resv w 0 32 (xsetSlot c (bitsOf w 32 2))
  | _ => none

/-- The fields of form VR (Table 06.8). -/
def vrOfWord (w : Nat) : VrFields :=
  ⟨bitsOf w 29 5, bitsOf w 24 5, bitsOf w 19 5, bitsOf w 14 5, bitsOf w 12 2, decide (bitsOf w 11 1 = 1), bitsOf w 8 3, bitsOf w 0 8⟩

/-- Slot V (Tables 06.7 to 06.15). -/
def decodeV (c : CoreId) (w : Nat) : SlotFn :=
  let vr := fun (f : CoreId → VrFields → State → SlotRes) => some (f c (vrOfWord w))
  let b := fun lo => decide (bitsOf w lo 1 = 1)
  match bitsOf w 34 6 with
  | 0x01 => vr vaddSlot
  | 0x02 => vr vsubSlot
  | 0x03 => vr vmulSlot
  | 0x04 => vr vfmaSlot
  | 0x05 => vr vmaxSlot
  | 0x06 => vr vminSlot
  | 0x07 => vr vcmpSlot
  | 0x08 => vr vselSlot
  | 0x09 => vr vmovSlot
  | 0x0A => vr vmovsSlot
  | 0x0B => vr vcvtSlot
  | 0x0C => vr vswpSlot
  | 0x0D => vr vrsumSlot
  | 0x0E => vr vrmaxSlot
  | 0x10 => vr vexpSlot
  | 0x11 => vr vrcpSlot
  | 0x12 => vr vrsqSlot
  | 0x13 => resv w 0 17 (vsmxSlot c (bitsOf w 29 5) (bitsOf w 24 5) (bitsOf w 22 2) (bitsOf w 18 4) (b 17))
  | 0x18 => resv w 0 8 (vldSlot c (bitsOf w 29 5) (bitsOf w 16 13) (bitsOf w 13 3) (b 12) (bitsOf w 8 4))
  | 0x19 => resv w 0 8 (vstSlot c (bitsOf w 29 5) (bitsOf w 16 13) (bitsOf w 13 3) (b 12) (bitsOf w 8 4))
  | 0x1A => resv w 0 5 (vldsSlot c (bitsOf w 30 4) (bitsOf w 28 2) (bitsOf w 10 18) (b 9) (bitsOf w 5 4))
  | 0x1B => resv w 0 5 (vstsSlot c (bitsOf w 30 4) (bitsOf w 28 2) (bitsOf w 10 18) (b 9) (bitsOf w 5 4))
  | 0x20 => resv w 0 15 (qscSlot c (bitsOf w 29 5) (bitsOf w 27 2) (bitsOf w 25 2) (bitsOf w 21 4) (bitsOf w 17 4) (bitsOf w 15 2))
  | 0x21 => resv w 0 2 (vpscSlot c (bitsOf w 29 5) (bitsOf w 19 10) (bitsOf w 14 5) (bitsOf w 10 4) (bitsOf w 8 2) (bitsOf w 7 1)
      (bitsOf w 6 1) (bitsOf w 5 1) (b 4) (bitsOf w 2 2))
  | 0x22 => resv w 0 1 (qntSlot c (bitsOf w 29 5) (bitsOf w 24 5) (bitsOf w 22 2) (bitsOf w 20 2) (bitsOf w 18 2) (bitsOf w 16 2)
      (bitsOf w 9 7) (bitsOf w 5 4) (bitsOf w 1 4))
  | 0x23 => resv w 0 13 (vdqSlot c (bitsOf w 29 5) (bitsOf w 24 5) (bitsOf w 22 2) (bitsOf w 19 3) (bitsOf w 15 4) (bitsOf w 13 2))
  | 0x24 => resv w 0 2 (vqktSlot c (bitsOf w 29 5) (bitsOf w 24 5) (bitsOf w 14 10) (bitsOf w 9 5) (bitsOf w 7 2) (bitsOf w 6 1)
      (bitsOf w 5 1) (b 4) (bitsOf w 2 2))
  | 0x25 => resv w 0 2 (vpvtSlot c (bitsOf w 29 5) (bitsOf w 24 5) (bitsOf w 14 10) (bitsOf w 9 5) (bitsOf w 7 2) (bitsOf w 6 1)
      (bitsOf w 5 1) (b 4) (bitsOf w 2 2))
  | 0x28 => resv w 0 14 (vctxSlot c (bitsOf w 30 4) (bitsOf w 26 4) (bitsOf w 22 4) (bitsOf w 14 8))
  | _ => none

/-- Slot T (Table 06.17). -/
def decodeT (c : CoreId) (w : Nat) : SlotFn :=
  match bitsOf w 34 6 with
  | 0x01 => resv w 0 34 (endSlot c)
  | 0x02 => resv w 0 23 (jmpSlot c (bitsOf w 23 11))
  | 0x03 => resv w 0 18 (loopSlot c (bitsOf w 18 16))
  | 0x04 => resv w 0 34 (elpSlot c)
  | 0x05 => resv w 0 4 (stldSlot c (bitsOf w 32 2) (bitsOf w 30 2) (bitsOf w 28 2) (bitsOf w 4 24))
  | 0x06 => resv w 0 28 (xferSlot c (bitsOf w 28 6))
  | 0x07 => resv w 0 28 (sigSlot c (bitsOf w 28 6))
  | 0x08 => resv w 0 19 (siglSlot c (bitsOf w 27 7) (bitsOf w 19 8))
  | 0x09 => resv w 0 27 (srstSlot c (bitsOf w 27 7))
  | 0x0A => resv w 0 10 (sliSlot c (bitsOf w 30 4) (bitsOf w 10 20))
  | 0x0B => resv w 0 18 (slhSlot c (bitsOf w 30 4) (bitsOf w 18 12))
  | 0x0C => resv w 0 6 (saddSlot c (bitsOf w 30 4) (bitsOf w 26 4) (bitsOf w 6 20))
  | _ => none

/-! ## A bundle -/

/-- Address of a bundle in the bundle store (R168). -/
def bundleAddr (c : CoreId) (n : Nat) : Nat := fab 3 c.die c.clu c.core (0xC8000 + 16 * n)

/-- The bundle at the program counter (R169). -/
def State.bundle (s : State) (c : CoreId) : Nat := bytesToNat (s.bytes (bundleAddr c (s.pc c)) 16)

/-- The launch field of a bundle (R171). -/
def launchOf (b : Nat) : Nat := bitsOf b 120 8

/-- Result of a slot: a zero slot does nothing, an undefined one raises ILLEGAL with the slot. -/
def slotResult (slot w : Nat) (f : SlotFn) (s : State) : SlotRes :=
  if w = 0 then .ok s
  else match f with
    | some g => g s
    | none => .error { code := sIllegal, detail := slot }

/-- Slot T steers the program counter itself in JMP, LOOP, ELP, and ends the task in END. -/
def steersPc (w : Nat) : Bool := decide (1 ≤ bitsOf w 34 6) && decide (bitsOf w 34 6 ≤ 4)

/-- The next bundle's launch field decides what the sequencer waits for. -/
def settleSeq (c : CoreId) (s : State) : State :=
  if s.get F.coreSeqTask.state c.ix = qDone then s
  else
    let st := match launchOf (s.bundle c) / 64 with
      | 1 => qWaitStitch
      | 2 => qWaitSync
      | _ => qRun
    (s.set F.coreSeqTask.state c.ix st).setCore c { s.core c with waitFrom := (s.now + 1) / 16 }

/-- Issue the bundle at the program counter in this cycle: slots A, V and T are checked and issue on their own (R187, R188),
then the program counter moves. -/
def issueBundle (c : CoreId) (s : State) : State :=
  let b := s.bundle c
  let wa := bitsOf b 80 40
  let wv := bitsOf b 40 40
  let wt := bitsOf b 0 40
  let s := s.set F.coreSeqTask.state c.ix qRun
  let s := s.setCore c { s.core c with prevNext := s.now + 1 }
  let s := slotDone c 0 s (slotResult 0 wa (decodeA c wa) s)
  let s := match slotResult 1 wv (decodeV c wv) s with
    | .ok s' => s'
    | .error e => (s.countVFault c e).schedFault c 1 (s.pc c) e
  let moved := fun (s : State) => slotDone c 2 s (s.advancePc c)
  let s := match slotResult 2 wt (decodeT c wt) s with
    | .ok s' => if steersPc wt then s' else moved s'
    | .error e =>
      let s' := s.schedFault c 2 (s.pc c) e
      -- A LOOP or ELP that would pass 2,047 has raised PC_RANGE already.
      if e.code = sPcRange then s' else moved s'
  settleSeq c s

/-- A fault of the launch field: the bundle does not issue and the sequencer stays at it (R189).  [DEDUCED, log 92] -/
def launchFault (c : CoreId) (code detail : Nat) (s : State) : State :=
  let s := s.schedFault c 2 (s.pc c) { code, detail }
  s.setCore c { s.core c with stopAt := some s.now }

/-- BUNDLE_ISSUE: a NEXT launch issues GAP + 1 cycles after the previous issue; a reserved kind raises ILLEGAL (R171). -/
def bundleIssue (c : CoreId) (s : State) : State :=
  let l := launchOf (s.bundle c)
  if s.get F.coreSeqTask.state c.ix = qRun ∧ s.notStopped c then
    if l / 64 = 0 then (if s.now = (s.core c).prevNext + l % 64 then issueBundle c s else s)
    else if l / 64 = 3 ∧ (s.core c).prevNext ≤ s.now then launchFault c sIllegal 3 s
    else s
  else s

def execBundleIssue (c : CoreId) (s : State) : Host.Outcome State Fault Refusal := done (bundleIssue c s)

/-- STITCH_LAUNCH: issue in cycle CYC of stitch ST[i] and anchor; STITCH_LATE where that cycle has passed (R172, R174). -/
def stitchLaunch (c : CoreId) (s : State) : State :=
  let l := launchOf (s.bundle c)
  let i := l / 16 % 4
  let t := 16 * s.stReg c i + l % 16
  if s.get F.coreSeqTask.state c.ix = qWaitStitch ∧ s.notStopped c ∧ l / 64 = 1 then
    if t < (s.core c).prevNext ∧ (s.core c).prevNext ≤ s.now then launchFault c sStitchLate i s
    else if s.now = t ∧ (s.core c).prevNext ≤ t then issueBundle c (s.set F.coreSeqTask.anchor c.ix 1)
    else s
  else s

def execStitchLaunch (c : CoreId) (s : State) : Host.Outcome State Fault Refusal := done (stitchLaunch c s)

/-- The wait condition of a descriptor: its object's count, before this cycle's updates, has reached THRESH (R173). -/
def State.waitHolds (s : State) (c : CoreId) (w : Nat) : Bool :=
  decide (bitsOf w 16 16 ≤ s.get F.cluSynObj.count (c.cluId.ix (bitsOf w 4 7)))

/-- SYNC_LAUNCH: issue in a cycle in which the wait condition holds, and end anchoring (R173, R174). -/
def syncLaunch (c : CoreId) (s : State) : State :=
  let s := s.settleSync
  let l := launchOf (s.bundle c)
  let w := s.descWord c (l % 64)
  if s.get F.coreSeqTask.state c.ix = qWaitSync ∧ s.notStopped c ∧ l / 64 = 2 ∧ (s.core c).prevNext ≤ s.now then
    if bitsOf w 0 4 ≠ 3 then launchFault c sIllegal 3 s
    else if s.waitHolds c w then issueBundle c (s.set F.coreSeqTask.anchor c.ix 0)
    else s
  else s

def execSyncLaunch (c : CoreId) (s : State) : Host.Outcome State Fault Refusal := done (syncLaunch c s)

/-- SYNC_TIMEOUT: the condition has not held by the last cycle of stitch s_w + DEADLINE (R173). -/
def syncTimeout (c : CoreId) (s : State) : State :=
  let s := s.settleSync
  let l := launchOf (s.bundle c)
  let w := s.descWord c (l % 64)
  let dl := bitsOf w 32 16
  if s.get F.coreSeqTask.state c.ix = qWaitSync ∧ s.notStopped c ∧ l / 64 = 2 ∧ bitsOf w 0 4 = 3 ∧ dl ≠ 0 ∧
      16 * ((s.core c).waitFrom + dl) + 15 ≤ s.now ∧ ¬ s.waitHolds c w then
    launchFault c sSyncTimeout (l % 64) s
  else s

def execSyncTimeout (c : CoreId) (s : State) : Host.Outcome State Fault Refusal := done (syncTimeout c s)

/-! ## Tasks (R176) -/

/-- Ready is withheld (R497). -/
def State.readyHeld (s : State) : Bool := decide (s.get F.nirKindleStat.state (Ix.mod) = 3)

/-- Name a launch stitch for a core that runs no task. -/
def State.nameLaunch (s : State) (c : CoreId) (t : Nat) : State :=
  if s.readyHeld then s else (s.set F.coreSeqLaunch.stitch c.ix t).set F.coreSeqTask.state c.ix qWaitLaunch

/-- The task begins: program counter at ENTRY, anchored, ST registers at the launch stitch, the fault record of the task before cleared; the
loop stack is left as it stands, only LOOP and ELP writing it (R198); its first bundle's NEXT launch counts from cycle -1 of the launch stitch (R171).  [DEDUCED, log 89] -/
def startTask (c : CoreId) (s : State) : State :=
  let t := s.get F.coreSeqLaunch.stitch c.ix
  let s := s.sets c.ix [(F.coreSeqPc.pc, s.get F.coreSeqTask.entry c.ix), (F.coreSeqTask.anchor, 1), (F.coreSfltRec.valid, 0)]
  let s := forAll (List.range 4) (fun i s => s.set F.coreSeqSt.stitch (c.ix i) t) s
  let s := s.setCore c { s.core c with prevNext := 16 * t, stopAt := none, nextA := 0, nextV := 0, nextX := 0, nextT := 0 }
  let s := settleSeq c (s.set F.coreSeqTask.state c.ix qRun)
  s.setCore c { s.core c with waitFrom := t }

/-- A halt ends by a relaunch or a swap; STW.SCHED.FIRST.VALID clears (R195). -/
def endHalt (p : Nat) (s : State) : State :=
  { s with halts := Map.del s.halts p }.set F.stwSchedFirst.valid (Ix.stw (s.leadDie p)) 0

/-- A halt that has been taken is released by the relaunch of a core of its partition (R193, Table 05.10). -/
def releaseHalt (die : Nat) (s : State) : State :=
  match s.partOf die with
  | none => s
  | some p =>
    match Map.find s.halts p with
    | some h => if h.taken then endHalt p s else s
    | none => s

/-- TASK_LAUNCH: the launch stitch of a core in WAIT_LAUNCH has come. -/
def taskLaunch (c : CoreId) (s : State) : State :=
  if s.get F.coreSeqTask.state c.ix = qWaitLaunch ∧ ¬ s.dieDark c.die ∧ 16 * s.get F.coreSeqLaunch.stitch c.ix ≤ s.now + 1 then
    startTask c (releaseHalt c.die s)
  else s

def execTaskLaunch (c : CoreId) (s : State) : Host.Outcome State Fault Refusal := done (taskLaunch c s)

/-! ## The region cap (R184, R185) -/

/-- Cores of a cluster. -/
def cluCores (c : CluId) : List CoreId := (List.finRange 4).map fun k => ⟨c.die, c.clu, k⟩

/-- First window that begins at least 64 st from now. -/
def State.windowAfter64 (s : State) : Nat := (s.stitch + 64 + 255) / 256

/-- CREDIT-CAP (Table 16.11).  [DESIGN CHOICE, log 94] -/
def capEvent (c : CluId) (from_ : Nat) (enf : Bool) (s : State) : State :=
  s.emit 0x0026 2 c.die (s.partOf c.die) [(s.stitch, 64), (c.die, 5), (c.clu, 7), (s.get F.cluCredCap.cap c.ix, 17),
    (s.get F.cluCredCap.decl c.ix, 17), (from_, 64), (boolNat enf, 1)]

/-- Effective entries of a cluster's cores: declared, or reduced. -/
def applyCap (c : CluId) (cap : Nat) (enf : Bool) (s : State) : State :=
  let decl := s.get F.cluCredCap.decl c.ix
  let s := s.set F.cluCredCap.enforced c.ix (boolNat enf)
  forAll (cluCores c) (fun k s => forAll (List.range 16) (fun i s =>
    s.set F.coreCredEff.budget (k.ix i) (capped (s.get F.coreCredTab.budget (k.ix i)) cap decl enf)) s) s

/-- Reduced entries hold, or will once the changes due have taken effect. -/
def State.capHeld (s : State) (c : CluId) : Bool :=
  match (Map.getD s.capDue c []).getLast? with
  | some d => d.enf
  | none => s.bit F.cluCredCap.enforced c.ix

/-- A change of a cluster's cap from a window on; a change already due for that window gives way. -/
def State.capPut (s : State) (c : CluId) (d : CapDue) : State :=
  { s with capDue := Map.put s.capDue c (((Map.getD s.capDue c []).filter fun e => decide (e.win ≠ d.win)) ++ [d]) }

/-- The steward re-evaluates CAP against DECL: below it, reduced entries from the first window at least 64 st later and an
event; back at or above it while reduced entries hold or are due, declared entries again from such a window and an event.  A cap that rises
and stays below DECL counts as one that fell.  [DESIGN CHOICE, log 191] -/
def creditCapChange (c : CluId) (s : State) : State :=
  let cap := s.get F.cluCredCap.cap c.ix
  let decl := s.get F.cluCredCap.decl c.ix
  let w := s.windowAfter64
  if Map.find s.capSeen c = some (cap, decl) then s
  else
  let s := { s with capSeen := Map.put s.capSeen c (cap, decl) }
  if cap < decl then capEvent c w true (s.capPut c ⟨w, cap, true⟩)
  else if s.capHeld c then capEvent c w false (s.capPut c ⟨w, cap, false⟩)
  else s

def execCreditCapChange (c : CluId) (s : State) : Host.Outcome State Fault Refusal := done (creditCapChange c s)

/-- The window named by a cap change has begun: its entries apply. -/
def capEnforceStart (c : CluId) (s : State) : State :=
  let begun := fun (d : CapDue) => decide (256 * d.win ≤ s.stitch)
  let due := Map.getD s.capDue c []
  match (due.filter begun).getLast? with
  | none => s
  | some d =>
    let rest := due.filter fun e => !begun e
    applyCap c d.cap d.enf { s with capDue := if rest.isEmpty then Map.del s.capDue c else Map.put s.capDue c rest }

def execCapEnforceStart (c : CluId) (s : State) : Host.Outcome State Fault Refusal := done (capEnforceStart c s)

/-- A new credit window on a core: USE rolls into LAST, the entry of the window is shown, old charges go (R181, R182). -/
def creditRoll (c : CoreId) (s : State) : State :=
  let w := s.stitch / 256
  let k := s.core c
  let s := s.sets c.ix [(F.coreCredLast.used, s.get F.coreCredUse.used c.ix), (F.coreCredLast.peak_seen, s.get F.coreCredUse.peak_seen c.ix),
    (F.coreCredCfg.cur_entry, s.creditEntry c w)]
  let k := { k with charges := k.charges.filter fun p => decide (w ≤ p.1 / 256) }
  (s.setCore c k).sets c.ix [(F.coreCredUse.used, k.windowUse w), (F.coreCredUse.peak_seen, k.windowPeak w)]

end Sys2Proof.Machine
end

