-- ==== Sys2Proof/Machine/Calib.lean ====
section
/-!
DEFINITION. Calibration, drift and retirement (chapter 03): slots, trim searches, temperature and interval rules, ages.
-/

namespace Sys2Proof.Machine
open Sys2Proof

/-! ## The reference ladder (R103) -/

/-- Count that a pattern on RL0 to RL7 (bits 0 to 7) and RLH (bit 8) produces, in half rows: groups of 1 to 64 cells, one further cell, and one
of half capacitance. -/
def ladderHalves (pat : Nat) : Nat :=
  ((List.range 7).map fun i => if pat.testBit i then 2 * 2 ^ i else 0).sum + (if pat.testBit 7 then 2 else 0) + (if pat.testBit 8 then 1 else 0)

/-- The known-sum vector of a count in half rows, 0 to 257. -/
def ladderPattern (h : Nat) : Nat := (if h / 2 = 128 then 255 else h / 2) + 256 * (h % 2)

/-- The column value of a known-sum vector, in rows. -/
def knownSum (h : Nat) : Rat := (ladderHalves (ladderPattern h) : Rat) / 2

/-- Half rows of the known sum of the offset searches, 8.5 rows, and of the gain search, 120.5 rows. -/
def offsRef : Nat := 17
def gainRef : Nat := 241

/-! ## Trim searches (R105) -/

/-- State of a search: the trim in offset binary, and whether every decision so far went high or low. -/
structure Search where
  u : Nat
  allHigh : Bool
  allLow : Bool
  deriving DecidableEq, Repr

/-- Bits `b - 1` down to 0, each decided by the votes of its window with the trim under test: more than 16 of 32 reads high clears the bit.
`votes u b` counts the conversions that read high with trim `u` in the window of bit b. -/
def trimSearch (votes : Nat → Nat → Nat) : Nat → Search → Search
  | 0, r => r
  | b + 1, r =>
    let u := r.u ||| 2 ^ b
    let r := if 16 < votes u b then { r with u := u - 2 ^ b, allLow := false } else { r with u := u, allHigh := false }
    trimSearch votes b r

/-- The search ended at the end of its range. -/
def Search.lim (r : Search) (n : Nat) : Bool :=
  (decide (r.u = 0) && r.allHigh) || (decide (r.u = 2 ^ n - 1) && r.allLow)

/-- Outcome of a full sequence on a converter: OFFS and GAIN codes and their limit bits, how many verify conversions departed from their
expected value, and by how much at most. -/
structure CalConv where
  offs : Nat
  gain : Nat
  offsLim : Bool
  gainLim : Bool
  misses : Nat
  diff : Nat
  deriving DecidableEq, Repr

/-- Two's complement code of an offset-binary trim. -/
def trimCode (n u : Nat) : Nat := (u + 2 ^ (n - 1)) % 2 ^ n

/-- Signed steps of an offset-binary trim. -/
def trimSteps (n u : Nat) : Int := (u : Int) - 2 ^ (n - 1)

/-- Votes of a bit window: of four evaluations of the converter's eight bit-columns, those that read the known sum at or above its next whole
row, with the trims as given; `e0` numbers the sequence's evaluations. -/
def State.calVotes (s : State) (a : ArrId) (n t : Nat) (tr : Int × Int) (ref e0 : Nat) : Nat :=
  ((List.range 32).filter fun k =>
    decide ((ref + 1) / 2 ≤ (codeOf .exact (s.convReal a tr (8 * n + k % 8) t (s.draws + e0 + k / 8) (knownSum ref))).1)).length

/-- Mode, known sum in half rows and expected code of verify evaluation k (R104, R122). -/
def State.verifyAt (s : State) (a : ArrId) (k : Nat) : ConvMode × Nat × Nat :=
  if k < 65 then (.exact, 4 * k, 2 * k)
  else if s.bit F.arrCfg.wide_ok a.ix then (.wide, 16 * (k - 64), 4 * (k - 64))
  else (.exact, 2 * (8 * (k - 64) + 1), 8 * (k - 64) + 1)

/-- Departures of a converter's verify conversions from their expected values (Table 03.3): 80 evaluations of eight bit-columns. -/
def State.verifyDiffs (s : State) (a : ArrId) (n t : Nat) (tr : Int × Int) : List Nat :=
  (List.range 640).map fun i =>
    let v := s.verifyAt a (i / 8)
    let c := (codeOf v.1 (s.convReal a tr (8 * n + i % 8) t (s.draws + 52 + i / 8) (knownSum v.2.1))).1
    max c v.2.2 - min c v.2.2

/-- The full sequence of Table 03.3 on converter n of an array at a temperature: offset search, gain search, offset refinement, verify.
The array's trims hold the other half of each search until it is set. -/
def State.calConverter (s : State) (a : ArrId) (t n : Nat) : CalConv :=
  let gain0 := (s.trims a n).2
  let o := trimSearch (fun u b => s.calVotes a n t (trimSteps 6 u, gain0) offsRef (4 * (5 - b))) 6 ⟨0, true, true⟩
  let g := trimSearch (fun u b => s.calVotes a n t (trimSteps 6 o.u, trimSteps 5 u) gainRef (24 + 4 * (4 - b))) 5 ⟨0, true, true⟩
  let f := trimSearch (fun u b => s.calVotes a n t (trimSteps 6 u, trimSteps 5 g.u) offsRef (44 + 4 * (1 - b))) 2 ⟨o.u / 4 * 4, true, true⟩
  let d := s.verifyDiffs a n t (trimSteps 6 f.u, trimSteps 5 g.u)
  { offs := trimCode 6 f.u, gain := trimCode 5 g.u, offsLim := o.lim 6, gainLim := g.lim 5
    misses := (d.filter fun x => decide (0 < x)).length, diff := d.foldl max 0 }

/-- The full sequence on the 32 converters of an array.  [DESIGN CHOICE, log 97] -/
def State.calSequence (s : State) (a : ArrId) (t : Nat) : List CalConv := (List.range 32).map (s.calConverter a t)

/-- Evaluations of a full sequence. -/
def calEvals : Nat := 132

/-! ## Counts a core shows (CORE.CAL.STAT) -/

/-- Number of arrays of a core that meet a test. -/
def countArrays (s : State) (c : CoreId) (p : ArrId → Bool) : Nat :=
  ((List.finRange 64).filter fun a => s.bit F.arrCfg.enable (c.arr a).ix && p (c.arr a)).length

/-- STALE_CNT of a core: its enabled arrays that are STALE. -/
def State.staleCount (s : State) (c : CoreId) : Nat := countArrays s c fun a => s.bit F.coreCalrecStat.stale a.ix

/-- NOCAL_CNT of a core: its enabled arrays without a valid calibration. -/
def State.nocalCount (s : State) (c : CoreId) : Nat := countArrays s c fun a => !s.bit F.coreCalrecStat.valid a.ix

/-! ## The slot (R104, R106, R108, R110, R123) -/

/-- The partition's halt has been taken at or before this stitch: no slot starts (R191). -/
def State.haltHeld (s : State) (die : Nat) : Bool :=
  match s.partOf die with
  | none => false
  | some p =>
    match Map.find s.halts p with
    | none => false
    | some h => decide (h.haltAt ≤ s.stitch)

/-- An array that a slot places in CAL: from the first cycle its previous operation permits a re-issue on, while that may still convert in
cc 0 to 3 (R106).  [DEDUCED, log 95] -/
def State.calTakes (s : State) (a : ArrId) : Bool :=
  (decide (s.arrState a = aIdle) || decide (s.arrState a = aCompute) || decide (s.arrState a = aAccess)) && decide ((s.engine a).reissueAt ≤ s.now)

/-- Place an array in CAL for a slot. -/
def enterCal (a : ArrId) (s : State) : State :=
  let e := s.engine a
  (s.setArrState a aCal).setEngine a { e with busy := e.busy + (s.now + 2400 - max s.now e.convEnd), wasOn := true }

/-- CAL-LAG (Table 16.11), raised once when LAG becomes set (R112). -/
def setLag (a : ArrId) (cause tdiff : Nat) (s : State) : State :=
  if s.bit F.coreCalrecStat.lag a.ix then s
  else
    let s := (s.set F.coreCalrecStat.lag a.ix 1).raise F.coreCalStat.lag a.coreId.ix
    s.emit 0x0021 1 a.die (s.partOf a.die) [(s.stitch, 64), (a.die, 5), (a.clu, 7), (a.core, 2), (a.arr, 6), (cause, 1), (tdiff, 10)]

/-- Last start stitch that keeps an array's interval (R112). -/
def State.calDue (s : State) (a : ArrId) : Nat :=
  s.get F.coreCalrecStamp.stitch a.ix + s.get F.coreCalCfg.calint a.coreId.ix + 150

/-- A full sequence starts later than the interval allows (R112). -/
def intervalLag (a : ArrId) (s : State) : State :=
  if s.bit F.coreCalrecStat.valid a.ix ∧ s.calDue a < s.stitch then setLag a 1 0 s else s

/-- CAL_SLOT_START: at cc 0 of a slot stitch the covered arrays enter CAL after the credit check; a retired array is charged
but takes no part; a skippable slot runs its sequence on arrays with PEND. -/
def calSlotStart (c : CoreId) (i : Nat) (s : State) : State :=
  if s.cc = 0 ∧ s.calStarts c i s.stitch ∧ ¬ s.haltHeld c.die ∧ ¬ s.dieDark c.die ∧
      ¬ (s.core c).cal.any (fun r => decide (r.entry = i) && decide (r.start = s.stitch)) then
    let cov := s.calCovers c i
    match s.creditFault c cov.length 150 with
    | some f => s.schedFault c 3 i f
    | none =>
      let s := s.chargeCredits c cov.length 150
      let use := cov.filter s.calTakes
      let full := if s.bit F.coreCalSlot.mandatory (c.ix i) then use else use.filter fun a => s.bit F.coreCalrecStat.pend a.ix
      let s := forAll use enterCal (forAll full intervalLag s)
      let k := s.core c
      let run : CalRun := { entry := i, start := s.stitch, arrays := use.map fun a => a.arr.val, full := full.map fun a => a.arr.val
                            temp := s.cluTemp c.cluId, blind := s.cluBlind c.cluId }
      (s.setCore c { k with cal := k.cal ++ [run] }).sets c.ix [(F.coreCalStat.active, 1), (F.coreCalStat.entry, i)]
  else s

def execCalSlotStart (c : CoreId) (i : Fin 8) (s : State) : Host.Outcome State Fault Refusal := done (calSlotStart c i s)

/-- Write the trims of an array's converters. -/
def writeTrims (a : ArrId) (conv : List CalConv) (s : State) : State :=
  forAll conv.zipIdx (fun q s =>
    s.sets (a.ix q.2) [(F.arrTrim.offs, q.1.offs), (F.arrTrim.gain, q.1.gain), (F.arrTrim.offs_lim, boolNat q.1.offsLim),
      (F.arrTrim.gain_lim, boolNat q.1.gainLim), (F.arrTrim.miss, min q.1.misses 255)]) s

/-- Why the sequence retires the array, if it does (R122): reason code and first converter meeting it; of several reasons the lowest code.
[DESIGN CHOICE, log 195] -/
def retireReason (conv : List CalConv) (run : Nat) : Option (Nat × Nat) :=
  let first := fun (p : CalConv → Bool) => (conv.zipIdx.find? fun q => p q.1).map fun q => q.2
  match first fun r => r.offsLim with
  | some n => some (1, n)
  | none =>
    match first fun r => r.gainLim with
    | some n => some (2, n)
    | none =>
      match first fun r => decide (2 ≤ r.diff) with
      | some n => some (3, n)
      | none =>
        if 4 ≤ run then (first fun r => decide (0 < r.misses)).map fun n => (4, n) else none

/-- ARRAY-RETIRED (Table 16.11). -/
def retireArray (a : ArrId) (reason conv start : Nat) (s : State) : State :=
  let c := a.coreId
  let s := s.setArrState a aRetired
  let s := (s.set F.coreCalrecStat.retire_why a.ix reason).raise F.coreCalStat.retire c.ix
  let s := s.inc F.coreArrstat.retired c.ix
  let s := (s.inc F.nirFpClu.naret (Ix.mod a.die a.clu)).inc F.nirFpDie.naret (Ix.mod a.die)
  s.fpChange.emit 0x0020 1 a.die (s.partOf a.die) [(start, 64), (a.die, 5), (a.clu, 7), (a.core, 2), (a.arr, 6), (reason, 3), (conv, 5)]

/-- A full sequence completes on an array: trims and record written, LAG clear, and why it retires the array, if it does.  `blind` says
whether both sensors of the cluster were excluded at its start: STALE and PEND then stay and T_CAL keeps its last value (R113). -/
def calRecord (a : ArrId) (start temp : Nat) (blind : Bool) (s : State) : Option (Nat × Nat) × State :=
  let conv := s.calSequence a temp
  let n := if conv.any fun q => decide (0 < q.misses) then min (s.get F.coreCalrecStat.miss_run a.ix + 1) 4 else 0
  let held := blind || s.cluBlind a.coreId.cluId
  let s := (writeTrims a conv s).sets a.ix [(F.coreCalrecStat.miss_run, n), (F.coreCalrecStamp.stitch, start), (F.coreCalrecStat.valid, 1),
    (F.coreCalrecStat.lag, 0)]
  let s := if blind then s else s.set F.coreCalrecTemp.t_cal a.ix temp
  let s := if held then s else s.sets a.ix [(F.coreCalrecStat.stale, 0), (F.coreCalrecStat.pend, 0)]
  (retireReason conv n, s.takeDraws calEvals)

/-- End of a full sequence of a slot: IDLE or RETIRED. -/
def calFinish (run : CalRun) (a : ArrId) (s : State) : State :=
  let r := calRecord a run.start run.temp run.blind s
  match r.1 with
  | some (why, n) => retireArray a why n run.start r.2
  | none => r.2

/-- Leave CAL in cycle t, the slot's cc 2,400: a clear waiting since the tenant clear begins (R92). -/
def leaveCal (t : Nat) (a : ArrId) (s : State) : State :=
  let e := s.engine a
  let s := s.setEngine a { e with clearAfter := e.clearAfter.map fun _ => t }
  startWaitingClear a (if s.get F.arrState.state a.ix = aCal then s.setArrState a aIdle else s)

/-- Arrays of a core by number. -/
def arraysOf (c : CoreId) (as : List Nat) : List ArrId := ((List.finRange 64).filter fun a => as.contains a.val).map c.arr

/-- CAL_SLOT_END: at cc 2,400 of the slot the arrays that ran the full sequence have its trims and records, and every array leaves CAL. -/
def calSlotEnd (c : CoreId) (i : Nat) (s : State) : State :=
  match takeFirst (fun (r : CalRun) => decide (r.entry = i) && decide (16 * r.start + 2400 ≤ s.now)) (s.core c).cal with
  | none => s
  | some (run, rest) =>
    let s := s.setCore c { s.core c with cal := rest }
    let s := forAll (arraysOf c run.full) (calFinish run) s
    let s := forAll (arraysOf c run.arrays) (leaveCal (16 * run.start + 2400)) s
    s.set F.coreCalStat.active c.ix (boolNat !rest.isEmpty)

def execCalSlotEnd (c : CoreId) (i : Fin 8) (s : State) : Host.Outcome State Fault Refusal := done (calSlotEnd c i s)

/-! ## Temperatures (R111-R113) -/

/-- A full sequence that kept the array's interval is running on it. -/
def State.calInTime (s : State) (a : ArrId) : Bool :=
  (s.core a.coreId).cal.any fun r => r.full.contains a.arr.val && decide (r.start ≤ s.calDue a)

/-- The interval rule at a delivery: overdue, and no sequence that kept the interval is running.  [DESIGN CHOICE, log 196] -/
def overdueLag (a : ArrId) (d : Nat) (s : State) : State :=
  if s.bit F.arrCfg.enable a.ix ∧ s.bit F.coreCalrecStat.valid a.ix ∧ s.calDue a < s.stitch ∧ ¬ s.calInTime a then setLag a 1 d s else s

/-- Array rules at a delivered cluster temperature: STALE and PEND beyond TRIG_DT, LAG beyond 12 °C or overdue; with both
sensors excluded STALE and PEND of every array are held (R113).  Retired arrays take no part in the rest (R123). -/
def tempArray (a : ArrId) (blind : Bool) (t : Nat) (s : State) : State :=
  let s := if blind then (s.set F.coreCalrecStat.stale a.ix 1).set F.coreCalrecStat.pend a.ix 1 else s
  if s.arrState a = aRetired ∨ s.arrState a = aMappedOut then s
  else if blind then overdueLag a 0 s
  else if s.bit F.coreCalrecStat.valid a.ix then
    let tc := s.get F.coreCalrecTemp.t_cal a.ix
    let d := max t tc - min t tc
    let s := if 4 * s.get F.coreCalCfg.trig_dt a.coreId.ix < d then
      (s.set F.coreCalrecStat.stale a.ix 1).set F.coreCalrecStat.pend a.ix 1 else s
    if s.bit F.arrCfg.enable a.ix ∧ 48 < d then setLag a 0 d s else overdueLag a d s
  else s

/-- Arrays of a core that have a record or a configuration in the register file. -/
def State.knownArrays (s : State) : List ArrId :=
  s.regs.filterMap fun p => if p.1.reg = .arrState ∧ p.1.lo = 0 then arrOfIx p.1.ix else none

/-- A cluster temperature is delivered to the calibration rules of every array of the cluster, and enters the mean of the age window. -/
def deliverTemp (c : CluId) (blind : Bool) (t : Nat) (s : State) : State :=
  let m := Map.getD s.tempSum c (0, 0)
  let s := { s with tempSum := Map.put s.tempSum c (m.1 + t, m.2 + 1) }
  forAll (s.knownArrays.filter fun a => decide (a.die = c.die) && decide (a.clu = c.clu)) (fun a s => tempArray a blind t s) s

/-! ## Ages (R100, R101) -/

/-- A(T) of Table 03.2, T in °C. -/
def ageFactor (t : Rat) : Rat :=
  if t < 25 then 4 / 100
  else if t < 55 then 4 / 100 + (t - 25) * (21 / 100) / 30
  else if t < 85 then 25 / 100 + (t - 55) * (75 / 100) / 30
  else 1 + (t - 85) * (75 / 1000)

/-- Hours of an amount of wall time (units of 8/99 ns, so that a stitch of every clock step is whole). -/
def wallHours (w : Nat) : Rat := (w : Rat) * 8 / 99 / 1000000000 / 3600

/-- Mean of the temperatures delivered for a cluster in the window, in °C; the last one where none was. -/
def State.meanTemp (s : State) (c : CluId) : Rat :=
  match Map.find s.tempSum c with
  | some (t, n + 1) => (t : Rat) / ((n + 1 : Nat) : Rat) / 4 - 40
  | _ => tempOf (s.cluTemp c)

/-- Cycles of an array's operation or slot that lie beyond this one. -/
def State.busyAhead (s : State) (a : ArrId) : Nat :=
  (s.core a.coreId).cal.foldl (fun m r => if r.arrays.contains a.arr.val then max m (16 * r.start + 2400 - s.now) else m) ((s.engine a).convEnd - s.now)

/-- One array's share of a window (R100): `t` is the cluster's mean temperature over it. -/
def ageArray (a : ArrId) (t : Rat) (wall : Nat) (s : State) : State :=
  let e := s.engine a
  let ahead := s.busyAhead a
  let u : Rat := ((e.busy - ahead : Nat) : Rat) / (65536 * 16)
  let off := decide (s.arrState a = aOff) && !e.wasOn
  let age := if off then e.ageSixteenths
    else e.ageSixteenths + 16 * wallHours wall * ageFactor t * (1 / 5 + 4 / 5 * u)
  let s := s.setEngine a { e with busy := min e.busy ahead, wasOn := decide (s.arrState a ≠ aOff), ageSixteenths := age }
  s.set F.coreCalrecAge.eqh a.ix age.floor.toNat

/-- AGE_UPDATE: every 65,536 st, for one cluster. -/
def ageUpdate (c : CluId) (s : State) : State :=
  if s.stitch % 65536 = 0 then
    let w := s.wall - Map.getD s.ageWall c 0
    let t := s.meanTemp c
    let s := { s with ageWall := Map.put s.ageWall c s.wall, tempSum := Map.del s.tempSum c }
    forAll (s.knownArrays.filter fun a => decide (a.die = c.die) && decide (a.clu = c.clu)) (fun a s => ageArray a t w s) s
  else s

def execAgeUpdate (c : CluId) (s : State) : Host.Outcome State Fault Refusal := done (ageUpdate c s)

/-- AGE_SAVE: every array's age into identity flash.  An age never falls: one that K6 has not restored yet leaves the saved one. -/
def ageSave (s : State) : State :=
  { s with flashAges := s.engines.foldl (fun m p =>
      if Map.getD m p.1 0 ≤ p.2.ageSixteenths then Map.put m p.1 p.2.ageSixteenths else m) s.flashAges }

def execAgeSave (s : State) : Host.Outcome State Fault Refusal := done (ageSave s)

/-- K6 restores the ages, with 3.0 equivalent hours more after a shutdown that was not orderly (R101).  [DEDUCED, log 171] -/
def restoreAges (orderly : Bool) (s : State) : State :=
  forAll s.flashAges (fun p s =>
    let age := p.2 + (if orderly then 0 else 48)
    (s.setEngine p.1 { s.engine p.1 with ageSixteenths := age }).set F.coreCalrecAge.eqh p.1.ix age.floor.toNat) s

end Sys2Proof.Machine
end

