-- ==== Sys2Proof/Machine/Cinch.lean ====
section
/-!
DEFINITION. Cinches (R312-R318): the request, its broadcast, the copy of every counter into its tally shadow, the report.
-/

namespace Sys2Proof.Machine
open Sys2Proof

/-- A counter (R315): fields cleared by reading, but for the largest times of SRV.LAT and the queue read of TLM.Q, and the
fields of other types that count. -/
def isCounter (r : Reg) (lo : Nat) : Bool :=
  match r, lo with
  | .srvLatMax, _ => false
  | .tlmQ, _ => false
  | .arrOps, 0 => true
  | .arrTrim, 16 => true
  | .coreArrstat, 16 => true
  | .coreArrstat, 24 => true
  | .coreCalStat, 8 => true
  | .coreCalStat, 16 => true
  | .vecPcntElems, _ => true
  | .vecPcntSatel, _ => true
  | .vecPcntZeroblk, _ => true
  | .vecPcntFaults, _ => true
  | .vecPcntScales, _ => true
  | .coreKvfRoleFree, 8 => true
  | .coreKvfRoleFree, 16 => true
  | .coreKvfRoleHfree, 8 => true
  | .cluSbufStat, 16 => true
  | .stkEcs, 0 => true
  | .cluSynObj, 0 => true
  | .nirBilWear, 32 => true
  | .tlmAccSum, 32 => true
  | .coreKvfRoleCnt, 0 => true
  | .smpCnt, 0 => true
  | .srvRingProd, 0 => true
  | .nirEvqProd, 0 => true
  | .nirEvqCons, 0 => true
  | r, lo => (Reg.fields r).any fun f => decide (f.lo = lo) && decide (f.ty = .rc)

/-- Registers with counters on the transit rail (the router, the sync unit, CLU.PWR), which copy although their region is off
(R302, R317, R468).  [DESIGN CHOICE, log 177] -/
def onTransit : Reg → Bool
  | .cluRtrCnt => true
  | .cluRtrErr => true
  | .cluSynObj => true
  | .cluSynStat => true
  | .cluPwrCnt => true
  | _ => false

/-- The unit a register instance belongs to copies with die d (none: with Nirdo). -/
def State.copies (s : State) (d : Option DieIx) (r : Reg) (ix : Ix) : Bool :=
  match d, (Reg.place r).cls with
  | none, .nir => true
  | none, .srv => true
  | some d, .stw => decide (ix.die = d.val)
  | some d, .clu => decide (ix.die = d.val) && (onTransit r || (cluAt? ix.die ix.clu).any s.regionOn)
  | some d, .core => decide (ix.die = d.val) && (cluAt? ix.die ix.clu).any s.regionOn
  | some d, .arr => decide (ix.die = d.val) && (cluAt? ix.die ix.clu).any s.regionOn
  | _, _ => false

/-- A die's copy, made now: shadows take the counters' values at the end of the cycle before; an update or a clearing read earlier in
this cycle does not show (R314). -/
def copyCounters (d : Option DieIx) (gen : Nat) (s : State) : State :=
  let s := s.settleSync
  let s := { s with shadow := (s.shadow.filter fun p => !s.copies d p.1.reg p.1.ix) ++
                      s.before.regs.filter fun p => isCounter p.1.reg p.1.lo && s.copies d p.1.reg p.1.ix }
  match d with
  | none => s
  | some d =>
    forAll (List.finRange 128) (fun i s => if s.regionOn ⟨d, i⟩ then s.set F.cluTallyGen.gen (Ix.mk d i 0 0 0) gen else s)
      (s.set F.stwTallyGen.gen (Ix.stw d) gen)

/-- Every report has arrived, or will not: the cinch is done (R318). -/
def cinchCheck (s : State) : State :=
  if s.cinchWait.isEmpty && s.bit F.nirCinchResult.pending (Ix.mod) then
    ((s.set F.nirCinchResult.pending (Ix.mod) 0).set F.nirCinchResult.done (Ix.mod) 1).inc F.nirCinchCount.done (Ix.mod)
  else s

/-- A die takes no part (R313). -/
def cinchMiss (d : Nat) (s : State) : State :=
  let s := s.set F.nirCinchMiss.dies (Ix.mod) (s.get F.nirCinchMiss.dies (Ix.mod) ||| 2 ^ d)
  cinchCheck { s with cinchWait := s.cinchWait.filter fun p => decide (p.1 ≠ d), cinchLatch := Map.del s.cinchLatch (some d) }

/-- CINCH_REQUEST: a write of NIR.CINCH.AT.  The lead rule of R28, then BUSY or SPACING, or the next generation. -/
def cinchRequest (t : Nat) (s : State) : State :=
  let m := Ix.mod
  let s := s.set F.nirCinchAt.stitch m t
  let t := max t (s.stitch + 64)
  let gen := s.get F.nirCinchResult.gen m
  if s.bit F.nirCinchResult.pending m then (s.set F.nirCinchResult.status m 1).inc F.nirCinchCount.refused m
  else if gen ≠ 0 ∧ t < s.get F.nirCinchT.stitch m + s.get F.nirCinchCfg.min_spacing m then
    (s.set F.nirCinchResult.status m 2).inc F.nirCinchCount.refused m
  else
    let gen := if gen = 0xFFFF then 1 else gen + 1
    let s := s.sets m [(F.nirCinchResult.status, 0), (F.nirCinchResult.pending, 1), (F.nirCinchResult.done, 0),
      (F.nirCinchResult.gen, gen), (F.nirCinchT.stitch, t), (F.nirCinchMiss.dies, 0)]
    { s with cinchWait := (List.range s.dieCount).map fun d => (d, false), cinchLatch := Map.put s.cinchLatch none (t, gen) }

def execCinchRequest (t : BitVec 64) (s : State) : Host.Outcome State Fault Refusal := done (cinchRequest t.toNat s)

/-- CINCH_BROADCAST: (T, GEN) reaches die d's steward, which writes every latch, or refuses it at or after T − 2 (R27). -/
def cinchBroadcast (d : DieIx) (s : State) : State :=
  let t := s.get F.nirCinchT.stitch (Ix.mod)
  if ¬ s.cinchWait.contains (d.val, false) ∨ (Map.find s.cinchLatch (some d.val)).isSome then s
  else if s.dieDark d then cinchMiss d s
  else if t ≤ s.stitch + 2 then (cinchMiss d s).commandLate d 2 t
  else { s with cinchLatch := Map.put s.cinchLatch (some d.val) (t, s.get F.nirCinchResult.gen (Ix.mod)) }

def execCinchBroadcast (d : DieIx) (s : State) : Host.Outcome State Fault Refusal := done (cinchBroadcast d s)

/-- CINCH_COPY: at cc 0 of stitch T the units of a die (none: Nirdo) copy, write GEN and clear the latch; a die dark at T
takes no part. -/
def cinchCopy (d : Option DieIx) (s : State) : State :=
  match Map.find s.cinchLatch (d.map Fin.val) with
  | none => s
  | some (t, gen) =>
    if s.stitch = t ∧ s.cc = 0 then
      match d with
      | some d =>
        if s.dieDark d then cinchMiss d s
        else
          let s := copyCounters (some d) gen s
          { s with cinchLatch := Map.del s.cinchLatch (some d.val)
                   cinchWait := s.cinchWait.map fun p => if p.1 = d.val then (p.1, true) else p }
      | none =>
        let s := copyCounters none gen s
        { s with cinchLatch := Map.del s.cinchLatch none }
    else s

def execCinchCopy (d : Option DieIx) (s : State) : Host.Outcome State Fault Refusal := done (cinchCopy d s)

/-- CINCH_REPORT: die d's steward reports that its powered units have copied. -/
def cinchReport (d : DieIx) (s : State) : State :=
  if s.cinchWait.contains (d.val, true) then cinchCheck { s with cinchWait := s.cinchWait.filter fun p => decide (p.1 ≠ d.val) }
  else s

def execCinchReport (d : DieIx) (s : State) : Host.Outcome State Fault Refusal := done (cinchReport d s)

end Sys2Proof.Machine
end

