-- ==== Sys2Proof/Machine/Precision.lean ====
section
/-!
DEFINITION. Precision windows (R154-R159): delivery of the counter sets, the flags, the lead steward's merge.
-/

namespace Sys2Proof.Machine
open Sys2Proof

/-- Sum of counts (R154). -/
def PrecCounts.add (a b : PrecCounts) : PrecCounts :=
  { elems := a.elems + b.elems, satel := a.satel + b.satel, zeroblk := a.zeroblk + b.zeroblk, tsf := a.tsf + b.tsf
    nonfin := a.nonfin + b.nonfin, badsc := a.badsc + b.badsc, arrsat := a.arrsat + b.arrsat }

/-- The die's steward leads its partition (R156, R509). -/
def State.isLead (s : State) (die : Nat) : Bool := (s.partOf die).any fun p => decide (s.leadDie p = die)

/-- Counts of one counter set. -/
def State.pcnt (s : State) (ix : Ix) : PrecCounts :=
  { elems := s.get F.vecPcntElems.count ix, satel := s.get F.vecPcntSatel.count ix, zeroblk := s.get F.vecPcntZeroblk.count ix
    tsf := s.get F.vecPcntFaults.tsfault ix, nonfin := s.get F.vecPcntFaults.nonfin ix, badsc := s.get F.vecPcntScales.badscale ix
    arrsat := s.get F.vecPcntScales.arrsat ix }

/-- Counter sets of a die that have counted. -/
def State.precSets (s : State) (die : Nat) : List Ix :=
  ((s.regs.filter fun p => decide (p.1.ix.die = die) && (match p.1.reg with
    | .vecPcntElems => true
    | .vecPcntSatel => true
    | .vecPcntZeroblk => true
    | .vecPcntFaults => true
    | .vecPcntScales => true
    | _ => false) && decide (p.2 ≠ 0)).map fun p => p.1.ix).eraseDups

/-- Add counts to a layer (R154). -/
def addCounts (m : Map Nat PrecCounts) (l : Nat) (c : PrecCounts) : Map Nat PrecCounts :=
  Map.put m l ((Map.getD m l {}).add c)

/-- Kinds of Table 04.9 whose condition holds and that are enabled. -/
def State.precKinds (s : State) (die l : Nat) (c : PrecCounts) : Nat :=
  let ix := Ix.stw die l
  let b := boolNat (decide (s.get F.stwPrecThr.sat_thr ix < c.satel)) + 2 * boolNat (decide (s.get F.stwPrecThr.zero_thr ix < c.zeroblk)) +
    4 * boolNat (decide (1 ≤ c.tsf)) + 8 * boolNat (decide (1 ≤ c.nonfin)) + 16 * boolNat (decide (1 ≤ c.badsc)) +
    32 * boolNat (decide (1 ≤ c.arrsat))
  b &&& s.get F.stwPrecThr.en ix

/-- Write a layer's record in a steward. -/
def setLast (die l win kinds rep : Nat) (c : PrecCounts) (s : State) : State :=
  s.sets (Ix.stw die l) [(F.stwPrecLastA.satel, min c.satel 0xFFFFFF), (F.stwPrecLastA.zeroblk, min c.zeroblk 0xFFFFFF),
    (F.stwPrecLastA.kinds, kinds), (F.stwPrecLastA.repeat_, min rep 0xFF), (F.stwPrecLastB.tsfault, min c.tsf 0xFFFF),
    (F.stwPrecLastB.nonfin, min c.nonfin 0xFFFF), (F.stwPrecLastB.badscale, min c.badsc 0xFFFF),
    (F.stwPrecLastB.arrsat, min c.arrsat 0xFFFF), (F.stwPrecLastC.elems, min c.elems 0xFFFFFFFFFF), (F.stwPrecLastWin.stitch, win)]

/-- The counts a record holds. -/
def State.lastCounts (s : State) (die l : Nat) : PrecCounts :=
  let ix := Ix.stw die l
  { elems := s.get F.stwPrecLastC.elems ix, satel := s.get F.stwPrecLastA.satel ix, zeroblk := s.get F.stwPrecLastA.zeroblk ix
    tsf := s.get F.stwPrecLastB.tsfault ix, nonfin := s.get F.stwPrecLastB.nonfin ix, badsc := s.get F.stwPrecLastB.badscale ix
    arrsat := s.get F.stwPrecLastB.arrsat ix }

/-- A cinch of this cycle copies before anything else changes the die's counters (R155, R314). -/
def copyFirst (die : DieIx) (s : State) : State := cinchCopy (some die) s

/-- Take delivered counts out of a set: what has counted in this cycle stays, for the new window (R155).  [DEDUCED, log 213] -/
def takeCounts (ix : Ix) (c : PrecCounts) (s : State) : State :=
  let n := s.pcnt ix
  s.sets ix [(F.vecPcntElems.count, n.elems - c.elems), (F.vecPcntSatel.count, n.satel - c.satel), (F.vecPcntZeroblk.count, n.zeroblk - c.zeroblk),
    (F.vecPcntFaults.tsfault, n.tsf - c.tsf), (F.vecPcntFaults.nonfin, n.nonfin - c.nonfin), (F.vecPcntScales.badscale, n.badsc - c.badsc),
    (F.vecPcntScales.arrsat, n.arrsat - c.arrsat)]

/-- Clear counter sets. -/
def clearSets (sets : List Ix) (s : State) : State :=
  forAll sets (fun ix s => s.sets ix [(F.vecPcntElems.count, 0), (F.vecPcntSatel.count, 0), (F.vecPcntZeroblk.count, 0),
    (F.vecPcntFaults.tsfault, 0), (F.vecPcntFaults.nonfin, 0), (F.vecPcntScales.badscale, 0), (F.vecPcntScales.arrsat, 0)]) s

/-- A die's cores deliver and clear their sets under the outgoing binding, in mid-window (R340): the steward holds the counts
until the window ends. -/
def deliverHeld (die : DieIx) (s : State) : State :=
  let sets := s.precSets die
  let s' := forAll sets (fun ix t =>
    let k := (die.val, s.get F.vecPcntLayer.layer ix)
    { t with precHeld := Map.put t.precHeld k ((Map.getD t.precHeld k {}).add (s.pcnt ix)) }) s
  clearSets sets s'

/-- PRECISION_WINDOW_END: at the first cycle of a window die d's cores deliver and clear their sets; the steward evaluates
its own die's counts and has a notice for the lead.  A count of this cycle stays for the new window.  [DEDUCED, log 98] -/
def precisionWindowEnd (die : DieIx) (s : State) : State :=
  if s.cc = 0 ∧ s.stitch % 4096 = 0 ∧ 0 < s.stitch ∧ (Map.find s.precOut die.val).map (fun n => n.win) ≠ some (s.stitch - 4096) then
    let s := copyFirst die s
    let b := s.before
    let sets := b.precSets die
    let held := (s.precHeld.filter fun e => decide (e.1.1 = die.val)).foldl (fun m e => addCounts m e.1.2 e.2) ([] : Map Nat PrecCounts)
    let tot := sets.foldl (fun m ix => addCounts m (b.get F.vecPcntLayer.layer ix) (b.pcnt ix)) held
    let s := forAll sets (fun ix s => takeCounts ix (b.pcnt ix) s) { s with precHeld := s.precHeld.filter fun e => decide (e.1.1 ≠ die.val) }
    let win := s.stitch - 4096
    let layers := tot.map fun p => (p.1, s.precKinds die p.1 p.2, p.2)
    let flagged := layers.filter fun p => decide (p.2.1 ≠ 0)
    let s := { s with precOut := Map.put s.precOut die.val { win := win, layers := layers } }
    if s.isLead die then s
    else
      let s := forAll flagged (fun p s => setLast die p.1 win p.2.1 0 p.2.2 s) s
      s.sets (Ix.stw die) [(F.stwPrecStat.flagged, flagged.length), (F.stwPrecLastwin.stitch, win)]
  else s

def execPrecisionWindowEnd (die : DieIx) (s : State) : Host.Outcome State Fault Refusal := done (precisionWindowEnd die s)

/-- PRECISION_FLAG_NOTICE: die d's notice of the window reaches its partition's lead steward, where that is another. -/
def precisionFlagNotice (die : DieIx) (s : State) : State :=
  match Map.find s.precOut die.val, s.partOf die with
  | some n, some p =>
    if s.isLead die ∨ (s.precIn.any fun q => decide (q.1 = p) && decide (q.2.1 = die.val) && decide (q.2.2.win = n.win)) then s
    else { s with precIn := s.precIn ++ [(p, die.val, n)] }
  | _, _ => s

def execPrecisionFlagNotice (die : DieIx) (s : State) : Host.Outcome State Fault Refusal := done (precisionFlagNotice die s)

/-- Merge two dies' layers: kinds ORed, counts added. -/
def mergeLayer (m : Map Nat (Nat × PrecCounts)) (l : Nat × Nat × PrecCounts) : Map Nat (Nat × PrecCounts) :=
  let o := Map.getD m l.1 (0, {})
  Map.put m l.1 (o.1 ||| l.2.1, o.2.add l.2.2)

/-- One flagged layer of a window that is not a storm window (R157).  [DESIGN CHOICE, log 209] -/
def precFlag (lead p win : Nat) (prev : Map Nat Nat) (l kinds : Nat) (c : PrecCounts) (s : State) : State :=
  if Map.find prev l = some kinds then
    let old := s.lastCounts lead l
    (setLast lead l (s.get F.stwPrecLastWin.stitch (Ix.stw lead l)) kinds (s.get F.stwPrecLastA.repeat_ (Ix.stw lead l) + 1) (old.add c) s).inc
      F.stwPrecEvcnt.suppressed (Ix.stw lead)
  else
    let s := (setLast lead l win kinds 0 c s).inc F.stwPrecEvcnt.flag_ev (Ix.stw lead)
    s.emit 0x0022 1 lead (some p) [(win, 64), (l, 8), (kinds, 6), (min c.satel 0xFFFFFF, 24), (min c.zeroblk 0xFFFFFF, 24),
      (min c.tsf 0xFFFF, 16), (min c.nonfin 0xFFFF, 16), (min c.badsc 0xFFFF, 16), (min c.arrsat 0xFFFF, 16), (min c.elems 0xFFFFFFFFFF, 40)]

/-- A storm window (R158). -/
def precStorm (lead p win : Nat) (fl : List (Nat × Nat × PrecCounts)) (s : State) : State :=
  let ix := Ix.stw lead
  let first := !s.bit F.stwPrecStat.storm ix
  let s := forAll fl (fun f s => setLast lead f.1 win f.2.1 0 f.2.2 s) s
  let s := (s.set F.stwPrecStat.storm ix 1).inc F.stwPrecStorms.storm_win ix
  if first then
    let c := fl.foldl (fun t f => t.add f.2.2) ({} : PrecCounts)
    let s := s.inc F.stwPrecStorms.storm_ev ix
    s.emit 0x0023 2 lead (some p) [(win, 64), (fl.length, 9), (fl.foldl (fun t f => t ||| f.2.1) 0, 6),
      (fl.foldl (fun t f => t ||| 2 ^ f.1) 0, 256), (min c.satel 0xFFFFFFFF, 32), (min c.zeroblk 0xFFFFFFFF, 32), (min c.tsf 0xFFFFFF, 24),
      (min c.nonfin 0xFFFFFF, 24), (min c.badsc 0xFFFFFF, 24), (min c.arrsat 0xFFFFFF, 24)]
  else s

/-- The dies of a partition whose notices a lead still waits for. -/
def State.noticesDue (s : State) (p lead win : Nat) : Bool :=
  ((s.diesOf p).filter fun d => decide (d ≠ lead) && !s.dieDark d).any fun d =>
    !(s.precIn.any fun q => decide (q.1 = p) && decide (q.2.1 = d) && decide (q.2.2.win = win))

/-- The lead's record of a merged window: storm or flags, and what they suppress next (R157, R158). -/
def precMerged (lead p win : Nat) (fl : List (Nat × Nat × PrecCounts)) (s : State) : State :=
  let ix := Ix.stw lead
  let s := s.sets ix [(F.stwPrecStat.flagged, fl.length), (F.stwPrecLastwin.stitch, win)]
  if 8 < fl.length then
    { precStorm lead p win fl s with precPrev := Map.del s.precPrev p }
  else
    let prev := match Map.find s.precPrev p with
      | some (w, m) => if w + 4096 = win then m else []
      | none => []
    let s := s.set F.stwPrecStat.storm ix 0
    let s := forAll fl (fun f s => precFlag lead p win prev f.1 f.2.1 f.2.2 s) s
    { s with precPrev := Map.put s.precPrev p (win, fl.map fun f => (f.1, f.2.1)) }

/-- PRECISION_LEAD_EVALUATE: the lead merges its own die's last window with the notices of partition p's other dies, once all are in or
256 st after the window's end. -/
def precisionLeadEvaluate (p : PartIx) (s : State) : State :=
  let lead := s.leadDie p
  match Map.find s.precOut lead with
  | none => s
  | some n =>
    if n.merged ∨ (s.stitch < n.win + 4096 + 256 ∧ s.noticesDue p lead n.win) then s
    else
      let mine := s.precIn.filter fun x => decide (x.1 = p.val) && decide (x.2.2.win = n.win) && decide (x.2.1 ≠ lead)
      let tot := (n.layers ++ mine.flatMap fun x => x.2.2.layers).foldl mergeLayer []
      let fl := (tot.filter fun t => decide (t.2.1 ≠ 0)).map fun t => (t.1, t.2.1, t.2.2)
      precMerged lead p n.win fl
        { s with precOut := Map.put s.precOut lead { n with merged := true }
                 precIn := s.precIn.filter fun x => !(decide (x.1 = p.val) && decide (x.2.2.win ≤ n.win)) }

def execPrecisionLeadEvaluate (p : PartIx) (s : State) : Host.Outcome State Fault Refusal := done (precisionLeadEvaluate p s)

end Sys2Proof.Machine
end

