-- ==== Sys2Proof/Machine/Clock.lean ====
section
/-!
DEFINITION. Time and clock steps (R29-R45, R194, R451): the stitch boundary, reads of the counter, requests, announcements and
effects of clock steps, the standby PLLs.
-/

namespace Sys2Proof.Machine
open Sys2Proof

/-! ## The stitch counter (R29-R33) -/

/-- Length of a stitch in units of 8/99 ns, by clock step (Table 01.5).  [DEDUCED, log 9] -/
def stitchWall : Nat → Nat
  | 0 => 165
  | 1 => 180
  | 2 => 198
  | 3 => 220
  | 4 => 264
  | _ => 330

/-- A core whose stop cycle has been reached stops in HALTED (R190); one that waits for its launch, only by a stop of this stitch.  [DEDUCED, log 88] -/
def haltStopped (s : State) : State :=
  forAll (s.cores.filter fun p => match p.2.stopAt with
      | none => false
      | some t =>
        let q := s.get F.coreSeqTask.state p.1.ix
        decide (t ≤ 16 * s.stitch) && decide (q = qRun ∨ q = qWaitStitch ∨ q = qWaitSync ∨ q = qDone ∨ (q = qWaitLaunch ∧ t = 16 * s.stitch)))
    (fun p s => s.set F.coreSeqTask.state p.1.ix qHalted) s

/-- The KV-ERROR events of the stitch that ends: one a seat, for the first lane that broke it (R240).  [DESIGN CHOICE, log 187] -/
def flushBreaks (s : State) : State :=
  forAll s.breaks (fun b s =>
    s.emit 0x0025 2 (s.leadDie b.part) (some b.part) [(b.stitch, 64), (b.seat, 9), (b.pos, 28), (b.len, 17), (b.reason, 3),
      (b.layer, 8), (b.kvHead, 6), (b.lane, 6)]) { s with breaks := [] }

/-- STITCH_BOUNDARY: the counter of every die advances by one; cycles left in the stitch pass.  Before the end of K1 no counter
runs (R30). -/
def stitchBoundary (s : State) : State :=
  if s.running then
    let s := flushBreaks (s.passCycles (15 - s.cc)).endCycle
    (haltStopped { s with stitch := (s.stitch + 1) % 2 ^ 64, cc := 0
                          wall := s.wall + stitchWall (s.get F.nirTimeStep.cur_step (Ix.mod)) }).beginCycle
  else s

/-- STITCH_LO_READ: bits [31:0] are returned and bits [63:32] latched. -/
def stitchLoRead (s : State) : State :=
  (s.set F.nirTimeStitchHi.count_hi (Ix.mod) (s.stitch / 2 ^ 32)).send (.answer (s.stitch % 2 ^ 32) true)

def execStitchLoRead (s : State) : Host.Outcome State Fault Refusal := done (stitchLoRead s)

/-! ## Step requests (R43, R45, R466) -/

/-- Dies that are lit (Table 16.6). -/
def State.litDies (s : State) : List Nat := (List.range 24).filter fun d => decide (s.get F.nirFpDie.state (Ix.mod d) = 1) && !s.dieDark d

/-- The effective ceiling: the highest of CEIL_STEP, GOV_STEP and THM_STEP. -/
def State.effCeil (s : State) : Nat :=
  max (s.get F.nirTimeStep.ceil_step (Ix.mod)) (max (s.get F.nirPwrGov.gov_step (Ix.mod)) (s.get F.nirThmStat.thm_step (Ix.mod)))

/-- The step in force (Table 01.5). -/
def State.curStep (s : State) : Nat := s.get F.nirTimeStep.cur_step (Ix.mod)

/-- Largest of a list of steps. -/
def maxOf : List Nat → Option Nat
  | [] => none
  | x :: xs => some ((maxOf xs).elim x (max x))

/-- Requests that the step in force does not meet. -/
def State.openReqs (s : State) : List Nat := (s.stepReqs.map fun p => p.2).filter fun k => decide (k ≠ s.curStep)

/-- A kindling has not come to the end of its stage K4 (R45). -/
def State.beforeK4 (s : State) : Bool := !s.running || s.kdl.kin.any fun k => decide (k.stage ≤ 4)

/-- The step to announce next: one step towards the request for the lowest frequency; a step-up not past the ceiling, and none in
module ember mode, which holds step 5 (R513).  Until the end of K4 no request moves the clock (R45). -/
def State.nextStep (s : State) : Option Nat :=
  match if s.beforeK4 then none else maxOf s.openReqs with
  | none => none
  | some k =>
    let c := s.curStep
    if c < k then some (c + 1)
    else if s.effCeil < c ∧ ¬ s.bit F.nirEmberStat.module (Ix.mod) then some (c - 1) else none

/-- The step the standby PLLs should hold: retuned to the higher step before a step-up, else the step below (R41, R42). -/
def State.standbyStep (s : State) : Nat :=
  match s.nextStep with
  | some k => k
  | none => min (s.curStep + 1) 5

/-- Retune the standby PLLs while no announced step is pending: PLLs at another step lose their lock report. -/
def retune (s : State) : State :=
  if s.bit F.nirTimeStep.pending (Ix.mod) ∨ s.standby = s.standbyStep then s
  else { s with standby := s.standbyStep, pllLock := [] }.set F.nirTimeStep.standby_locked (Ix.mod) 0

/-- A TSYNC STEP frame (Table 13.4) to the neighbour on port p, from the module's own injection: stitch S (0 in a request) and step. -/
def sendStepFrame (p at_ k : Nat) (s : State) : State :=
  let ext := 2 + s.get F.nirTorusTstat.depth (Ix.mod) * 2 ^ 4 + s.get F.nirTorusTstat.aligned (Ix.mod) * 2 ^ 9
  let f : Frame := ⟨frameHdr 4 3 false false (s.get F.lnkStat.peer (Ix.mod p)) (s.get F.nirTorusId.id (Ix.mod)) 0 1 0 ext,
    natToBytes 8 at_ ++ natToBytes 8 k ++ List.replicate 16 0#8⟩
  { s with inject := s.inject ++ [f] }

/-- Steps are coordinated through the time root (R425). -/
def State.lockstep (s : State) : Bool := s.bit F.nirTorusTcfg.lockstep (Ix.mod)

/-- This module is the time root (R421). -/
def State.timeRoot (s : State) : Bool := decide (6 ≤ s.get F.nirTorusTcfg.tparent (Ix.mod))

/-- Record a source's request for a step; a request for the step in force asks for nothing.  Under lockstep a module that is not the
time root sends its own sources' requests towards the root. -/
def requestStep (src : StepSource) (k : Nat) (s : State) : State :=
  let s := retune { s with stepReqs := Map.put s.stepReqs src (min k 5) }
  if s.lockstep ∧ ¬ s.timeRoot ∧ src ≠ .root ∧ min k 5 ≠ s.curStep then
    sendStepFrame (s.get F.nirTorusTcfg.tparent (Ix.mod)) 0 (min k 5) s
  else s

/-- The step a source asks for. -/
def State.sourceStep (s : State) : StepSource → Nat
  | .ceil => s.get F.nirTimeStep.ceil_step (Ix.mod)
  | .governor => s.get F.nirPwrGov.gov_step (Ix.mod)
  | .thermal => s.get F.nirThmStat.thm_step (Ix.mod)
  | .root => (Map.find s.stepReqs .root).getD s.curStep
  | .ember => if s.bit F.nirEmberStat.module (Ix.mod) then 5 else s.curStep

/-- CLOCK_STEP_REQUEST: a source asks for its ceiling; the request is held while an announced step is pending. -/
def execClockStepRequest (src : StepSource) (s : State) : Host.Outcome State Fault Refusal :=
  done (requestStep src (s.sourceStep src) s)

/-- CEIL_STEP_WRITE: 6 and 7 are stored as 5. -/
def ceilStepWrite (v : Nat) (s : State) : State :=
  let s := s.set F.nirTimeStep.ceil_step (Ix.mod) (storeRule F.nirTimeStep.ceil_step v)
  requestStep .ceil (s.get F.nirTimeStep.ceil_step (Ix.mod)) s

def execCeilStepWrite (v : Fin 8) (s : State) : Host.Outcome State Fault Refusal := done (ceilStepWrite v s)

/-! ## Announcement, commit, effect (R40-R44) -/

/-- Regulator code of VID (Table 14.8). -/
def vidCode : Nat → Nat
  | 0 => 36
  | 1 => 31
  | 2 => 26
  | 3 => 20
  | 4 => 12
  | _ => 4

/-- Clusters of a die. -/
def dieClus (d : Nat) : List CluId := (List.range 128).filterMap fun i => cluAt? d i

/-- State of a region (Table 14.10). -/
def State.regionState (s : State) (c : CluId) : Nat := s.get F.cluPwrStat.state c.ix

/-- Die-rail setpoint for the regions' rails (R449): highest region rail plus 70 mV within 0.80-0.95 V, as the SET code. -/
def State.railTarget (s : State) (d : Nat) : Nat :=
  let on := (dieClus d).filter fun c =>
    let st := s.regionState c
    decide (st = rOn ∨ st = rLadder ∨ st = rClearing)
  let code := on.foldl (fun m c => max m (s.get F.cluPwrStat.code c.ix)) 0
  if on.isEmpty then 0 else min 30 (code + 14 - 40)

/-- Every region in ON has its rail at VID of the step, and the die rail is at its setpoint for them (R451). -/
def State.railsReady (s : State) (d k : Nat) : Bool :=
  ((dieClus d).all fun c => decide (s.regionState c ≠ rOn) || decide (vidCode k ≤ s.get F.cluPwrStat.code c.ix)) &&
    decide (s.railTarget d ≤ s.get F.stwPwrRail.set (Ix.stw d))

/-- Whether the next step may be announced now. -/
def State.canAnnounce (s : State) (k : Nat) : Bool :=
  !s.bit F.nirTimeStep.pending (Ix.mod) && decide (s.standby = k) && s.litDies.all (fun d => s.pllLock.contains d) &&
    (decide (s.curStep < k) || s.litDies.all fun d => s.railsReady d k)

/-- Announce step k for stitch S. -/
def announceStep (k at_ : Nat) (s : State) : State :=
  { (s.sets (Ix.mod) [(F.nirTimeStep.next_step, k), (F.nirTimeStep.pending, 1), (F.nirTimeStepAt.stitch, at_)]) with committed := false }

/-- Ports whose neighbour takes its time from this module: those a time request has come from (R422).  [DEDUCED, log 150] -/
def State.childPorts (s : State) : List Nat := (List.range 6).filter fun p => (Map.getD s.net.ports p {}).child

/-- CLOCK_STEP_ANNOUNCE: one step, for a stitch at least 64 st ahead.  Under lockstep the time root announces at least 4,096 st ahead
and tells its children; another module announces only what reaches it from the root (R425). -/
def clockStepAnnounce (at_ : Nat) (s : State) : State :=
  match s.nextStep with
  | none => s
  | some k =>
    if ¬ s.canAnnounce k then s
    else if s.lockstep then
      if s.timeRoot then
        let t := max at_ (s.stitch + 4096)
        forAll s.childPorts (fun p s => sendStepFrame p t k s) (announceStep k t s)
      else s
    else announceStep k (max at_ (s.stitch + 64)) s

def execClockStepAnnounce (at_ : BitVec 64) (s : State) : Host.Outcome State Fault Refusal := done (clockStepAnnounce at_.toNat s)

/-- Stitch of the announced step (R40). -/
def State.stepAt (s : State) : Nat := s.get F.nirTimeStepAt.stitch (Ix.mod)

/-- STEP_COMMIT: from stitch S − 40 on the step is irrevocable. -/
def stepCommit (s : State) : State :=
  if s.bit F.nirTimeStep.pending (Ix.mod) ∧ s.stepAt ≤ s.stitch + 40 then { s with committed := true } else s

def execStepCommit (s : State) : Host.Outcome State Fault Refusal := done (stepCommit s)

/-- CLOCK_STEP_EFFECT: at stitch S every die switches to its standby PLL; a die whose standby PLL is not locked stops (its
PLL cause of darkness waits for DIE_DARK), and none of its cores issues any more.  The PLLs released relock to the step below. -/
def clockStepEffect (s : State) : State :=
  if s.bit F.nirTimeStep.pending (Ix.mod) ∧ s.stepAt ≤ s.stitch then
    let m := Ix.mod
    let old := s.curStep
    let new := s.get F.nirTimeStep.next_step m
    let lost := s.litDies.filter fun d => !s.pllLock.contains d
    let s := s.sets m [(F.nirTimeStep.cur_step, new), (F.nirTimeStep.pending, 0), (F.nirTimeStep.standby_locked, 0)]
    let s := if old < new then s.inc F.nirTimeStepCount.down m else s.inc F.nirTimeStepCount.up m
    let s := { s with dying := lost.foldl (fun t d => Map.put t d 2) s.dying, committed := false, pllLock := [], lastStep := some s.stitch
                      stepReqs := s.stepReqs.filter fun p => decide (p.2 ≠ new) }
    { s with standby := s.standbyStep }
  else s

def execClockStepEffect (s : State) : Host.Outcome State Fault Refusal := done (clockStepEffect s)

/-- CLOCK (Table 16.11). -/
def clockEvent (d kind : Nat) (s : State) : State :=
  s.emit 0x0003 2 31 none [(s.stitch, 64), (d, 5), (s.curStep, 3), (s.get F.nirTimeStep.next_step (Ix.mod), 3), (kind, 2)]

/-- STANDBY_PLL_LOCK_LOSS, reported by die d's steward, clears STANDBY_LOCKED: at or before the commit stitch the announced step is withdrawn
and its request stays, the standby PLLs retuned for the step that is asked for now; after it the step stands.  [DEDUCED, log 176] -/
def standbyPllLockLoss (d : DieIx) (s : State) : State :=
  let m := Ix.mod
  let s := { s with pllLock := s.pllLock.filter fun x => decide (x ≠ d.val) }.set F.nirTimeStep.standby_locked m 0
  if s.bit F.nirTimeStep.pending m then
    if s.stitch + 40 ≤ s.stepAt then
      retune { (clockEvent d 0 s).sets m [(F.nirTimeStep.next_step, s.curStep), (F.nirTimeStep.pending, 0),
        (F.nirTimeStepAt.stitch, s.lastStep.getD 0)] with committed := false }
    else s
  else clockEvent d 1 s

def execStandbyPllLockLoss (d : DieIx) (s : State) : Host.Outcome State Fault Refusal := done (standbyPllLockLoss d s)

/-- PLL_RELOCK: die d's standby PLL has locked at the step it should hold. -/
def pllRelock (d : DieIx) (s : State) : State :=
  let s := { s with pllLock := if s.pllLock.contains d.val then s.pllLock else d.val :: s.pllLock }
  if s.litDies.all fun x => s.pllLock.contains x then s.set F.nirTimeStep.standby_locked (Ix.mod) 1 else s

def execPllRelock (d : DieIx) (s : State) : Host.Outcome State Fault Refusal := done (pllRelock d s)

end Sys2Proof.Machine
end

