-- ==== Sys2Proof/Machine/Kv.lean ====
section
/-!
DEFINITION. The KV cache (chapter 07): lane roles, seats, slots and homes, appends and stagings of the KV feeder, the KV
commands, block copies and the notice of a spilled pass.
-/

namespace Sys2Proof.Machine
open Sys2Proof

/-! ## Lane roles (R228-R234) -/

/-- A lane role: a core and its role number. -/
abbrev Lane := CoreId × Nat

def Lane.ix (l : Lane) (m : Nat := 0) : Ix := l.1.ix l.2 m

/-- Enabled lane roles of a partition's dies. -/
def State.lanes (s : State) (p : Nat) : List Lane :=
  (s.regs.filter fun e => decide (e.1.reg = .coreKvfRoleCfg0 ∧ e.1.lo = 0 ∧ e.2 = 1) &&
    (s.get F.hrnPart.dies (Ix.mod p)).testBit e.1.ix.die).filterMap fun e => (coreOfIx e.1.ix).map fun c => (c, e.1.ix.n)

/-- N_A of the role's set. -/
def State.laneNa (s : State) (l : Lane) : Nat := s.get F.coreKvfRoleCfg0.na_m1 l.ix + 1

/-- Lane index λ. -/
def State.laneIdx (s : State) (l : Lane) : Nat := s.get F.coreKvfRoleCfg0.lane l.ix

/-- G: scale groups a head. -/
def State.laneG (s : State) (l : Lane) : Nat := s.get F.coreKvfRoleCfg0.g_m1 l.ix + 1

/-- The lane's KV format is Q8 (R162). -/
def State.laneQ8 (s : State) (l : Lane) : Bool := s.bit F.coreKvfRoleCfg0.kvfmt l.ix

/-- Lines of a block (R224): 68 × D_h bytes at Q4, 132 × D_h at Q8, D_h = 32 × G. -/
def State.blockLines (s : State) (l : Lane) : Nat := ((if s.laneQ8 l then 132 else 68) * 32 * s.laneG l + 255) / 256

/-- Number of list indices below `n` that belong to a lane (R229). -/
def idxBelow (na lane n : Nat) : Nat := (n + na - 1 - lane) / na

/-- List index i belongs to the lane. -/
def State.holds (s : State) (l : Lane) (i : Nat) : Bool := decide (i % s.laneNa l = s.laneIdx l)

/-- Follow NEXT from a slot for n slots. -/
def State.chain (s : State) (l : Lane) (slot : Nat) : Nat → List Nat
  | 0 => []
  | n + 1 => slot :: s.chain l (s.get F.coreKvfRoleSlot.next (l.ix slot)) n

/-- Slots of a seat's shared chain (R233). -/
def State.sharedSlots (s : State) (l : Lane) (σ : Nat) : List Nat :=
  s.chain l (s.get F.coreKvfRoleSeat.phead (l.ix σ)) (s.get F.coreKvfRoleSeat.pn (l.ix σ))

/-- Slots of a seat's own chain (R233). -/
def State.ownSlots (s : State) (l : Lane) (σ : Nat) : List Nat :=
  s.chain l (s.get F.coreKvfRoleSeat.ohead (l.ix σ)) (s.get F.coreKvfRoleSeat.on (l.ix σ))

/-- A seat's slots in a lane in ascending list index (R233). -/
def State.seatSlots (s : State) (l : Lane) (σ : Nat) : List Nat := s.sharedSlots l σ ++ s.ownSlots l σ

/-- Address of a home. -/
def State.homeAddr (s : State) (l : Lane) (h : Nat) : Nat :=
  let line := s.get F.coreKvfRoleHome.line (l.ix h)
  if s.bit F.coreKvfRoleHome.space (l.ix h) then sbufAddr l.1.cluId (256 * line) else spadAddr l.1 (256 * line)

/-- Address of a stack-region position: positions follow one another on 256 B boundaries. -/
def State.stackPos (s : State) (l : Lane) (i : Nat) : Nat :=
  fabStack l.1.die (256 * (s.get F.coreKvfRoleCfg1.stkbase l.ix + s.blockLines l * i))

/-- Address of a slot's block. -/
def State.slotAddr (s : State) (l : Lane) (slot : Nat) : Nat :=
  let a := s.get F.coreKvfRoleSlot.addr (l.ix slot)
  if s.bit F.coreKvfRoleSlot.loc (l.ix slot) then s.stackPos l a
  else if s.bit F.coreKvfRoleSlot.space (l.ix slot) then sbufAddr l.1.cluId (256 * a) else spadAddr l.1 (256 * a)

/-! ## Free lists (R234) -/

/-- Homes held by a lane, in order (R233). -/
def State.homes (s : State) (l : Lane) : List Nat := Map.getD s.homeList l []

/-- Replace a lane's homes and show their count (R234). -/
def State.setHomes (s : State) (l : Lane) (hs : List Nat) : State :=
  { s with homeList := Map.put s.homeList l hs }.sets l.ix
    [(F.coreKvfRoleHfree.head, (hs.head?).getD 0x7F), (F.coreKvfRoleHfree.count, hs.length)]

/-- The home a resident slot occupies. -/
def State.homeOf (s : State) (l : Lane) (slot : Nat) : Option Nat :=
  if s.bit F.coreKvfRoleSlot.loc (l.ix slot) then none
  else (List.range (s.get F.coreKvfRoleCfg1.nhome l.ix)).find? fun h =>
    decide (s.get F.coreKvfRoleHome.space (l.ix h) = s.get F.coreKvfRoleSlot.space (l.ix slot)) &&
      decide (s.get F.coreKvfRoleHome.line (l.ix h) = s.get F.coreKvfRoleSlot.addr (l.ix slot))

/-- A home goes to the head of the home list. -/
def State.freeHome (s : State) (l : Lane) (h : Option Nat) : State :=
  match h with
  | none => s
  | some h => s.setHomes l (h :: s.homes l)

/-- A slot's fields name a home. -/
def State.placeAt (s : State) (l : Lane) (slot h : Nat) : State :=
  s.sets (l.ix slot) [(F.coreKvfRoleSlot.loc, 0), (F.coreKvfRoleSlot.space, s.get F.coreKvfRoleHome.space (l.ix h)),
    (F.coreKvfRoleSlot.addr, s.get F.coreKvfRoleHome.line (l.ix h))]

/-- Take the heads of both lists: a slot entry with REF 1 and a home for it; none where either list is empty. -/
def State.takeSlot (s : State) (l : Lane) : Option (Nat × Nat × State) :=
  match s.homes l with
  | [] => none
  | h :: hs =>
    let slot := s.get F.coreKvfRoleFree.head l.ix
    let n := s.get F.coreKvfRoleFree.count l.ix
    if n = 0 then none
    else
      let s := s.sets l.ix [(F.coreKvfRoleFree.head, s.get F.coreKvfRoleSlot.next (l.ix slot)), (F.coreKvfRoleFree.count, n - 1)]
      let s := s.sets (l.ix slot) [(F.coreKvfRoleSlot.next, 0x7F), (F.coreKvfRoleSlot.ref, 1)]
      some (slot, h, s.setHomes l hs)

/-- Allocate a resident slot. -/
def State.allocSlot (s : State) (l : Lane) : Option (Nat × State) := (s.takeSlot l).map fun q => (q.1, q.2.2.placeAt l q.1 q.2.1)

/-- A stack position is freed. -/
def State.freeStack (s : State) (l : Lane) : State := s.inc F.coreKvfRoleFree.stkfree l.ix

/-- Address of a home, or of a stack position where `stk`. -/
def State.placeAddr (s : State) (l : Lane) (stk : Bool) (i : Nat) : Nat := if stk then s.stackPos l i else s.homeAddr l i

/-- Give back a home, or a stack position where `stk`; while a copy still reads it, the copy holds it and gives it back (R251). -/
def State.release (s : State) (l : Lane) (stk : Bool) (i : Nat) : State :=
  match s.kvJobs.findIdx? fun j => decide (j.core = l.1 ∧ j.role = l.2 ∧ j.src = s.placeAddr l stk i) with
  | some k => { s with kvJobs := s.kvJobs.modify k fun j => { j with hold := some (stk, i) } }
  | none => if stk then s.freeStack l else s.freeHome l (some i)

/-- Give back the place of a slot's block. -/
def State.releaseSlot (s : State) (l : Lane) (slot : Nat) : State :=
  if s.bit F.coreKvfRoleSlot.loc (l.ix slot) then s.release l true (s.get F.coreKvfRoleSlot.addr (l.ix slot))
  else match s.homeOf l slot with
    | none => s
    | some h => s.release l false h

/-- REF falls by one; at 0 the entry goes to the head of the slot list and its home or stack position is freed. -/
def State.dropSlot (s : State) (l : Lane) (slot : Nat) : State :=
  let ix := l.ix slot
  let r := s.get F.coreKvfRoleSlot.ref ix - 1
  if 0 < r then s.set F.coreKvfRoleSlot.ref ix r
  else
    let s := s.releaseSlot l slot
    let s := s.sets ix [(F.coreKvfRoleSlot.next, s.get F.coreKvfRoleFree.head l.ix), (F.coreKvfRoleSlot.ref, 0),
      (F.coreKvfRoleSlot.loc, 0), (F.coreKvfRoleSlot.space, 0), (F.coreKvfRoleSlot.addr, 0)]
    s.sets l.ix [(F.coreKvfRoleFree.head, slot), (F.coreKvfRoleFree.count, s.get F.coreKvfRoleFree.count l.ix + 1)]

/-- A copy is over: it leaves the list, and what it held goes back unless another copy still reads it. -/
def State.endJob (s : State) (j : KvJob) : State :=
  let s := { s with kvJobs := s.kvJobs.erase j }
  match j.hold with
  | none => s
  | some (stk, i) => s.release (j.core, j.role) stk i

/-- Whether any block of the seat is in a stack region of a lane. -/
def State.spilledIn (s : State) (l : Lane) (σ : Nat) : Bool :=
  (s.ownSlots l σ).any fun k => s.bit F.coreKvfRoleSlot.loc (l.ix k)

/-- Refresh the SPILL bits of a seat. -/
def State.setSpill (s : State) (p σ : Nat) (l : Lane) : State :=
  let s := s.set F.coreKvfRoleSeat.spill (l.ix σ) (boolNat (s.spilledIn l σ))
  s.set F.srvKvLen.spill (Ix.mod p σ) (boolNat ((s.lanes p).any fun l => s.bit F.coreKvfRoleSeat.spill (l.ix σ)))

/-- Both lists of a role hold all members in ascending index, the stack region is free, and no seat holds a block: harness
activation and tenant clear (R234). -/
def State.initLane (s : State) (l : Lane) : State :=
  let n := s.get F.coreKvfRoleCfg0.nslot l.ix
  let s := forAll (List.range 127) (fun k s => s.sets (l.ix k)
    [(F.coreKvfRoleSlot.next, if k + 1 < n then k + 1 else 0x7F), (F.coreKvfRoleSlot.ref, 0), (F.coreKvfRoleSlot.loc, 0),
      (F.coreKvfRoleSlot.space, 0), (F.coreKvfRoleSlot.addr, 0)]) s
  let s := s.sets l.ix [(F.coreKvfRoleFree.head, if n = 0 then 0x7F else 0), (F.coreKvfRoleFree.count, n),
    (F.coreKvfRoleFree.stkfree, s.get F.coreKvfRoleCfg1.stkn l.ix)]
  let s := { s with kvJobs := s.kvJobs.filter fun j => !(decide (j.core = l.1) && decide (j.role = l.2)) }
  s.setHomes l (List.range (s.get F.coreKvfRoleCfg1.nhome l.ix))

/-! ## Broken seats (R240) -/

/-- Reasons of Table 07.6. -/
def kvSeq : Nat := 1
/-- Reasons a seat breaks (R240). -/
def kvFull : Nat := 2
def kvClass : Nat := 3
def kvShared : Nat := 4
def kvLost : Nat := 5

/-- Number of a core in the module. -/
def coreNo (c : CoreId) : Nat := (c.die.val * 128 + c.clu.val) * 4 + c.core.val

/-- What KV-ERROR names for a lane that breaks a seat. -/
def State.seatBreak (s : State) (p : Nat) (l : Lane) (σ pos reason : Nat) : SeatBreak :=
  { part := p, seat := σ, stitch := s.stitch, pos := pos, len := s.get F.coreKvfRoleSeat.len (l.ix σ), reason := reason
    layer := s.get F.coreKvfRoleCfg1.stage l.ix, kvHead := Config.kvHead (coreNo l.1) l.2 % 64, lane := s.laneIdx l }

/-- Order of lanes within a stitch (R240). -/
def SeatBreak.key (b : SeatBreak) : Nat := (b.layer * 64 + b.kvHead) * 64 + b.lane

/-- A seat becomes BROKEN in a lane: counted in the role.  The seat's one KV-ERROR names the first lane that broke it, and goes out at
the end of the stitch. -/
def State.breakSeat (s : State) (p : Nat) (l : Lane) (σ pos reason : Nat) : State :=
  if s.bit F.coreKvfRoleSeat.broken (l.ix σ) then s
  else
    let s := (s.set F.coreKvfRoleSeat.broken (l.ix σ) 1).inc F.coreKvfRoleCnt.errors l.ix
    let s := s.raise F.coreKvfStat.broken l.1.ix
    let b := s.seatBreak p l σ pos reason
    let first := fun (s : State) => { s with breaks := s.breaks ++ [b], brokeWhy := Map.put s.brokeWhy (p, σ) (reason, pos) }
    if ¬ s.bit F.srvKvLen.broken (Ix.mod p σ) then first (s.set F.srvKvLen.broken (Ix.mod p σ) 1)
    else if s.breaks.any fun x => decide (x.part = p ∧ x.seat = σ ∧ b.key < x.key) then
      first { s with breaks := s.breaks.filter fun x => !decide (x.part = p ∧ x.seat = σ) }
    else s

/-! ## Effects of the KV commands (Table 07.10) -/

/-- Operation codes of Table 07.10. -/
def kvSeatOpen : Nat := 1
def kvSeatFree : Nat := 2
def kvFork : Nat := 3
def kvSpill : Nat := 4
def kvRecall : Nat := 5

/-- Write a lane's seat entry: ACTIVE and every other field 0. -/
def State.zeroSeat (s : State) (l : Lane) (σ active : Nat) : State :=
  s.sets (l.ix σ) [(F.coreKvfRoleSeat.len, 0), (F.coreKvfRoleSeat.phead, 0), (F.coreKvfRoleSeat.pn, 0), (F.coreKvfRoleSeat.ohead, 0),
    (F.coreKvfRoleSeat.on, 0), (F.coreKvfRoleSeat.active, active), (F.coreKvfRoleSeat.spill, 0), (F.coreKvfRoleSeat.broken, 0)]

/-- COPYING shows whether a copy of the core is in progress. -/
def State.showCopying (s : State) (c : CoreId) : State :=
  s.set F.coreKvfStat.copying c.ix (boolNat (s.kvJobs.any fun j => decide (j.core = c)))

/-- SEAT_OPEN in one lane (R247). -/
def openLane (σ : Nat) (l : Lane) (s : State) : State := s.zeroSeat l σ 1

/-- A job that loses its slot gives back what it had taken; the entry a FORK was filling names its home, and is freed with it. -/
def dropJob (j : KvJob) (s : State) : State :=
  let l : Lane := (j.core, j.role)
  let s := s.endJob j
  let s := if j.op = kvSpill then s.freeStack l else if j.op = kvRecall then s.freeHome l (some j.dest) else s.placeAt l j.slot j.dest
  s.showCopying j.core

/-- R249 in one lane. -/
def freeLane (σ : Nat) (l : Lane) (s : State) : State :=
  let slots := s.seatSlots l σ
  let s := forAll (s.kvJobs.filter fun j => decide (j.core = l.1) && decide (j.role = l.2) && decide (j.seat = σ)) dropJob s
  (forAll slots (fun k s => s.dropSlot l k) s).zeroSeat l σ 0

/-- The copy of one block that a command starts in a lane. -/
def KvCmd.job (cmd : KvCmd) (l : Lane) (seat slot src dest : Nat) : KvJob :=
  { seq := cmd.seq, part := cmd.part, core := l.1, role := l.2, op := cmd.op, seat := seat, slot := slot, src := src, dest := dest }

/-- R247 in one lane: the shared chain, and the copy of the partial block, whose entry names the source's place until the copy has
completed (R251). -/
def forkLane (cmd : KvCmd) (l : Lane) (s : State) : State :=
  let na := s.laneNa l
  let full := cmd.a0 / 64
  let pn := idxBelow na (s.laneIdx l) full
  let own := s.ownSlots l cmd.seat
  let ixd := l.ix cmd.seat2
  let s := forAll (own.take pn) (fun k s => s.set F.coreKvfRoleSlot.ref (l.ix k) (s.get F.coreKvfRoleSlot.ref (l.ix k) + 1)) s
  let s := s.sets ixd [(F.coreKvfRoleSeat.phead, if pn = 0 then 0x7F else s.get F.coreKvfRoleSeat.ohead (l.ix cmd.seat)),
    (F.coreKvfRoleSeat.pn, pn), (F.coreKvfRoleSeat.len, cmd.a0)]
  if cmd.a0 % 64 ≠ 0 ∧ s.holds l full then
    match own[full / na]?, s.takeSlot l with
    | some k, some (slot, h, s) =>
      let s := s.sets ixd [(F.coreKvfRoleSeat.ohead, slot), (F.coreKvfRoleSeat.on, 1)]
      let s := s.sets (l.ix slot) [(F.coreKvfRoleSlot.loc, s.get F.coreKvfRoleSlot.loc (l.ix k)),
        (F.coreKvfRoleSlot.space, s.get F.coreKvfRoleSlot.space (l.ix k)), (F.coreKvfRoleSlot.addr, s.get F.coreKvfRoleSlot.addr (l.ix k))]
      { s with kvJobs := s.kvJobs ++ [cmd.job l cmd.seat2 slot (s.slotAddr l k) h] }.showCopying l.1
    | _, _ => s
  else s

/-- Stack positions of a role that neither a block nor a copy has. -/
def State.freePositions (s : State) (l : Lane) : List Nat :=
  let used := ((List.range (s.get F.coreKvfRoleCfg0.nslot l.ix)).filter fun k =>
      decide (0 < s.get F.coreKvfRoleSlot.ref (l.ix k)) && s.bit F.coreKvfRoleSlot.loc (l.ix k)).map (fun k => s.get F.coreKvfRoleSlot.addr (l.ix k)) ++
    (s.kvJobs.filter fun j => decide (j.core = l.1) && decide (j.role = l.2)).flatMap fun j =>
      (if j.op = kvSpill then [j.dest] else []) ++ (match j.hold with
        | some (true, i) => [i]
        | _ => [])
  (List.range (s.get F.coreKvfRoleCfg1.stkn l.ix)).filter fun i => !used.contains i

/-- Slots a SPILL or RECALL names in a lane, those already where they go or on their way left out.  [DEDUCED, log 99] -/
def State.movable (s : State) (l : Lane) (cmd : KvCmd) : List Nat :=
  let na := s.laneNa l
  let idx := (List.range cmd.a1).filterMap fun j => if s.holds l (cmd.a0 + j) then some ((cmd.a0 + j) / na) else none
  (idx.filterMap fun k => (s.seatSlots l cmd.seat)[k]?).filter fun k =>
    decide (s.get F.coreKvfRoleSlot.loc (l.ix k) = (if cmd.op = kvSpill then 0 else 1)) &&
      !(s.kvJobs.any fun j => decide (j.core = l.1) && decide (j.role = l.2) && decide (j.slot = k))

/-- Start the copy of one block to a stack position or a home. -/
def moveBlock (cmd : KvCmd) (l : Lane) (k : Nat) (s : State) : State :=
  if cmd.op = kvSpill then
    let ps := s.freePositions l
    match ps[Config.freeNat 5 s.draws % ps.length]? with
    | none => s
    | some q =>
      let s := (s.takeDraws 1).set F.coreKvfRoleFree.stkfree l.ix (s.get F.coreKvfRoleFree.stkfree l.ix - 1)
      { s with kvJobs := s.kvJobs ++ [cmd.job l cmd.seat k (s.slotAddr l k) q] }.showCopying l.1
  else
    match s.homes l with
    | [] => s
    | h :: hs =>
      let s := s.setHomes l hs
      { s with kvJobs := s.kvJobs ++ [cmd.job l cmd.seat k (s.slotAddr l k) h] }.showCopying l.1

/-- SPILL or RECALL in one lane (R252). -/
def moveLane (cmd : KvCmd) (l : Lane) (s : State) : State := forAll (s.movable l cmd) (moveBlock cmd l) s

/-- Effect of a command in every lane and in the serving unit's copy of the lengths. -/
def kvEffect (cmd : KvCmd) (s : State) : State :=
  let ls := s.lanes cmd.part
  let ix := Ix.mod cmd.part cmd.seat
  match cmd.op with
  | 1 => (forAll ls (openLane cmd.seat) s).sets ix [(F.srvKvLen.len, 0), (F.srvKvLen.active, 1), (F.srvKvLen.spill, 0), (F.srvKvLen.broken, 0)]
  | 2 => (forAll ls (freeLane cmd.seat) s).sets ix [(F.srvKvLen.len, 0), (F.srvKvLen.active, 0), (F.srvKvLen.spill, 0), (F.srvKvLen.broken, 0)]
  | 3 => (forAll ls (forkLane cmd) s).set F.srvKvLen.len (Ix.mod cmd.part cmd.seat2) cmd.a0
  | _ => forAll ls (moveLane cmd) s

/-! ## Checks of a submitted command (R250) -/

/-- The serving unit's mirror: the tables once every accepted command has taken effect. -/
def State.kvMirror (s : State) (p : Nat) : State := forAll (s.kvCmds.filter fun c => decide (c.part = p)) kvEffect s

/-- Blocks of a seat. -/
def State.seatBlocks (s : State) (p σ : Nat) : Nat := (s.get F.srvKvLen.len (Ix.mod p σ) + 63) / 64

/-- A request of software for a stitch less than 64 st ahead is late unless a pass of its seats or a committed swap moves it (R27, R250).
[DEDUCED, log 188] -/
def State.kvLate (s : State) (p : Nat) (seats : List Nat) (t : Nat) : Bool :=
  decide (t < s.stitch + 64) &&
    !(s.passes.any fun q => decide (q.part = p) && seats.contains q.seat && decide (q.start ≤ t) && decide (t ≤ q.fin)) &&
    !((Map.find s.swaps p).any fun w => w.committed && decide (w.at_ ≤ t + 48) && decide (t ≤ w.at_))

/-- Status of Table 07.11 past LATE, evaluated on the mirror in R250's order. -/
def State.kvStatus (s : State) (cmd : KvCmd) : Nat :=
  let p := cmd.part
  let ls := s.lanes p
  let act := fun σ => s.bit F.srvKvLen.active (Ix.mod p σ)
  let len := fun σ => s.get F.srvKvLen.len (Ix.mod p σ)
  match cmd.op with
  | 1 => if act cmd.seat then 2 else 0
  | 2 => if act cmd.seat then 0 else 3
  | 3 =>
    if ¬ (act cmd.seat ∧ act cmd.seat2) then 3
    else if len cmd.seat2 ≠ 0 then 2
    else if ls.any fun l => decide (s.get F.coreKvfRoleSeat.pn (l.ix cmd.seat) ≠ 0) then 4
    else if cmd.a0 = 0 ∨ len cmd.seat < cmd.a0 then 9
    else if ls.any fun l => ((s.ownSlots l cmd.seat).take (idxBelow (s.laneNa l) (s.laneIdx l) (cmd.a0 / 64))).any fun k =>
      decide (32 ≤ s.get F.coreKvfRoleSlot.ref (l.ix k)) then 5
    else if cmd.a0 % 64 ≠ 0 ∧ (ls.any fun l => s.holds l (cmd.a0 / 64) &&
      (decide (s.get F.coreKvfRoleFree.count l.ix = 0) || (s.homes l).isEmpty)) then 6
    else 0
  | op =>
    if ¬ act cmd.seat then 3
    else if s.seatBlocks p cmd.seat < cmd.a0 + cmd.a1 ∨ (op = kvSpill ∧ cmd.a1 ≠ 0 ∧ cmd.a0 + cmd.a1 = s.seatBlocks p cmd.seat) then 9
    else if op = kvSpill ∧ (ls.any fun l => (s.movable l cmd).any fun k =>
      decide (1 < s.get F.coreKvfRoleSlot.ref (l.ix k)) || (s.sharedSlots l cmd.seat).contains k) then 7
    else if op = kvRecall ∧ (ls.any fun l => decide ((s.homes l).length < (s.movable l cmd).length)) then 6
    else if op = kvSpill ∧ (ls.any fun l => decide ((s.freePositions l).length < (s.movable l cmd).length)) then 8
    else 0

/-- The stitch chosen (R28, R250, R340): at least 64 st ahead, after every pass of a named seat in flight at it, after a
committed swap. -/
def State.kvStitch (s : State) (p : Nat) (seats : List Nat) (t : Nat) : Nat :=
  let past := fun (t : Nat) =>
    let t := s.passes.foldl (fun t q => if q.part = p ∧ seats.contains q.seat ∧ q.start ≤ t ∧ t ≤ q.fin then q.fin + 1 else t) t
    s.ctxs.foldl (fun t e => if e.1.1 = p ∧ e.2.admitted ∧ seats.contains (s.get F.srvCtx.seat (Ix.mod p e.1.2)) then max t e.2.ret else t) t
  let rec go : Nat → Nat → Nat
    | 0, t => t
    | n + 1, t =>
      let u := past t
      let u := match Map.find s.swaps p with
        | some w => if w.committed ∧ w.at_ ≤ u + 48 ∧ u ≤ w.at_ then w.at_ + 1 else u
        | none => u
      if u = t then t else go n u
  go (s.passes.length + 2) (max t (s.stitch + 64))

/-- Accepted commands stand in the order they take effect in: by stitch, then as they were accepted. -/
def insertCmd (c : KvCmd) : List KvCmd → List KvCmd
  | [] => [c]
  | b :: bs => if c.at_ < b.at_ then c :: b :: bs else b :: insertCmd c bs

/-- Submit a command: it is accepted as a whole or refused; the status is answered, and kept in SRV.KV.RESULT where software
submitted it. -/
def kvSubmit (own : Bool) (p op seat seat2 a0 a1 t : Nat) (s : State) : Nat × State :=
  let seats := if op = kvFork then [seat, seat2] else [seat]
  let cmd : KvCmd := { seq := s.kvSeq, part := p, op := op, seat := seat, seat2 := seat2, a0 := a0, a1 := a1
                       at_ := s.kvStitch p seats t, own := own }
  let st := if !own && s.kvLate p seats t then 1 else (s.kvMirror p).kvStatus cmd
  let s := { s with kvSeq := s.kvSeq + 1 }
  let s := if own then s
    else { s with kvLast := Map.put s.kvLast p cmd.seq }.sets (Ix.mod p)
      [(F.srvKvResult.status, st), (F.srvKvResult.done, 0), (F.srvKvResult.t_lo, cmd.at_)]
  (st, if st = 0 then { s with kvCmds := insertCmd cmd s.kvCmds } else s)

/-- A command written by software into SRV.KV.CMD and submitted with SRV.KV.AT. -/
def kvRequest (p op seat seat2 a0 a1 t : Nat) (s : State) : State :=
  let s := s.sets (Ix.mod p) [(F.srvKvCmd.op, op), (F.srvKvCmd.seat, seat), (F.srvKvCmd.seat2, seat2), (F.srvKvCmd.arg0, a0),
    (F.srvKvCmd.arg1, a1), (F.srvKvAt.stitch, t)]
  (kvSubmit false p op seat seat2 a0 a1 t s).2

def execSeatOpen (p : PartIx) (σ : Fin 512) (t : BitVec 64) (s : State) : Host.Outcome State Fault Refusal :=
  done (kvRequest p kvSeatOpen σ 0 0 0 t.toNat s)

def execSeatFree (p : PartIx) (σ : Fin 512) (t : BitVec 64) (s : State) : Host.Outcome State Fault Refusal :=
  done (kvRequest p kvSeatFree σ 0 0 0 t.toNat s)

def execFork (p : PartIx) (src dst : Fin 512) (npos : Fin 131072) (t : BitVec 64) (s : State) : Host.Outcome State Fault Refusal :=
  done (kvRequest p kvFork src dst npos 0 t.toNat s)

def execSpill (p : PartIx) (σ : Fin 512) (i0 : Fin 131072) (n : Fin 1024) (t : BitVec 64) (s : State) : Host.Outcome State Fault Refusal :=
  done (kvRequest p kvSpill σ 0 i0 n t.toNat s)

def execRecall (p : PartIx) (σ : Fin 512) (i0 : Fin 131072) (n : Fin 1024) (t : BitVec 64) (s : State) : Host.Outcome State Fault Refusal :=
  done (kvRequest p kvRecall σ 0 i0 n t.toNat s)

/-- DONE of SRV.KV.RESULT, with the completion stitch, once the last command of software has no copy left (R251). -/
def State.kvDone (s : State) (p seq : Nat) : State :=
  if Map.find s.kvLast p = some seq ∧ ¬ (s.kvJobs.any fun j => decide (j.seq = seq)) then
    s.sets (Ix.mod p) [(F.srvKvResult.done, 1), (F.srvKvResult.t_lo, s.stitch)]
  else s

/-- The oldest accepted command of a partition that is due: cc 0 of its stitch is over. -/
def State.kvDue (s : State) (p : Nat) : Option KvCmd := s.kvCmds.find? fun c => decide (c.part = p) && decide (16 * c.at_ < s.now)

/-- Take an accepted command out of the queue and apply it. -/
def kvApply (cmd : KvCmd) (s : State) : State :=
  (kvEffect cmd { s with kvCmds := s.kvCmds.filter fun c => decide (c.seq ≠ cmd.seq) }).kvDone cmd.part cmd.seq

/-! ## The append (R235, R236) -/

/-- Attention header (Table 07.4). -/
structure AttHeader where
  seat : Nat
  cls : Nat
  rs : Nat
  pos : Nat
  deriving DecidableEq, Repr

/-- The attention header at HDRLINE (Table 07.4). -/
def State.attHeader (s : State) (l : Lane) : AttHeader :=
  let w := bytesToNat (s.bytes (spadAddr l.1 (256 * s.get F.coreKvfRoleCfg0.hdrline l.ix)) 8)
  { seat := bitsOf w 0 9, cls := bitsOf w 9 7, rs := bitsOf w 16 1, pos := bitsOf w 32 28 }

/-- Pieces of an append and where they go in the block (R225, R226): block offset, offset in the append, length. -/
def appendPieces (q8 : Bool) (g q : Nat) : List (Nat × Nat × Nat) :=
  let h := q / 32
  let p := q % 32
  let part := if q8 then 32 * g else 16 * g
  let tiles := if q8 then (List.range (2 * g)).map (fun i => 4 * (i / 2) + 2 * (i % 2) + h) else (List.range g).map (fun i => 2 * i + h)
  let vbase := if q8 then 4 * g else 2 * g
  let codes := tiles.zipIdx.flatMap fun t => [(512 * t.1 + 16 * p, 16 * t.2, 16), (512 * (vbase + t.1) + 16 * p, part + 16 * t.2, 16)]
  let sc := if q8 then 4096 * g else 2048 * g
  let scales := (List.range g).flatMap fun i =>
    [(sc + 32 * g * h + 32 * i + p, 2 * part + i, 1), (sc + 32 * g * (2 + h) + 32 * i + p, 2 * part + g + i, 1)]
  codes ++ scales

/-- Store the position's tile and scale bytes in the block. -/
def State.storeAppend (s : State) (l : Lane) (block pos : Nat) : State :=
  let src := spadAddr l.1 (256 * s.get F.coreKvfRoleCfg0.appline l.ix)
  let s := forAll (appendPieces (s.laneQ8 l) (s.laneG l) (pos % 64)) (fun q s =>
    (s.store (block + q.1) (s.bytes (src + q.2.1) q.2.2)).markWritten (block + q.1) false false (s.mark (src + q.2.1)).late) s
  s.incWrap F.coreKvfRoleCnt.appends l.ix

/-- A free entry and a free home that no accepted command will need: as each of them takes effect in turn, one of both is left over
(R250: an accepted command is never refused by a feeder).  [DESIGN CHOICE, log 198] -/
def State.kvSpare (s : State) (p : Nat) (l : Lane) : Bool :=
  let left := fun (t : State) => decide (0 < t.get F.coreKvfRoleFree.count l.ix) && !(t.homes l).isEmpty
  ((s.kvCmds.filter fun c => decide (c.part = p)).foldl (fun (q : Bool × State) c =>
    let t := kvEffect c q.2
    (q.1 && left t, t)) (left s, s)).1

/-- Step 3 of R236: a new own slot at a block boundary; none where a free list is empty but for what accepted commands will take. -/
def State.newBlock (s : State) (p : Nat) (l : Lane) (σ : Nat) : Option State :=
  match if s.kvSpare p l then s.allocSlot l else none with
  | none => none
  | some (slot, t) =>
    let ix := l.ix σ
    let t := match (s.ownSlots l σ).getLast? with
      | none => t.set F.coreKvfRoleSeat.ohead ix slot
      | some k => t.set F.coreKvfRoleSlot.next (l.ix k) slot
    some (t.set F.coreKvfRoleSeat.on ix (s.get F.coreKvfRoleSeat.on ix + 1))

/-- Steps 4 and 5 of R236. -/
def State.appendAt (s : State) (p : Nat) (l : Lane) (σ pos : Nat) : State :=
  let ix := l.ix σ
  let advance := fun (s : State) =>
    let s := s.set F.coreKvfRoleSeat.len ix (pos + 1)
    if s.get F.srvKvLen.len (Ix.mod p σ) = pos then s.set F.srvKvLen.len (Ix.mod p σ) (pos + 1) else s
  if s.holds l (pos / 64) then
    match (s.seatSlots l σ)[pos / 64 / s.laneNa l]? with
    | none => advance s
    | some k =>
      if 1 < s.get F.coreKvfRoleSlot.ref (l.ix k) then s.breakSeat p l σ pos kvShared
      else advance (s.storeAppend l (s.slotAddr l k) pos)
  else advance s

/-- An append by a lane of a core (R235, R236), in cc 0 to 11 of the attention step, whose first staging starts in its cc 12. -/
def kvAppend (c : CoreId) (r : Nat) (s : State) : State :=
  let l : Lane := (c, r)
  match s.partOf c.die with
  | none => s
  | some p =>
    let s := if s.bit F.coreKvfRoleCfg0.en l.ix then { s with stageAt := Map.put s.stageAt l (16 * s.stitch + 12) } else s
    let h := s.attHeader l
    let ix := l.ix h.seat
    if ¬ s.bit F.coreKvfRoleCfg0.en l.ix ∨ ¬ s.bit F.coreKvfRoleSeat.active ix ∨ s.bit F.coreKvfRoleSeat.broken ix then s
    else if h.pos ≠ s.get F.coreKvfRoleSeat.len ix then s.breakSeat p l h.seat h.pos kvSeq
    else if h.pos % 64 = 0 ∧ s.holds l (h.pos / 64) then
      match s.newBlock p l h.seat with
      | none => s.breakSeat p l h.seat h.pos kvFull
      | some s => s.appendAt p l h.seat h.pos
    else s.appendAt p l h.seat h.pos

def execKvAppend (c : CoreId) (r : Fin 2) (s : State) : Host.Outcome State Fault Refusal := done (kvAppend c r s)

/-! ## Staging (R237, R238, R253, R264) -/

/-- Valid count of a half of block i. -/
def validCount (len i h : Nat) : Nat := min (len - 64 * i - 32 * h) 32

/-- Scale bytes of positions at or beyond LEN become 0. -/
def maskScales (q8 : Bool) (g len i : Nat) (bs : List Byte) : List Byte :=
  let sc := if q8 then 4096 * g else 2048 * g
  bs.zipIdx.map fun b =>
    let o := b.2 - sc
    let q := o / (32 * g) % 2 * 32 + o % 32
    if sc ≤ b.2 ∧ b.2 < sc + 128 * g ∧ len ≤ 64 * i + q then 0#8 else b.1

/-- Write the staging header (Table 07.5). -/
def State.stageHeader (s : State) (a c0 c1 idx flags : Nat) : State :=
  (s.store a (natToBytes 4 c0 ++ natToBytes 4 c1 ++ natToBytes 4 idx ++ natToBytes 4 flags)).markWritten a false false false

/-- A fault of the feeder in the lane's core; its source field and bundle are not stated and are free. -/
def State.feederFault (s : State) (l : Lane) (detail : Nat) (ue : Option Nat) : State :=
  let src := Config.freeNat 8 s.draws % 4
  let b := Config.freeNat 9 s.draws % 2048
  (s.takeDraws 1).schedFault l.1 src b { code := sNotReady, detail := detail, ue := ue }

/-- Read one line of a block for staging: its bytes and LATE, or the fault. -/
def State.stageRead (s : State) (l : Lane) (a : Nat) : Except (Nat × Option Nat) (List Byte × Bool) :=
  if addrSpace a = 2 then
    match s.cacheHit l.1.cluId a with
    | none => .error (bankOf (addrOfs a) + 16, none)
    | some k => .ok (k.data, k.late)
  else
    let bad := s.ueIn a 256
    if (s.mark a).err || bad.isSome then .error (bankOf (addrOfs a) + 8, if addrSpace a = 0 then bad else none)
    else .ok (s.bytes a 256, (s.mark a).late)

/-- Copy a block's lines to the ring slot; a line that cannot be read raises its fault and ends the staging. -/
def State.stageLines (s : State) (l : Lane) (src dst : Nat) (mask : List Byte → List Byte) : List Nat → List Byte → List Bool → State × Bool
  | [], bs, lates =>
    let s := s.store dst (mask bs)
    (forAll lates.zipIdx (fun x s => s.markWritten (dst + 256 * x.2) false false x.1) s, true)
  | i :: is, bs, lates =>
    let a := src + 256 * i
    match s.stageRead l a with
    | .error e =>
      let s := if addrSpace a = 2 then s.inc F.cluSbufMisses.count l.1.cluId.ix
        else if addrSpace a = 1 ∧ (s.ueIn a 256).isSome then s.inc F.cluSbufEcc.ue l.1.cluId.ix else s
      (s.feederFault l e.1 e.2, false)
    | .ok r =>
      let s := match addrSpace a with
        | 0 => s.correctIn F.coreSpadEcc.ce l.1.ix a 256
        | 1 => s.correctIn F.cluSbufEcc.ce l.1.cluId.ix a 256
        | _ => s.inc F.cluSbufHits.count l.1.cluId.ix
      s.stageLines l src dst mask is (bs ++ r.1) (lates ++ [r.2])

/-- Scale bytes of an absent block or of a BROKEN seat: every one 0 (R238). -/
def State.zeroScales (s : State) (a n : Nat) : State :=
  forAll (List.range (n / 256 + 2)) (fun i s =>
    if a / 256 + i ≤ (a + n - 1) / 256 then s.markWritten (256 * (a / 256 + i)) false false false else s) (s.store a (List.replicate n 0#8))

/-- Valid serving class of the partition's started pass of a seat in flight. -/
def State.passIn (s : State) (p σ : Nat) : Option Pass :=
  s.passes.find? fun q => decide (q.part = p ∧ q.seat = σ ∧ q.start ≤ s.stitch ∧ s.stitch ≤ q.fin) && q.started

/-- P_blk in cc (R245). -/
def State.pblk (s : State) (l : Lane) : Nat := if s.laneQ8 l then 256 else 128

/-- SPGAP of a serving class in cc, from its stage length S = S_1 + P_blk × (B − 1) + (SPGAP − P_blk) × Z (R253). -/
def State.spgap (s : State) (p : Nat) (l : Lane) (k : Nat) : Nat :=
  let b := s.get F.srvCls.b_m1 (Ix.mod p k)
  let z := s.get F.srvCls.z (Ix.mod p k)
  let s1 := 16 * s.get F.srvFrameCfg0.s1_st (Ix.mod p)
  if z = 0 then s.pblk l else s.pblk l + (16 * s.get F.srvCls.s_st (Ix.mod p k) - s1 - s.pblk l * b) / z

/-- From the staging of block k to that of the next: P_blk, or SPGAP after a spilled block (R237, R253). -/
def State.stageGap (s : State) (p : Nat) (l : Lane) (σ k : Nat) : Nat :=
  match (s.seatSlots l σ)[k]?, s.passIn p σ with
  | some slot, some q => if s.bit F.coreKvfRoleSlot.loc (l.ix slot) then s.spgap p l q.cls else s.pblk l
  | _, _ => s.pblk l

/-- Write block k of a seat and its header into a ring slot (R238). -/
def stageBlock (l : Lane) (h : AttHeader) (k : Nat) (s : State) : State :=
  let lines := s.blockLines l
  let g := s.laneG l
  let broken := s.bit F.coreKvfRoleSeat.broken (l.ix h.seat)
  let dst := spadAddr l.1 (256 * (s.get F.coreKvfRoleCfg0.ringline l.ix + (h.rs + k) % 2 * (1 + lines)))
  let sc := if s.laneQ8 l then 4096 * g else 2048 * g
  let i := k * s.laneNa l + s.laneIdx l
  let len := s.get F.coreKvfRoleSeat.len (l.ix h.seat)
  match (s.seatSlots l h.seat)[k]? with
  | none => (s.zeroScales (dst + 256 + sc) (128 * g)).stageHeader dst 0 0 0xFFFFFFFF (2 * boolNat broken)
  | some slot =>
    let stk := s.get F.coreKvfRoleSlot.loc (l.ix slot)
    if broken then (s.zeroScales (dst + 256 + sc) (128 * g)).stageHeader dst 0 0 i (stk + 2)
    else
      let q := s.stageLines l (s.slotAddr l slot) (dst + 256) (maskScales (s.laneQ8 l) g len i) (List.range lines) [] []
      if q.2 then
        let s := q.1.inc F.coreKvfRoleCnt.spillrd l.ix stk
        s.stageHeader dst (validCount len i 0) (validCount len i 1) i stk
      else q.1

/-- Stage block k of the lane (R237, R238), in the cycle its staging starts.  [DEDUCED, log 100] -/
def kvStaging (c : CoreId) (r k : Nat) (s : State) : State :=
  let l : Lane := (c, r)
  match s.partOf c.die with
  | none => s
  | some p =>
    let h := s.attHeader l
    if ¬ s.bit F.coreKvfRoleCfg0.en l.ix ∨ h.cls ≤ k ∨ Map.find s.stageAt l ≠ some s.now then s
    else
      let s := { s with stageAt := Map.put s.stageAt l (s.now + s.stageGap p l h.seat k) }
      let s := if k = 0 ∧ h.cls < (s.seatSlots l h.seat).length then s.breakSeat p l h.seat h.pos kvClass else s
      stageBlock l h k s

def execKvStaging (c : CoreId) (r : Fin 2) (k : Fin 64) (s : State) : Host.Outcome State Fault Refusal := done (kvStaging c r k s)

/-! ## The spilled pass (R253, R254) -/

/-- Start of the staging of block k in a pass that started at stitch P, at the lane's attention step P + n × S + AOFS (R254). -/
def State.stagingStart (s : State) (p : Nat) (l : Lane) (q : Pass) (k : Nat) : Nat :=
  let step := q.start + s.get F.coreKvfRoleCfg1.stage l.ix * s.get F.srvCls.s_st (Ix.mod p q.cls) + s.get F.coreKvfRoleCfg0.aofs l.ix
  (List.range k).foldl (fun t i => t + s.stageGap p l q.seat i) (16 * step + 12)

/-- Largest reported read latency of a stack side over the clock steps (R167). -/
def State.stackLmax (s : State) (a : Nat) : Nat :=
  (List.range 6).foldl (fun m k => max m (s.get F.stwXingStkRtn.lat_cc (Ix.stw (addrDie a) (sideOf (addrOfs a) * 6 + k)))) 0

/-- The lines of a spilled block are requested one a cycle from cycle t on, into the cluster's cache (R253, R273). -/
def fillBlock (c : CluId) (a lines t : Nat) (s : State) : State :=
  forAll (List.range lines) (fun i s =>
    match s.cacheSlot c (a + 256 * i) with
    | none => s
    | some q =>
      { s with cache := Map.put s.cache (c, q) { line := (a + 256 * i) / 256, filling := true }
               lastReq := Map.put s.lastReq c (t + i) }.askStack
        ⟨none, c, a + 256 * i, 256, .cache q, t + i, some (t + i + s.stackLat (a + 256 * i)), []⟩) s

/-- The feeder of a lane has the notice of a spilled pass and issues the stack reads of its block k into the cluster's cache, once it
takes no longer for them to land by the block's staging than the largest latency.  [DEDUCED, log 185] -/
def passNotice (c : CoreId) (r k σ : Nat) (s : State) : State :=
  let l : Lane := (c, r)
  match s.partOf c.die with
  | none => s
  | some p => match s.passIn p σ, (s.seatSlots l σ)[k]? with
    | some q, some slot =>
      let a := s.slotAddr l slot
      let n := s.blockLines l
      if ¬ s.bit F.coreKvfRoleCfg0.en l.ix ∨ ¬ s.bit F.coreKvfRoleSlot.loc (l.ix slot) ∨ s.now + s.stackLmax a + n < s.stagingStart p l q k then s
      else fillBlock c.cluId a n (max s.now ((Map.getD s.lastReq c.cluId 0) + 1)) s
    | _, _ => s

def execPassNotice (c : CoreId) (r : Fin 2) (k : Fin 64) (σ : Fin 512) (s : State) : Host.Outcome State Fault Refusal :=
  done (passNotice c r k σ s)

/-! ## Copies (R251, R252) -/

/-- The bytes of a block and, line by line, the marks its copy takes: LATE travels, a line with an ERR mark or an uncorrectable word, or a
failed stack read, leaves ERR (R263, R264).  [DESIGN CHOICE, log 199] -/
def State.blockCopy (s : State) (src lines : Nat) (failed : Bool) : List Byte × List (Bool × Bool) :=
  (s.bytes src (256 * lines), (List.range lines).map fun i =>
    let a := src + 256 * i
    if addrSpace src = 2 then (failed, false) else ((s.mark a).err || (s.ueIn a 256).isSome, (s.mark a).late))

/-- Write a block's bytes and marks at its new place. -/
def State.putBlock (s : State) (a : Nat) (b : List Byte × List (Bool × Bool)) : State :=
  let s := (s.drainSide a).store a b.1
  if addrSpace a = 2 then s
  else forAll b.2.zipIdx (fun m s => s.markWritten (a + 256 * m.2) false (m.1.1 && addrSpace a = 0) (m.1.2 || (m.1.1 && addrSpace a = 1))) s

/-- A block copy completes: its bytes stand at the new place, and the slot entry switches to it; `e` says how a stack read of the
source ended (R277). -/
def kvCopyDone (i : Nat) (e : ReadEcc) (s : State) : State :=
  match s.kvJobs[i]? with
  | none => s
  | some j =>
    let l : Lane := (j.core, j.role)
    let s := if addrSpace j.src = 2 then countEcc j.src e (s.drainSide j.src) else s
    let b := s.blockCopy j.src (s.blockLines l) (decide (e = .failed))
    let s := s.endJob j
    let s := match j.op with
      | 3 => (s.putBlock (s.homeAddr l j.dest) b).placeAt l j.slot j.dest
      | 4 =>
        let s := (s.putBlock (s.stackPos l j.dest) b).releaseSlot l j.slot
        let s := s.sets (l.ix j.slot) [(F.coreKvfRoleSlot.loc, 1), (F.coreKvfRoleSlot.space, 0), (F.coreKvfRoleSlot.addr, j.dest)]
        s.setSpill j.part j.seat l
      | _ =>
        let s := (s.putBlock (s.homeAddr l j.dest) b).releaseSlot l j.slot
        (s.placeAt l j.slot j.dest).setSpill j.part j.seat l
    (s.showCopying j.core).kvDone j.part j.seq

end Sys2Proof.Machine
end

