-- ==== Sys2Proof/Machine/Image.lean ====
section
/-!
DEFINITION. Harness images (R321-R335): where registers lie, records and their targets, the field clamps of the loader and the
clamp report.
-/

namespace Sys2Proof.Machine
open Sys2Proof

/-! ## Registers by address -/

/-- The byte of a register that lies at an offset of its unit's range: its two indices and the byte within it. -/
def Reg.byteAt (r : Reg) (ofs : Nat) : Option (Nat × Nat × Nat) :=
  let p := (Reg.place r)
  if ofs < p.base then none
  else
    let d := ofs - p.base
    let n := if p.countN ≤ 1 then 0 else d / p.stepN
    let d := d - n * p.stepN
    let m := if p.countM ≤ 1 then 0 else d / p.stepM
    let b := d - m * p.stepM
    if n < max 1 p.countN ∧ m < max 1 p.countM ∧ 8 * b < p.bits then some (n, m, b) else none

/-- The register at an offset of a unit's range. -/
def locate (cls : UnitClass) (ofs : Nat) : Option (Reg × Nat × Nat × Nat) :=
  Reg.all.findSome? fun r => if (Reg.place r).cls = cls then (Reg.byteAt r ofs).map fun x => (r, x.1, x.2.1, x.2.2) else none

/-- Offset of a register instance in its unit's range. -/
def Reg.offset (r : Reg) (n m : Nat) : Nat := (Reg.place r).base + n * (Reg.place r).stepN + m * (Reg.place r).stepM

/-! ## Record targets (Tables 10.3, 10.4) -/

/-- The register instance (in virtual coordinates) a target byte lies in, and the byte within it. -/
def regAt (k : Nat) : Option (Reg × Ix × Nat) :=
  let t := vkTgt k
  match vkTk k with
  | 0 =>
    if addrSpace t ≠ 3 then none
    else
      let o := t % 2 ^ 30
      if o < 0x20000000 then
        ((locate .core o).orElse fun _ => locate .arr o).map fun x => (x.1, ⟨addrDie t, addrClu t, addrCore t, x.2.1, x.2.2.1⟩, x.2.2.2)
      else if addrCore t ≠ 0 then none
      else (locate .clu o).map fun x => (x.1, ⟨addrDie t, addrClu t, 0, x.2.1, x.2.2.1⟩, x.2.2.2)
  | 1 => (locate .stw (t % 2 ^ 24)).map fun x => (x.1, ⟨t / 2 ^ 39, 0, 0, x.2.1, x.2.2.1⟩, x.2.2.2)
  | 3 => (locate .srv t).map fun x => (x.1, ⟨0, 0, 0, x.2.1, x.2.2.1⟩, x.2.2.2)
  | _ => none

/-- Target of the first byte of a register instance. -/
def regKey (r : Reg) (ix : Ix) : Nat :=
  let o := Reg.offset r ix.n ix.m
  match (Reg.place r).cls with
  | .stw => vkey 1 0 (ix.die * 2 ^ 39 + o)
  | .srv => vkey 3 0 o
  | _ => vkey 0 0 (fab 3 ix.die ix.clu ix.core o)

/-- Registers that a section type permits (Table 10.4). -/
def sectionRegs : Nat → List Reg
  | 0x05 => [.cluRtrRoute]
  | 0x06 => [.coreAgrp, .arrCfg]
  | 0x07 => [.coreWptrArr, .coreWptrScl, .coreWptrDigSlot, .stwShardRef, .stwShardRefDigest, .stwShardScfg]
  | 0x09 => [.coreSeqTask, .coreSeqBase, .coreSeqBound, .coreDesc]
  | 0x0A => [.coreWin, .cluWin, .stkWin]
  | 0x0B => [.coreCredCfg, .coreCredTab]
  | 0x0C => [.coreCalCfg, .coreCalSlot]
  | 0x0D => [.vecCfgRnd, .vecCfgTscale, .vecPcntLayer, .stwPrecThr]
  | 0x0E => [.coreKvfRoleCfg0, .coreKvfRoleCfg1, .coreKvfRoleHome]
  | 0x0F => [.cluSbufCfg, .cluSbufScrub, .coreSpadCfg, .stkCfg]
  | 0x11 => [.srvFrameCfg0, .srvFrameCfg1, .srvFrameVocab, .srvFrameUsable, .srvFrameSmp, .srvFrameDig, .srvCls, .smpCfg]
  | _ => []

/-- The table a section type holds, and its size: for 24 virtual dies, and without end in credit windows. -/
def sectionTable : Nat → Option (Nat × Nat)
  | 0x01 => some (1, 12288)
  | 0x02 => some (2, 8192)
  | 0x03 => some (3, 1152)
  | 0x04 => some (4, 49152)
  | 0x10 => some (5, 2 ^ 32)
  | _ => none

def knownSection (t : Nat) : Bool := decide (1 ≤ t) && decide (t ≤ 0x12)

/-- The register holds a field that a harness sets.  [DEDUCED, log 119] -/
def Reg.rwh (r : Reg) (ofsBits : Nat) : Bool :=
  (Reg.fields r).any fun f => decide (f.ty = .rwh) && decide (f.lo < ofsBits + 8) && decide (ofsBits < f.lo + f.width)

/-- A permitted register with a settable field shares the byte's 64-bit word. -/
def nearRwh (st k : Nat) : Bool :=
  (List.range 8).any fun i =>
    match regAt (k / 8 * 8 + i) with
    | some (r, _, _) => (sectionRegs st).contains r && Reg.hasRwh r
    | none => false

/-- A register whose bytes share words with settable ones and are treated as read-only there: no field of it takes a
written value. -/
def Reg.passive (r : Reg) : Bool := (Reg.fields r).all fun f => decide (f.ty ≠ .rw) && decide (f.ty ≠ .wo) && decide (f.ty ≠ .rwh)

/-- A section of type st may write the byte at target k (R323).  [DEDUCED, log 118] -/
def targetOk (st k : Nat) : Bool :=
  let t := vkTgt k
  match vkTk k with
  | 2 =>
    match sectionTable st with
    | some (n, size) => decide (vkTable k = n) && decide (t < size)
    | none => false
  | _ =>
    if vkTk k = 0 ∧ (addrSpace t = 0 ∨ addrSpace t = 1) then
      decide (st = 0x12) && decide (t % 2 ^ 30 < spaceSize (addrSpace t)) && (decide (addrSpace t = 0) || decide (addrCore t = 0))
    else if vkTk k = 0 ∧ addrSpace t = 3 ∧ 0xC8000 ≤ t % 2 ^ 30 ∧ t % 2 ^ 30 < 0xD0000 then decide (st = 0x08)
    else
      match regAt k with
      | some (r, _, _) => ((sectionRegs st).contains r && Reg.hasRwh r) || (Reg.passive r && nearRwh st k)
      | none => decide (vkTk k ≠ 0 ∨ addrSpace t = 3) && nearRwh st k

/-! ## Parsing (R321, R322) -/

def leNat (bs : List Byte) (o n : Nat) : Nat := bytesToNat ((bs.drop o).take n)

/-- A directory entry (Table 10.2). -/
structure Section where
  ty : Nat
  nrec : Nat
  ofs : Nat
  len : Nat
  digest : List Byte
  deriving DecidableEq, Repr

def parseSection (img : List Byte) (i : Nat) : Section :=
  let e := img.drop (0x100 + 64 * i)
  { ty := leNat e 0 2, nrec := leNat e 4 4, ofs := leNat e 8 8, len := leNat e 16 8, digest := (e.drop 24).take 32 }

/-- A record header's target, or the error it raises (R322, R323): its first target byte. -/
def recordKey (h : List Byte) : Except Nat Nat :=
  let tk := leNat h 0 1
  let tab := leNat h 2 2
  let len := leNat h 4 4
  let tgt := leNat h 8 8
  if leNat h 1 1 ≠ 0 ∨ 3 < tk ∨ (tk ≠ 2 ∧ tab ≠ 0) ∨ len = 0 ∨ len % 8 ≠ 0 then .error 1
  else if tk = 0 ∧ (2 ^ 48 ≤ tgt ∨ (addrCore tgt ≠ 0 ∧ (addrSpace tgt = 1 ∨ (addrSpace tgt = 3 ∧ 0x20000000 ≤ tgt % 2 ^ 30)))) then .error 1
  else if tk = 1 ∧ ¬ (tgt / 2 ^ 44 = 0 ∧ tgt / 2 ^ 24 % 2 ^ 15 = 0) then .error 1
  else .ok (vkey tk tab tgt)

/-- Read one section's records over the bytes read so far; an error carries its code and record. -/
def parseRecords (sec st : Nat) : Nat → Nat → List Byte → List RawByte → Except (Nat × Nat) (List RawByte)
  | 0, _, _, raw => .ok raw
  | fuel + 1, rcd, bs, raw =>
    if bs.length < 16 then .error (1, rcd)
    else
      match recordKey bs with
      | .error c => .error (c, rcd)
      | .ok k =>
        let len := leNat bs 4 4
        if bs.length < 16 + len then .error (1, rcd)
        else
          let data := (bs.drop 16).take len
          if (List.range len).any fun i => !targetOk st (k + i) then .error (6, rcd)
          else if (List.range len).any fun i => raw.any fun b => decide (b.at_ = k + i) && decide (b.sec ≠ 0xFFFE) then .error (1, rcd)
          else parseRecords sec st fuel (rcd + 1) (bs.drop (16 + len))
            (raw ++ data.zipIdx.map fun d => ⟨k + d.2, d.1, sec, rcd⟩)

/-- All sections in directory order; the code, section and record of the first error. -/
def parseSections (img : List Byte) : List (Section × Nat) → List RawByte → Except (Nat × Nat × Nat) (List RawByte)
  | [], raw => .ok raw
  | (e, i) :: es, raw =>
    match parseRecords i e.ty e.nrec 0 ((img.drop e.ofs).take e.len) raw with
    | .error x => .error (x.1, i, x.2)
    | .ok raw => parseSections img es raw

/-! ## Reading a harness -/

/-- A byte of a table, or of any target no record has written: 0. -/
def Harness.byte (h : Harness) (k : Nat) : Nat := ((h.rawAt k).map fun b => b.val.toNat).getD 0

def Harness.table (h : Harness) (t o n : Nat) : Nat :=
  (List.range n).foldl (fun a i => a + h.byte (vkey 2 t (o + i)) * 256 ^ i) 0

/-- Reset image of a register instance. -/
def regReset (r : Reg) (ix : Ix) : Nat := (Reg.fields r).foldl (fun a f => a + resetOf r f.lo ix * 2 ^ f.lo) 0

/-- Bits of a register instance in the harness: written bytes over the reset value. -/
def Harness.regVal (h : Harness) (r : Reg) (ix : Ix) : Nat :=
  let k := regKey r ix
  let v := regReset r ix
  (List.range (((Reg.place r).bits + 7) / 8)).foldl (fun a i =>
    a + (match h.rawAt (k + i) with
      | some b => b.val.toNat
      | none => bitsOf v (8 * i) 8) * 256 ^ i) 0

/-- A field of the harness, virtual coordinates. -/
def Harness.get (h : Harness) (f : Fld) (ix : Ix) : Nat := bitsOf (h.regVal f.reg ix) f.lo f.width

/-- Register instances that some record wrote, each once. -/
def Harness.regs (h : Harness) : List (Reg × Ix) :=
  (h.raw.filterMap fun b => (regAt b.at_).bind fun x => if Reg.hasRwh x.1 then some (x.1, x.2.1) else none).eraseDups

/-- Physical cluster of a virtual one (R333). -/
def Harness.clu (h : Harness) (vd vcl : Nat) : Option CluId :=
  let e := h.table 1 (4 * (vd * 128 + vcl)) 4
  if e.testBit 12 ∧ vd < h.vdies then cluAt? (e % 32) (e / 32 % 128) else none

/-- Bound virtual clusters. -/
def Harness.bindings (h : Harness) : List ((Nat × Nat) × CluId) :=
  ((h.raw.filterMap fun b => if vkTk b.at_ = 2 ∧ vkTable b.at_ = 1 then some (vkTgt b.at_ / 4) else none).eraseDups).filterMap fun i =>
    (h.clu (i / 128) (i % 128)).map fun c => ((i / 128, i % 128), c)

/-- Physical die of a virtual one. -/
def Harness.die (h : Harness) (vd : Nat) : Option DieIx := (h.bindings.find? fun b => decide (b.1.1 = vd)).map fun b => b.2.die

/-- Physical instance of a register in virtual coordinates. -/
def Harness.phys (h : Harness) (r : Reg) (ix : Ix) : Option Ix :=
  match (Reg.place r).cls with
  | .srv => some { ix with n := h.part, m := ix.m }
  | .stw => (h.die ix.die).map fun d => { ix with die := d }
  | _ => (h.clu ix.die ix.clu).map fun c => { ix with die := c.die, clu := c.clu }

/-! ## Clamps of one register (R328, Table 10.6) -/

/-- Clamps of a register while they are made: its value, and for each field changed its low bit, width, value as written,
value loaded and reason. -/
structure Cl where
  v : Nat
  out : List (Nat × Nat × Nat × Nat × Nat) := []

def Cl.get (c : Cl) (lo w : Nat) : Nat := bitsOf c.v lo w

def Cl.put (c : Cl) (lo w new reason : Nat) : Cl :=
  let v := putBits c.v lo w new
  match c.out.find? fun o => decide (o.1 = lo) && decide (o.2.1 = w) with
  | some o => { v := v, out := c.out.map fun x => if x.1 = lo ∧ x.2.1 = w then (lo, w, o.2.2.1, new, reason) else x }
  | none => { v := v, out := c.out ++ [(lo, w, c.get lo w, new, reason)] }

def Cl.range (c : Cl) (lo w a b reason : Nat) : Cl :=
  let x := c.get lo w
  if x < a then c.put lo w a reason else if b < x then c.put lo w b reason else c

def Cl.align (c : Cl) (lo w n : Nat) : Cl :=
  let x := c.get lo w
  if x % n ≠ 0 then c.put lo w (x - x % n) 3 else c

/-- A field outside its enumeration takes a value. -/
def Cl.enum (c : Cl) (lo w : Nat) (ok : List Nat) (dflt : Nat) : Cl :=
  if ok.contains (c.get lo w) then c else c.put lo w dflt 4

def Cl.when (c : Cl) (b : Bool) (f : Cl → Cl) : Cl := if b then f c else c

/-- Reserved runs of a register of n bits: the gaps between its fields and the fields a harness does not set. -/
def reservedRuns (fs : List FieldSpec) (n : Nat) : List (Nat × Nat) :=
  let rec gaps : Nat → List FieldSpec → List (Nat × Nat)
    | at_, [] => if at_ < n then [(at_, n - at_)] else []
    | at_, f :: t => (if at_ < f.lo then [(at_, f.lo - at_)] else []) ++ (if f.ty = .rwh then [] else [(f.lo, f.width)]) ++ gaps (f.lo + f.width) t
  gaps 0 fs

/-- A run of bits cut at the boundaries of 64-bit words: a report entry holds a field of one word (Table 10.7). -/
def wordRuns (r : Nat × Nat) : List (Nat × Nat) :=
  if r.1 / 64 = (r.1 + r.2 - 1) / 64 then [r]
  else (List.range ((r.1 + r.2 - 1) / 64 - r.1 / 64 + 1)).map fun i =>
    let lo := max r.1 (64 * (r.1 / 64 + i))
    (lo, min (r.1 + r.2) (64 * (r.1 / 64 + i + 1)) - lo)

/-- Reserved and read-only bits that are not 0 are cleared. -/
def Cl.reserved (c : Cl) (runs : List (Nat × Nat)) : Cl :=
  (runs.flatMap wordRuns).foldl (fun c r => if c.get r.1 r.2 = 0 then c else c.put r.1 r.2 0 2) c

/-- Reserved runs of a descriptor by its KIND (Tables 06.19-06.21). -/
def descRuns : Nat → List (Nat × Nat)
  | 1 => [(11, 1), (87, 1), (176, 80)]
  | 2 => [(49, 207)]
  | 3 => [(11, 5), (48, 208)]
  | _ => [(4, 252)]

/-- Module ID of a descriptor or window without a module table entry: the flag that uses it is cleared. -/
def Cl.module (c : Cl) (h : Harness) (flag id : Nat) : Cl :=
  if c.get flag 1 = 1 ∧ (h.moduleId (c.get id 16)).isNone then c.put flag 1 0 8 else c

/-- A descriptor (Tables 06.18 to 06.21): a KIND that has no meaning reads as none. -/
def clampDesc (h : Harness) (c : Cl) : Cl :=
  let c := c.enum 0 4 [0, 1, 2, 3] 0
  let kind := c.get 0 4
  let c := c.reserved (descRuns kind)
  if kind = 1 then
    let c := (c.module h 70 71).when (decide (c.get 4 1 = 1) && decide (c.get 70 1 = 1)) fun c => c.put 4 1 0 9
    let c := c.when (decide (c.get 9 2 = 3)) fun c => c.put 9 2 0 4
    let c := (c.align 12 40 32).enum 52 4 [0, 1, 2, 4] 0
    let c := (c.align 88 40 32).align 128 24 32
    let c := c.when (decide (c.get 128 24 = 0)) fun c => c.put 128 24 32 1
    let c := c.when (decide (c.get 156 2 = 3)) fun c => c.put 156 2 0 4
    let c := c.when (decide (c.get 156 2 = 2) && decide (c.get 128 24 < 64)) fun c => c.put 128 24 64 9
    let c := c.when (decide (c.get 167 8 = 0)) fun c => c.put 167 8 1 1
    c.when (decide (c.get 4 1 = 1) && decide (c.get 52 4 = 2) && decide (c.get 9 2 ≠ 2)) fun c => c.put 4 1 0 9
  else if kind = 2 then
    let c := (c.module h 32 33).when (decide (c.get 4 1 = 1) && decide (c.get 32 1 = 1)) fun c => c.put 4 1 0 9
    c.when (decide (c.get 24 8 = 0)) fun c => c.put 24 8 1 1
  else c

/-- Window entry (Table 08.8): spaces its table serves. -/
def clampWin (h : Harness) (ok : List Nat) (c : Cl) : Cl :=
  let sp := c.get 2 4
  let c := c.when (!ok.contains sp && decide (c.get 0 1 = 1)) fun c => c.put 0 1 0 9
  let c := c.module h 12 13
  let c := (c.align 32 39 32).align 71 40 32
  c.when (ok.contains sp) fun c => c.range 71 40 0 (spaceSize sp - c.get 32 39) 9

/-- The unit is reported failed by the floor plan (Table 16.7). -/
def State.unitFailed (s : State) (c : CluId) (u : Nat) : Bool := (s.get F.nirFpClu.sbuf (Ix.mod c.die c.clu)).testBit u

/-- Shared-buffer modes (R269, R286). -/
def clampSbuf (s : State) (h : Harness) (ix : Ix) (c : Cl) : Cl :=
  let failed : Nat → Bool := fun u => match h.clu ix.die ix.clu with
    | some k => s.unitFailed k u
    | none => false
  let c := (List.range 8).foldl (fun c u =>
    let m := c.get (2 * u) 2
    if m = 3 then c.put (2 * u) 2 0 4
    else if m = 2 ∧ h.opkey = false ∧ failed u = false then c.put (2 * u) 2 0 5 else c) c
  let cache := (List.range 8).filter fun u => decide (c.get (2 * u) 2 = 1)
  let n := cache.length
  let keep := if 4 ≤ n then 4 else if n = 3 then 2 else n
  (cache.drop keep).reverse.foldl (fun c u => c.put (2 * u) 2 0 6) c

/-- A tensor scale must be positive, normal and finite (R135). -/
def tscaleOk (v : Nat) : Bool := decide (v < 2 ^ 31) && decide (v / 2 ^ 23 ≠ 0) && decide (v / 2 ^ 23 ≠ 255)

/-- Lines of a role's block in the harness. -/
def Harness.kvLines (h : Harness) (ix : Ix) : Nat :=
  ((if h.get F.coreKvfRoleCfg0.kvfmt ix = 1 then 132 else 68) * 32 * (h.get F.coreKvfRoleCfg0.g_m1 ix + 1) + 255) / 256

/-- Size limit of a task space (R178). -/
def taskSpace (k : Nat) : Nat := if k = 3 then 0x80000 else spaceSize k

/-- Hops of a route, with whether each is a bridge hop, as far as the route stays on the grid. -/
def hopKinds : Option CluId → List Nat → List Bool
  | _, [] => []
  | at_, hop :: hs =>
    let next := at_.bind fun c => cluNext c (hop % 4)
    (match at_, next with
      | some c, some e => decide (e.die ≠ c.die)
      | _, _ => false) :: hopKinds next hs

/-- A route entry (Table 09.3): NHOP, reserved bits, and LANE 0 for a near hop and for a bridge hop. -/
def clampRoute (at_ : Option CluId) (c : Cl) : Cl :=
  let c := c.range 1 6 0 38 1
  let bridge := hopKinds at_ ((List.range (c.get 1 6)).map fun k => c.get (28 + 6 * k) 6)
  (List.range 38).foldl (fun c k =>
    let c := c.when (decide (c.get (33 + 6 * k) 1 ≠ 0)) fun c => c.put (33 + 6 * k) 1 0 2
    c.when ((decide (c.get (30 + 6 * k) 1 = 1) || bridge.getD k false) && decide (c.get (31 + 6 * k) 2 ≠ 0)) fun c => c.put (31 + 6 * k) 2 0 9) c

/-- Clamps of one register's own rules. -/
def clampReg (s : State) (h : Harness) (r : Reg) (ix : Ix) (c : Cl) : Cl :=
  match r with
  | .coreCalCfg => (c.range 0 13 256 4096 1).range 16 3 1 4 1
  | .coreCalSlot => c.when (decide (c.get 0 16 ≠ 0)) fun c => c.range 16 16 0 (c.get 0 16 - 1) 9
  | .coreCredCfg => c.range 16 7 0 64 1
  | .coreCredTab => c.range 0 15 0 16384 1
  | .coreSeqBase =>
    let c := if ix.n = 0 ∨ ix.n = 1 then c.align 0 39 256 else if ix.n = 3 then c.align 0 39 32 else c
    c.range 0 39 0 (taskSpace ix.n) 1
  | .coreSeqBound => c.range 0 40 0 (taskSpace ix.n - h.get F.coreSeqBase.base ix) 9
  | .coreDesc => clampDesc h c
  | .coreWin => clampWin h [0, 4] c
  | .cluWin => clampWin h [1] c
  | .stkWin => clampWin h [2] c
  | .cluRtrRoute => clampRoute (h.clu ix.die ix.clu) c
  | .cluSbufCfg => clampSbuf s h ix c
  | .cluSbufScrub => c.range 0 8 1 255 1
  | .coreSpadCfg => c.range 0 8 1 255 1
  | .stkCfg => c.when (!h.opkey && decide (c.get 0 4 ≠ 15)) fun c => c.put 0 4 15 5
  | .vecCfgTscale => c.when (!tscaleOk (c.get 0 32)) fun c => c.put 0 32 0x3F800000 7
  | .coreKvfRoleCfg0 => c.range 7 6 0 (c.get 1 6) 9
  | .coreKvfRoleCfg1 =>
    let c := c.range 56 7 0 (h.get F.coreKvfRoleCfg0.nslot ix) 9
    c.range 32 16 0 ((2 ^ 35 - 256 * c.get 0 31) / (256 * h.kvLines ix)) 9
  | .coreKvfRoleHome => c.range 1 11 0 ((if c.get 0 1 = 1 then 2048 else 1024) - h.kvLines { ix with m := 0 }) 9
  | .coreWptrDigSlot =>
    let c := c.when (decide (c.get 0 30 ≠ 0)) fun c => c.range 0 30 56 (2 ^ 30 - 1) 1
    c.when (decide (c.get 0 30 ≠ 0)) fun c => c.range 30 30 0 (c.get 0 30 - 1) 9
  | .stwShardRef => c.align 0 39 256
  | .srvFrameCfg0 =>
    let c := ((c.range 16 11 1 1024 1).enum 27 4 [4, 8] 8).range 31 8 1 255 1
    c.range 0 16 (min 65535 (c.get 16 11 * c.get 27 4)) 65535 9
  | .srvFrameCfg1 => (c.range 16 16 0 (c.get 0 16 - 1) 9).range 32 16 64 65535 1
  | .srvFrameUsable =>
    let keep := 2 ^ min 64 (h.get F.srvFrameCfg0.nent {} - 64 * ix.m)
    c.when (decide (keep ≤ c.get 0 64)) fun c => c.put 0 64 (c.get 0 64 % keep) 9
  | .srvFrameDig =>
    let c := c.when (decide (c.get 0 24 ≠ 0)) fun c => c.range 24 24 0 (c.get 0 24 - 1) 9
    c.range 48 10 0 (h.get F.srvFrameCfg0.nent {} - 7) 9
  | .srvCls =>
    let s1 := h.get F.srvFrameCfg0.s1_st {}
    let e := max 1 (h.get F.srvFrameCfg0.ent_st {})
    let v := max (c.get 14 16) s1
    let v := min (s1 + (v - s1 + e - 1) / e * e) 65535
    c.when (decide (v ≠ c.get 14 16)) fun c => c.put 14 16 v 9
  | .smpCfg => (c.align 0 39 256).range 0 39 0 (2 ^ 35 - 4096 * 8704) 1
  | _ => c

/-- Registers whose clamps read others of the same unit come after them. -/
def lateReg : Reg → Bool
  | .coreSeqBound => true
  | .coreKvfRoleCfg1 => true
  | .coreKvfRoleHome => true
  | .srvFrameUsable => true
  | .srvFrameDig => true
  | .srvCls => true
  | _ => false

/-! ## The clamp report (R329, Table 10.7) -/

/-- First target byte of the record that holds a byte. -/
def Harness.recStart (h : Harness) (b : RawByte) : Nat :=
  (h.raw.filter fun x => decide (x.sec = b.sec) && decide (x.rcd = b.rcd) && decide (x.at_ / 2 ^ 64 = b.at_ / 2 ^ 64)).foldl
    (fun m x => min m x.at_) b.at_

/-- Report entry of a field at bit `lo` of the bytes from target k: by the record that wrote it, or as a field no record of
the image wrote. -/
def Harness.clampEntry (h : Harness) (k lo w orig new reason : Nat) : ClampEntry :=
  let by_ := match h.rawAt (k + lo / 8) with
    | some b => some b
    | none => h.raw.find? fun b => decide (k ≤ b.at_) && decide (b.at_ < k + (lo + w + 7) / 8) && decide (b.sec ≠ 0xFFFE)
  match by_ with
  | some b =>
    if b.sec = 0xFFFE then
      let t := k + lo / 64 * 8
      { sec := 0xFFFE, reason := reason, rcd := vkTgt t % 2 ^ 32, word := vkTgt t / 2 ^ 32, lsb := lo % 64, width := min w 64
        tsrc := vkTk t + vkTable t * 256, orig := orig, new := new, pos := 8 * t + lo % 64 }
    else
      let bit := 8 * (k - h.recStart b) + lo
      { sec := b.sec, reason := reason, rcd := b.rcd, word := bit / 64 * 8, lsb := bit % 64, width := min w 64, tsrc := 0
        orig := orig, new := new, pos := bit }
  | none =>
    let t := k + lo / 64 * 8
    { sec := 0xFFFE, reason := reason, rcd := vkTgt t % 2 ^ 32, word := vkTgt t / 2 ^ 32, lsb := lo % 64, width := min w 64
      tsrc := vkTk t + vkTable t * 256, orig := orig, new := new, pos := 8 * t + lo % 64 }

/-- Write a clamped value back into the harness's bytes. -/
def Harness.putVal (h : Harness) (k n v : Nat) : Harness :=
  { h with raw := (List.range n).foldl (fun raw i =>
      let b := BitVec.ofNat 8 (bitsOf v (8 * i) 8)
      if raw.any fun x => decide (x.at_ = k + i) then raw.map fun x => if x.at_ = k + i then { x with val := b } else x
      else raw) h.raw }

/-- Add bytes for a register no record wrote. -/
def Harness.addVal (h : Harness) (k n v : Nat) : Harness :=
  { h with raw := h.raw ++ (List.range n).filterMap fun i =>
      if h.raw.any fun x => decide (x.at_ = k + i) then none else some ⟨k + i, BitVec.ofNat 8 (bitsOf v (8 * i) 8), 0xFFFE, 0⟩ }

/-- Clamp one register instance: the harness with the clamped value, and the entries. -/
def clampOne (s : State) (r : Reg) (ix : Ix) (h : Harness) : Harness :=
  let k := regKey r ix
  let c := clampReg s h r ix (({ v := h.regVal r ix } : Cl).reserved (if r = .coreDesc then [] else reservedRuns (Reg.fields r) (Reg.place r).bits))
  let es := c.out.map fun o => h.clampEntry k o.1 o.2.1 o.2.2.1 o.2.2.2.1 o.2.2.2.2
  { (h.putVal k (((Reg.place r).bits + 7) / 8) c.v) with clamps := h.clamps ++ es }

/-- What records wrote of a register instance, 0 elsewhere. -/
def Harness.written (h : Harness) (r : Reg) (ix : Ix) : Nat :=
  (List.range (((Reg.place r).bits + 7) / 8)).foldl (fun a i => a + h.byte (regKey r ix + i) * 256 ^ i) 0

/-- A byte that records may write beside settable registers and that belongs to no register. -/
def padByte (k : Nat) : Bool :=
  let t := vkTgt k
  decide (vkTk k ≠ 2) && (regAt k).isNone && !(decide (vkTk k = 0) && (decide (addrSpace t < 2) || (decide (0xC8000 ≤ t % 2 ^ 30) && decide (t % 2 ^ 30 < 0xD0000))))

/-- Runs of such bytes that records wrote in the 64-bit word at a target: first bit and width. -/
def Harness.padRuns (h : Harness) (k : Nat) : List (Nat × Nat) :=
  (List.range 8).foldr (fun i rs =>
    if !(padByte (k + i) && (h.rawAt (k + i)).isSome) then rs
    else match rs with
      | (lo, n) :: t => if lo = 8 * i + 8 then (8 * i, n + 8) :: t else (8 * i, 8) :: rs
      | [] => [(8 * i, 8)]) []

/-- Clear the runs that are not 0 of n bytes at a target, one report entry a run. -/
def Harness.clearRuns (h : Harness) (k n v : Nat) (runs : List (Nat × Nat)) : Harness :=
  let c := ({ v := v } : Cl).reserved runs
  { (h.putVal k n c.v) with clamps := h.clamps ++ c.out.map fun o => h.clampEntry k o.1 o.2.1 o.2.2.1 o.2.2.2.1 o.2.2.2.2 }

/-- Beside settable registers: registers without a settable field, and bytes of no register, are 0. -/
def clampPads (h : Harness) : Harness :=
  let rs := (h.raw.filterMap fun b => (regAt b.at_).bind fun x => if Reg.hasRwh x.1 then none else some (x.1, x.2.1)).eraseDups
  let ks := (h.raw.filterMap fun b => if padByte b.at_ then some (b.at_ / 8 * 8) else none).eraseDups
  let h := rs.foldl (fun h r =>
    h.clearRuns (regKey r.1 r.2) (((Reg.place r.1).bits + 7) / 8) (h.written r.1 r.2) (reservedRuns (Reg.fields r.1) (Reg.place r.1).bits)) h
  ks.foldl (fun h k => h.clearRuns k 8 ((List.range 8).foldl (fun a i => a + h.byte (k + i) * 256 ^ i) 0) (h.padRuns k)) h

/-- Entries of the tack map and the launch plan: reserved bits, LOFS up to 2 (R333, R343). -/
def clampTables (h : Harness) : Harness :=
  let es := (h.raw.filterMap fun b =>
    if vkTk b.at_ = 2 ∧ (vkTable b.at_ = 1 ∨ vkTable b.at_ = 4) then some (vkTable b.at_, vkTgt b.at_ / 4) else none).eraseDups
  es.foldl (fun h e =>
    let k := vkey 2 e.1 (4 * e.2)
    let v := h.table e.1 (4 * e.2) 4
    let c : Cl := { v := v }
    let c := if e.1 = 1 then c.reserved [(13, 19)] else (c.range 0 16 2 65535 1).reserved [(17, 15)]
    { (h.putVal k 4 c.v) with clamps := h.clamps ++ c.out.map fun o => h.clampEntry k o.1 o.2.1 o.2.2.1 o.2.2.2.1 o.2.2.2.2 }) h

/-- Failed units whose MODE bits no record wrote are OFF, without a clamp (R286). -/
def failedUnits (s : State) (h : Harness) : Harness :=
  h.bindings.foldl (fun h b =>
    let bad := (List.range 8).filter fun u => s.unitFailed b.2 u
    let ix : Ix := ⟨b.1.1, b.1.2, 0, 0, 0⟩
    let k := regKey .cluSbufCfg ix
    let unwritten := bad.filter fun u => (h.rawAt (k + u / 4)).isNone
    if unwritten.isEmpty then h
    else h.addVal k 2 (unwritten.foldl (fun v u => putBits v (2 * u) 2 2) (h.regVal .cluSbufCfg ix))) h

/-- Order of the report: sections in directory order, header fields, fields no record wrote (by target); within a section by
record, then by position (R329).  [DEDUCED, log 120] -/
def ClampEntry.before (a b : ClampEntry) : Bool :=
  let cls := fun (e : ClampEntry) => if e.sec = 0xFFFE then 0x10000 else e.sec
  let rcd := fun (e : ClampEntry) => if e.sec = 0xFFFE then 0 else e.rcd
  decide (cls a < cls b) || (decide (cls a = cls b) && (decide (rcd a < rcd b) || (decide (rcd a = rcd b) && decide (a.pos < b.pos))))

def insertClamp (e : ClampEntry) : List ClampEntry → List ClampEntry
  | [] => [e]
  | x :: xs => if e.before x then e :: x :: xs else x :: insertClamp e xs

/-- Largest LOFS of the launch plan. -/
def Harness.maxLofs (h : Harness) : Nat :=
  ((h.raw.filterMap fun b => if vkTk b.at_ = 2 ∧ vkTable b.at_ = 4 then some (vkTgt b.at_ / 4) else none).eraseDups).foldl
    (fun m i => max m (h.table 4 (4 * i) 2)) 0

/-- The header fields DRAIN_ST and RESUME_ST (R342). -/
def clampHeader (h : Harness) : Harness :=
  let e := fun (word lsb orig new : Nat) => (⟨0xFFFF, if word = 0x28 then 1 else 9, 0, word, lsb, 32, 0, orig, new, 8 * word + lsb⟩ : ClampEntry)
  let h := if h.drain < 64 then { h with clamps := h.clamps ++ [e 0x28 32 h.drain 64], drain := 64 } else h
  let m := h.maxLofs
  if h.resume < m then { h with clamps := h.clamps ++ [e 0x30 0 h.resume m], resume := m } else h

/-- Products Tp = rne(T_a × T_w) that the loader forms of clamped tensor scales (R135). -/
def formProducts (rs : List (Reg × Ix)) (h : Harness) : Harness :=
  (rs.filter fun r => decide (r.1 = .vecCfgTscale)).foldl (fun g r =>
    match Config.scaleProduct h.hid ((r.2.die * 128 + r.2.clu) * 4 + r.2.core) r.2.n with
    | none => g
    | some (a, w) =>
      let t := fun (i : Nat) => BitVec.ofNat 32 (h.regVal .vecCfgTscale { r.2 with n := i })
      g.putVal (regKey .vecCfgTscale r.2) 4 (f32Mul (t a) (t w)).toNat) h

/-- Stage 5's clamps on a harness whose records have been read. -/
def clampAll (s : State) (h : Harness) : Harness :=
  let h := clampTables (clampPads h)
  let rs := h.regs
  let h := (rs.filter fun r => !lateReg r.1).foldl (fun h r => clampOne s r.1 r.2 h) h
  let h := if rs.any fun r => decide (r.1 = .srvFrameCfg0) then h
    else
      let h := h.addVal (regKey .srvFrameCfg0 {}) 8 (regReset .srvFrameCfg0 {})
      clampOne s .srvFrameCfg0 {} h
  let h := (rs.filter fun r => lateReg r.1).foldl (fun h r => clampOne s r.1 r.2 h) h
  let h := clampHeader (failedUnits s (formProducts rs h))
  { h with clamps := h.clamps.foldl (fun l e => insertClamp e l) [] }

end Sys2Proof.Machine
end

