-- ==== Sys2Proof/Machine/Load.lean ====
section
/-!
DEFINITION. Loading a shadow harness (R326-R336, R345-R347, R390, R393) and key records (R325).
-/

namespace Sys2Proof.Machine
open Sys2Proof

/-! ## Shadow states and codes (Tables 10.8, 10.9) -/

/-- Shadow states (R337). -/
def shEmpty : Nat := 0
def shLoading : Nat := 1
def shReady : Nat := 2
def shRefused : Nat := 3
def shCommitted : Nat := 4

/-- Show a partition's shadow in HRN.STAT and HRN.SHADOW_ID. -/
def State.showShadow (s : State) (p st : Nat) : State :=
  let h := if st = shReady ∨ st = shCommitted then Map.find s.shadowHrn p else none
  let b := fun (f : Harness → Bool) => boolNat (h.any f)
  s.sets (Ix.mod p) [(F.hrnStat.shadow, st), (F.hrnStat.shadow_strict, b fun h => h.strict), (F.hrnStat.needs_pause, b fun h => h.needsPause),
    (F.hrnStat.shadow_patch, b fun h => h.patch), (F.hrnShadowId.id, (h.map fun h => h.hid).getD 0)]

/-- What a load ends with: code of Table 10.8, section, record, and the harness. -/
structure LoadResult where
  code : Nat
  sec : Nat := 0
  rcd : Nat := 0
  h : Option Harness := none

/-! ## Stages 1 to 4 -/

/-- The image area lies in the stacks of a die of the partition, in one window that admits class 4 or 5 (R326). -/
def State.imageArea (s : State) (p addr len : Nat) : Bool :=
  decide (addrSpace addr = 2) && (s.diesOf p).contains (addrDie addr) && decide (addrOfs addr + len ≤ spaceSize 2) && decide (0 < len) &&
    (List.range 16).any fun i =>
      let w := s.window .stkWin (Ix.stw (addrDie addr) i)
      w.open_ && decide (w.space = 2) && (w.srcMask.testBit 4 || w.srcMask.testBit 5) && decide (w.base ≤ addrOfs addr) &&
        decide (addrOfs addr + len ≤ w.base + w.size)

/-- MAGIC of an image (Table 10.1). -/
def headerMagic : List Byte := [0x54#8, 0x4C#8, 0x57#8, 0x48#8, 0x52#8, 0x4E#8, 0x30#8, 0x31#8]

/-- Header fields within their ranges (R321, Table 10.1). -/
def headerOk (img : List Byte) : Bool :=
  let n := img.length
  let nsect := leNat img 0x0C 2
  decide (img.take 8 = headerMagic) && decide (leNat img 8 2 = 1) && decide (leNat img 0x0A 2 < 8) && decide (1 ≤ nsect) && decide (nsect ≤ 4095) &&
    decide (leNat img 0x0E 1 < 8) && decide (leNat img 0x10 8 = n) && decide (n ≤ 2 ^ 32) && decide (leNat img 0x18 8 ≠ 0) &&
    decide ((leNat img 0x0A 2).testBit 1 = true ∨ leNat img 0x20 8 = 0) && decide (1 ≤ leNat img 0x28 1) && decide (leNat img 0x28 1 ≤ 24) &&
    decide (leNat img 0x29 3 = 0) && ((img.drop 0x34).take 204).all (fun b => decide (b = 0#8)) && decide (0x100 + 64 * nsect + 128 ≤ n)

/-- A section's place is wrong: unknown type, start not on 256 B, outside the body, or over an earlier section. -/
def sectionBad (dend tend : Nat) (before : List Section) (e : Section) : Bool :=
  !knownSection e.ty || decide (e.ofs % 256 ≠ 0) || decide (e.ofs < dend) || decide (tend < e.ofs + e.len) ||
    before.any fun b => decide (b.ofs < e.ofs + e.len) && decide (e.ofs < b.ofs + b.len) && decide (0 < b.len) && decide (0 < e.len)

def firstBad (dend tend : Nat) : List Section → List Section → Nat → Option Nat
  | _, [], _ => none
  | before, e :: es, i => if sectionBad dend tend before e then some i else firstBad dend tend (before ++ [e]) es (i + 1)

/-- A section whose digest does not match (R324). -/
def digestBad (img : List Byte) : List Section → Nat → Option Nat
  | [], _ => none
  | e :: es, i => if sha256 ((img.drop e.ofs).take e.len) = e.digest then digestBad img es (i + 1) else some i

/-- Area of a die at an offset. -/
def State.area (s : State) (d ofs : Nat) : Option ShardArea := s.areas.find? fun a => decide (a.die = d) && decide (a.ofs = ofs)

/-- Digest of a virtual die's shard in the harness. -/
def Harness.shardDigest (h : Harness) (vd : Nat) : List Byte :=
  (List.range 4).flatMap fun j => natToBytes 8 (h.get F.stwShardRefDigest.dig (Ix.stw vd j))

/-- A shard reference whose area is not VERIFIED with the digest of the record (R390): the section that names it. -/
def State.shardBad (s : State) (h : Harness) : Option Nat :=
  (h.raw.find? fun b =>
    match regAt b.at_ with
    | some (.stwShardRef, ix, _) =>
      match (h.die ix.die).bind fun d => s.area d.val (h.get F.stwShardRef.shofs (Ix.stw ix.die)) with
      | some a => decide (a.state ≠ 3) || decide (a.digest ≠ h.shardDigest ix.die)
      | none => true
    | _ => false).map fun b => b.sec

/-! ## Stage 4: patches (R345, R346) -/

/-- The bytes of the active harness that a patch starts from: whole tables are replaced by a section of their own.  [DEDUCED, log 121] -/
def patchBase (a : Harness) (secs : List Section) : List RawByte :=
  (a.raw.filter fun b => !(decide (vkTk b.at_ = 2) && ((decide (vkTable b.at_ = 1) && secs.any fun e => decide (e.ty = 1)) ||
    (decide (vkTable b.at_ = 4) && secs.any fun e => decide (e.ty = 4))))).map fun b => { b with sec := 0xFFFE, rcd := 0 }

/-- Lay a patch's bytes over a base; the later byte of a target stands. -/
def overlay (base raw : List RawByte) : List RawByte :=
  (base.filter fun b => !(raw.any fun x => decide (x.at_ = b.at_))) ++ raw

/-- Fields only an operator key may set keep the active harness's values in a tenant-signed patch (R346); the modes of failed units are no such
fields (R286). -/
def keepReserved (s : State) (a : Harness) (h : Harness) : Harness :=
  h.regs.foldl (fun h r =>
    match r.1 with
    | .cluSbufCfg =>
      let old := a.regVal r.1 r.2
      let v := (List.range 8).foldl (fun v u =>
        if (h.clu r.2.die r.2.clu).any fun c => s.unitFailed c u then v
        else if bitsOf v (2 * u) 2 = 2 ∨ bitsOf old (2 * u) 2 = 2 then putBits v (2 * u) 2 (bitsOf old (2 * u) 2) else v) (h.regVal r.1 r.2)
      h.putVal (regKey r.1 r.2) 2 v
    | .stkCfg => h.putVal (regKey r.1 r.2) 1 (putBits (h.regVal r.1 r.2) 0 4 (bitsOf (a.regVal r.1 r.2) 0 4))
    | _ => h) h

/-! ## Stage 6: tack map and spares (R334, R336) -/

/-- Region code of the floor plan: OFF to DEAD, 8 unpowerable. -/
def State.fpRegion (s : State) (c : CluId) : Nat := s.get F.nirFpClu.region (Ix.mod c.die c.clu)

/-- The floor plan reports the cluster dark, dead or unpowerable. -/
def State.fpBad (s : State) (c : CluId) : Bool :=
  decide (s.get F.nirFpDie.state (Ix.mod c.die) ≠ 1) || decide (s.fpRegion c = rDead) || decide (s.fpRegion c = 8)

/-- Powerable, with no mapped-out core. -/
def State.spareOk (s : State) (c : CluId) : Bool := !s.fpBad c && decide (s.get F.nirFpClu.flags (Ix.mod c.die c.clu) % 16 = 0)

/-- A target of a section other than the tack map names an unbound virtual cluster or die. -/
def unboundTarget (h : Harness) (k : Nat) : Bool :=
  match vkTk k with
  | 0 => (h.clu (addrDie (vkTgt k)) (addrClu (vkTgt k))).isNone
  | 1 => (h.die (vkTgt k / 2 ^ 39)).isNone
  | _ => false

/-- A bound entry that names a die the module cannot have. -/
def Harness.offGrid (h : Harness) : Option RawByte :=
  h.raw.find? fun b => decide (vkTk b.at_ = 2) && decide (vkTable b.at_ = 1) &&
    (let i := vkTgt b.at_ / 4
     let e := h.table 1 (4 * i) 4
     e.testBit 12 && decide (i / 128 < h.vdies) && (cluAt? (e % 32) (e / 32 % 128)).isNone)

/-- Stage 6 of a load (Table 10.5).  [DEDUCED, log 122] -/
def stage6 (s : State) (h : Harness) : LoadResult :=
  let bs := h.bindings
  let org := match h.raw.find? fun b => decide (vkTk b.at_ = 2) && decide (vkTable b.at_ = 1) with
    | some b => (b.sec, b.rcd)
    | none => (0, 0)
  match h.offGrid with
  | some b => { code := 0x07, sec := b.sec, rcd := b.rcd }
  | none =>
  let bad := (bs.zipIdx.find? fun q =>
    let b := q.1
    !((s.diesOf h.part).contains b.2.die.val) || s.fpBad b.2 ||
      (bs.take q.2).any fun x => (decide (x.1 ≠ b.1) && decide (x.2 = b.2)) || (decide (x.1.1 = b.1.1) && decide (x.2.die ≠ b.2.die)) ||
        (decide (x.1.1 ≠ b.1.1) && decide (x.2.die = b.2.die))).map fun q => q.1
  match bad with
  | some b =>
    let o := match h.rawAt (vkey 2 1 (4 * (b.1.1 * 128 + b.1.2))) with
      | some x => (x.sec, x.rcd)
      | none => org
    { code := 0x07, sec := o.1, rcd := o.2 }
  | none =>
    match h.raw.find? fun b => unboundTarget h b.at_ with
    | some b => { code := 0x07, sec := b.sec, rcd := b.rcd }
    | none =>
      let lit := (s.diesOf h.part).filter fun d => decide (s.get F.nirFpDie.state (Ix.mod d) = 1)
      if lit.any fun d => !((dieClus d).any fun c => s.spareOk c && !(bs.any fun b => decide (b.2 = c))) then
        { code := 0x08, sec := org.1, rcd := org.2 }
      else { code := 0 }

/-! ## Stage 7: whole-harness checks -/

/-- Instances of a register that records wrote. -/
def Harness.insts (h : Harness) (r : Reg) : List Ix := h.regs.filterMap fun x => if x.1 = r then some x.2 else none

/-- Section and record a register instance stands in. -/
def Harness.origin (h : Harness) (r : Reg) (ix : Ix) : Nat × Nat :=
  let k := regKey r ix
  match h.raw.find? fun b => decide (k ≤ b.at_) && decide (b.at_ < k + ((Reg.place r).bits + 7) / 8) with
  | some b => (b.sec, b.rcd)
  | none => (0, 0)

def Harness.fail (h : Harness) (code : Nat) (r : Reg) (ix : Ix) : LoadResult :=
  { code := code, sec := (h.origin r ix).1, rcd := (h.origin r ix).2 }

/-- Where a route goes: its end, the static lanes it owns (cluster, direction, lane), the bridges it crosses. -/
structure RouteWalk where
  at_ : CluId
  lanes : List (CluId × Nat × Nat) := []
  bridges : List (Nat × Nat) := []

/-- One hop of a static route (R296). -/
def walkHop (s : State) (p : Nat) (w : RouteWalk) (hop : Nat) : Option RouteWalk :=
  let dir := hop % 4
  match cluNext w.at_ dir with
  | none => none
  | some e =>
    if !s.hopOk w.at_ dir then none
    else if e.die = w.at_.die then
      let ls := if hop / 4 % 2 = 1 then [0, 1, 2, 3] else [hop / 8 % 4]
      some { w with at_ := e, lanes := w.lanes ++ ls.map fun l => (w.at_, dir, l) }
    else if s.partOf e.die ≠ some p ∨ s.get F.nirFpDie.state (Ix.mod e.die) ≠ 1 then none
    else some { at_ := e, lanes := w.lanes ++ [0, 1, 2, 3].map fun l => (w.at_, dir, l), bridges := w.bridges ++ [(w.at_.die.val, dir)] }

/-- A static route followed (R296). -/
def walkRoute (s : State) (p : Nat) (c : CluId) (v : Nat) : Option RouteWalk :=
  ((List.range (min (bitsOf v 1 6) 38)).map fun k => bitsOf v (28 + 6 * k) 6).foldl (fun w h => w.bind fun w => walkHop s p w h) (some { at_ := c })

/-- Valid routes of the harness: instance, cluster, walk. -/
def Harness.walks (s : State) (h : Harness) : List (Ix × CluId × Option RouteWalk) :=
  (h.insts .cluRtrRoute).filterMap fun ix =>
    if h.get F.cluRtrRoute.valid ix = 0 then none
    else (h.clu ix.die ix.clu).map fun c => (ix, c, walkRoute s h.part c (h.regVal .cluRtrRoute ix))

/-- Lanes that more than one route owns. -/
def laneClash : List (Ix × CluId × Option RouteWalk) → List (CluId × Nat × Nat) → Option Ix
  | [], _ => none
  | (ix, _, w) :: ws, used =>
    let ls := (w.map fun w => w.lanes).getD []
    if ls.any fun l => used.contains l then some ix else laneClash ws (used ++ ls)

/-- Transfer descriptors of the harness. -/
def Harness.xferDescs (h : Harness) : List Ix := (h.insts .coreDesc).filter fun ix => decide (bitsOf (h.regVal .coreDesc ix) 0 4 = 1)

/-- A static descriptor without a valid route, or whose route ends elsewhere (R296). -/
def Harness.descRouteBad (h : Harness) (ws : List (Ix × CluId × Option RouteWalk)) (ix : Ix) : Bool :=
  let w := h.regVal .coreDesc ix
  decide (bitsOf w 4 1 = 1) && decide (bitsOf w 9 2 ≠ 2) &&
    (match ws.find? fun x => decide (x.1.die = ix.die ∧ x.1.clu = ix.clu ∧ x.1.n = bitsOf w 5 4) with
      | some (_, _, some r) => decide (h.clu (bitsOf w 56 5) (bitsOf w 61 7) ≠ some r.at_)
      | _ => true)

/-- Recorded latency of virtual die vd: entry 0 to 3 a bridge edge, 4 and 5 a stack side.  [DEDUCED, log 117] -/
def Harness.latrec (h : Harness) (vd i : Nat) : Nat := h.table 3 (8 * (vd * 6 + i)) 8

/-- Declared static stack bytes of a channel group by credit window, counted from activation: rows of 256 entries of 8 B, a row a window,
used in turn as the budget table is (R182, R274).  [DEDUCED, log 117] -/
def Harness.stkRows (h : Harness) (vd g : Nat) : List (Nat × Nat) :=
  ((h.raw.filterMap fun b => if vkTk b.at_ = 2 ∧ vkTable b.at_ = 5 ∧ vkTgt b.at_ / 8 % 256 = vd * 8 + g then some (vkTgt b.at_ / 2048) else none).eraseDups).map
    fun w => (w, h.table 5 (8 * (256 * w + vd * 8 + g)) 8)

/-- The largest declared static bytes of a group in any window. -/
def Harness.stkdecl (h : Harness) (vd g : Nat) : Nat := (h.stkRows vd g).foldl (fun m r => max m r.2) 0

/-- A recorded latency that differs from the measured one (R331). -/
def latencyBad (s : State) (h : Harness) (ws : List (Ix × CluId × Option RouteWalk)) : Bool :=
  let vds := (h.bindings.map fun b => (b.1.1, b.2.die.val)).eraseDups
  let crossed := (ws.flatMap fun w => (w.2.2.map fun r => r.bridges).getD []).eraseDups
  (crossed.any fun b =>
    match vds.find? fun v => decide (v.2 = b.1) with
    | none => true
    | some v => decide (h.latrec v.1 b.2 ≠ s.bridgeLat b.1 b.2) || !s.bit F.stwXingBridge.valid (Ix.stw b.1 b.2)) ||
  (vds.any fun v => [0, 1].any fun side =>
    ((List.range 4).any fun g => decide (h.stkdecl v.1 (4 * side + g) ≠ 0)) &&
      (List.range 6).any fun k => decide (h.latrec v.1 (4 + side) < s.get F.stwXingStkRtn.lat_cc (Ix.stw v.2 (side * 6 + k)))) ||
  ((s.diesOf h.part).any fun d => decide (24 < s.get F.stwSchedHaltlat.lat_cc (Ix.stw d)))

/-- Arrays of a bit mask. -/
def bitsSet (m : Nat) : List Nat := (List.range 64).filter fun a => m.testBit a

/-- Physical array of a core in virtual coordinates. -/
def Harness.arrOf (h : Harness) (ix : Ix) (a : Nat) : Option ArrId :=
  (h.clu ix.die ix.clu).bind fun c =>
    if hk : ix.core < 4 then if ha : a < 64 then some ⟨c.die, c.clu, ⟨ix.core, hk⟩, ⟨a, ha⟩⟩ else none else none

def State.mappedOut (s : State) (a : Option ArrId) : Bool :=
  match a with
  | none => true
  | some a => s.mapOut.contains a || s.coreMappedOut a.die a.clu a.core

/-- A group that names a mapped-out array, or in a streaming harness spans both sets (R84, R95). -/
def groupBad (s : State) (h : Harness) (ix : Ix) : Bool :=
  let m := h.get F.coreAgrp.mask ix
  ((bitsSet m).any fun a => s.mappedOut (h.arrOf ix a)) || (h.streaming && decide (m % 2 ^ 32 ≠ 0) && decide (2 ^ 32 ≤ m))

/-- Shard header fields NIMG and SCL_LEN of a die's verified shard. -/
def State.shardNimg (s : State) (d ofs : Nat) : Nat := bytesToNat (s.bytes (fabStack d (ofs + 0x0C)) 4)
def State.shardSclLen (s : State) (d ofs : Nat) : Nat := bytesToNat (s.bytes (fabStack d (ofs + 0x20)) 8)

/-- An image binding or scale run past the shard (R390). -/
def bindingBad (s : State) (h : Harness) (r : Reg) (ix : Ix) : Bool :=
  match h.die ix.die with
  | none => true
  | some d =>
    let ofs := h.get F.stwShardRef.shofs (Ix.stw ix.die)
    match r with
    | .coreWptrArr => decide (h.get F.coreWptrArr.valid ix = 1) && decide (s.shardNimg d ofs ≤ h.get F.coreWptrArr.img ix)
    | _ => decide (h.get F.coreWptrScl.slen ix ≠ 0) &&
      decide (s.shardSclLen d ofs < 32 * (h.get F.coreWptrScl.sofs ix + h.get F.coreWptrScl.slen ix))

/-- Cores (virtual) that some record configures. -/
def Harness.cores (h : Harness) : List Ix :=
  ((h.regs.filter fun r => decide ((Reg.place r.1).cls = .core ∨ (Reg.place r.1).cls = .arr)).map fun r => (⟨r.2.die, r.2.clu, r.2.core, 0, 0⟩ : Ix)).eraseDups

/-- Enabled arrays of a core that are not mapped out. -/
def Harness.enabled (s : State) (h : Harness) (ix : Ix) : List Nat :=
  (List.range 64).filter fun a => decide (h.get F.arrCfg.enable { ix with n := a } = 1) && !s.mappedOut (h.arrOf ix a)

/-- Used calibration entries of a core: index, period, phase, mandatory, arrays covered. -/
def Harness.calEntries (s : State) (h : Harness) (ix : Ix) : List (Nat × Nat × Nat × Bool × List Nat) :=
  let en := h.enabled s ix
  (List.range 8).filterMap fun i =>
    let e := { ix with n := i }
    let p := h.get F.coreCalSlot.period e
    if p = 0 then none
    else
      let m := h.get F.coreAgrp.mask { ix with n := h.get F.coreCalSlot.group e }
      some (i, p, h.get F.coreCalSlot.phase e, decide (h.get F.coreCalSlot.mandatory e = 1), en.filter fun a => m.testBit a)

/-- Two entries that cover an array overlap in some stitch: their starts come closer than a slot's 150 st. -/
def slotsOverlap (a b : Nat × Nat × Nat × Bool × List Nat) : Bool :=
  let g := Nat.gcd a.2.1 b.2.1
  let r := (a.2.2.1 + g * b.2.2.1 - b.2.2.1) % g
  (a.2.2.2.2.any fun x => b.2.2.2.2.contains x) && (decide (r < 150) || decide (g - r < 150))

/-- R109 for one core: the register that breaks it, a slot or an enabled array no mandatory slot covers in time. -/
def calBad (s : State) (h : Harness) (ix : Ix) : Option (Reg × Ix) :=
  let es := h.calEntries s ix
  let int := h.get F.coreCalCfg.calint ix
  match es.find? fun e => decide (e.2.1 < 150) with
  | some e => some (.coreCalSlot, { ix with n := e.1 })
  | none =>
    match (h.enabled s ix).find? fun a => !(es.any fun e => e.2.2.2.1 && decide (e.2.1 ≤ int) && e.2.2.2.2.contains a) with
    | some a => some (.arrCfg, { ix with n := a })
    | none => (es.find? fun b => es.any fun a => decide (a.1 < b.1) && slotsOverlap a b).map fun b => (.coreCalSlot, { ix with n := b.1 })

/-- Largest budget entry of a core (R184). -/
def Harness.maxBudget (h : Harness) (ix : Ix) : Nat :=
  (List.range (h.get F.coreCredCfg.len_m1 ix + 1)).foldl (fun m i => max m (h.get F.coreCredTab.budget { ix with n := i })) 0

/-- Sum of a cluster's largest budget entries. -/
def Harness.decl (h : Harness) (vd vcl : Nat) : Nat :=
  ((h.cores.filter fun c => decide (c.die = vd) && decide (c.clu = vcl)).map h.maxBudget).sum

/-- A range of blocks meets a list of them. -/
def hitsBlock (lo n size : Nat) (blocks : List Nat) : Bool :=
  decide (0 < n) && blocks.any fun b => decide (b * size < lo + n) && decide (lo < (b + 1) * size)

/-- Units of a virtual cluster, and groups of a virtual die, that the harness turns off. -/
def Harness.offUnits (h : Harness) (vd vcl : Nat) : List Nat :=
  let m := h.get F.cluSbufCfg.mode ⟨vd, vcl, 0, 0, 0⟩
  (List.range 8).filter fun u => decide (bitsOf m (2 * u) 2 = 2)

def Harness.offGroups (h : Harness) (vd : Nat) : List Nat :=
  (List.range 8).filter fun g => !(h.get F.stkCfg.grp_on (Ix.stw vd (g / 4))).testBit (g % 4)

/-- A register names a unit or group that the harness turns off (R286). -/
def unitBad (s : State) (h : Harness) (r : Reg) (ix : Ix) : Bool :=
  let offU := h.offUnits ix.die ix.clu
  let offG := h.offGroups ix.die
  match r with
  | .cluSbufCfg =>
    match h.clu ix.die ix.clu with
    | none => false
    | some c => (List.range 8).any fun u => s.unitFailed c u && decide (bitsOf (h.get F.cluSbufCfg.mode ix) (2 * u) 2 ≠ 2)
  | .cluWin => decide (h.get F.cluWin.open_ ix = 1) && hitsBlock (h.get F.cluWin.base ix) (h.get F.cluWin.size ix) 0x10000 offU
  | .stkWin => decide (h.get F.stkWin.open_ ix = 1) && hitsBlock (h.get F.stkWin.base ix) (h.get F.stkWin.size ix) (2 ^ 32) offG
  | .coreSeqBound =>
    let b := h.get F.coreSeqBase.base ix
    let n := h.get F.coreSeqBound.bound ix
    (decide (ix.n = 1) && hitsBlock b n 0x10000 offU) || (decide (ix.n = 2) && hitsBlock b n (2 ^ 32) offG)
  | .coreDesc =>
    let w := h.regVal .coreDesc ix
    decide (bitsOf w 0 4 = 1) && decide (bitsOf w 70 1 = 0) &&
      ((decide (bitsOf w 52 4 = 1) && hitsBlock (bitsOf w 88 40) (bitsOf w 128 24) 0x10000 (h.offUnits (bitsOf w 56 5) (bitsOf w 61 7))) ||
        (decide (bitsOf w 52 4 = 2) && hitsBlock (bitsOf w 88 40) (bitsOf w 128 24) (2 ^ 32) (h.offGroups (bitsOf w 56 5))))
  | .coreKvfRoleHome =>
    let role := { ix with m := 0 }
    decide (h.get F.coreKvfRoleCfg0.en role = 1) && decide (ix.m < h.get F.coreKvfRoleCfg1.nhome role) && decide (h.get F.coreKvfRoleHome.space ix = 1) &&
      hitsBlock (256 * h.get F.coreKvfRoleHome.line ix) (256 * h.kvLines role) 0x10000 offU
  | .coreKvfRoleCfg1 =>
    decide (h.get F.coreKvfRoleCfg0.en ix = 1) &&
      hitsBlock (256 * h.get F.coreKvfRoleCfg1.stkbase ix) (256 * h.kvLines ix * h.get F.coreKvfRoleCfg1.stkn ix) (2 ^ 32) offG
  | .stwShardRef =>
    let lo := h.get F.stwShardRef.shofs ix
    let n := ((s.areas.find? fun a => ((h.die ix.die).any fun d => decide (a.die = d.val)) && decide (a.ofs = lo)).map fun a => a.len).getD 1
    hitsBlock lo n (2 ^ 32) offG
  | .smpCfg => hitsBlock (h.get F.smpCfg.region ix) (4096 * 8704) (2 ^ 32) (h.offGroups (h.get F.srvFrameSmp.vd {}))
  | _ => false

/-- A DATA byte for a shared-buffer unit that the harness turns off (R286), or whose mode it changes, so that the unit is being cleared at its
activation (R271). -/
def dataBad (s : State) (h : Harness) (b : RawByte) : Bool :=
  let t := vkTgt b.at_
  if vkTk b.at_ = 0 ∧ addrSpace t = 1 then
    let u := addrOfs t / 65536
    let mode := bitsOf (h.get F.cluSbufCfg.mode ⟨addrDie t, addrClu t, 0, 0, 0⟩) (2 * u) 2
    decide (mode = 2) || (h.clu (addrDie t) (addrClu t)).any fun c => decide (s.sbufMode c u ≠ mode)
  else false

/-- Declared stack bytes of a group and window past the bound, or of a group that is not on yet in a window that begins before it is zeroed
(R274, R288). -/
def stackBad (s : State) (h : Harness) : Bool :=
  ((h.bindings.map fun b => (b.1.1, b.2.die.val)).eraseDups).any fun v => (List.range 8).any fun g =>
    (h.stkRows v.1 g).any fun r => decide (2097152 < 3 * r.2) ||
      (decide (r.2 ≠ 0) && decide (256 * r.1 < 1572864) && (h.get F.stkCfg.grp_on (Ix.stw v.1 (g / 4))).testBit (g % 4) &&
        !(s.get F.stkCfg.grp_on (Ix.stw v.2 (g / 4))).testBit (g % 4))

/-- A streaming reload to another cluster (R394). -/
def reloadBad (h : Harness) (ix : Ix) : Bool :=
  let w := h.regVal .coreDesc ix
  h.streaming && decide (bitsOf w 4 1 = 1) && decide (bitsOf w 9 2 = 2) && decide (bitsOf w 52 4 = 4) &&
    !(decide (bitsOf w 56 5 = ix.die) && decide (bitsOf w 61 7 = ix.clu))

/-- Arrays of one set of a partition of n dies, a spare cluster of each set aside (R53). -/
def setArrays (n : Nat) : Nat := n * (128 * 256 - 256) / 2

/-- Cycles at 1.20 GHz that n dies' stacks take to deliver some bytes, 1,638.4 GB/s a die (R54). -/
def reloadCycles (bytes n : Nat) : Nat := (3 * bytes + (4096 * n - 1)) / (4096 * n)

/-- A unit of a streaming harness does not fit in one set, or its batch is too small to cover its reload (R53, R54). -/
def streamingBad (h : Harness) (n : Nat) : Bool :=
  let p := Config.reloadPlan h.hid
  p.units.any fun u => decide (setArrays n < u.arrays) || decide (p.batch * u.interval < reloadCycles u.bytes n)

/-- The tables whose first byte gives a table check its section and record. -/
def Harness.tableOrigin (h : Harness) (t : Nat) : Nat × Nat :=
  match h.raw.find? fun b => decide (vkTk b.at_ = 2) && decide (vkTable b.at_ = t) with
  | some b => (b.sec, b.rcd)
  | none => (0, 0)

/-- Stage 7 in Table 10.5's order.  `again` repeats, at a commit, the checks that depend on the floor plan and on reported
latencies (R344). -/
def stage7 (s : State) (h : Harness) (again : Bool) : LoadResult :=
  let ws := h.walks s
  match ws.find? fun w => w.2.2.isNone with
  | some w => h.fail 0x09 .cluRtrRoute w.1
  | none =>
  match laneClash ws [] with
  | some ix => h.fail 0x09 .cluRtrRoute ix
  | none =>
  match h.xferDescs.find? fun ix => h.descRouteBad ws ix with
  | some ix => h.fail 0x09 .coreDesc ix
  | none =>
  if latencyBad s h ws then { code := 0x0A, sec := (h.tableOrigin 3).1, rcd := (h.tableOrigin 3).2 }
  else
  match (h.insts .coreAgrp).find? fun ix => groupBad s h ix with
  | some ix => h.fail 0x0B .coreAgrp ix
  | none =>
  match h.regs.find? fun r => !again && decide (r.1 = .coreWptrArr ∨ r.1 = .coreWptrScl) && bindingBad s h r.1 r.2 with
  | some r => h.fail 0x0B r.1 r.2
  | none =>
  match if again then none else h.cores.findSome? fun ix => calBad s h ix with
  | some r => h.fail 0x0C r.1 r.2
  | none =>
  match h.bindings.find? fun b => !again && decide (s.get F.cluCredCap.cap b.2.ix < h.decl b.1.1 b.1.2) with
  | some b => h.fail 0x0D .coreCredTab ⟨b.1.1, b.1.2, 0, 0, 0⟩
  | none =>
  if !again && stackBad s h then { code := 0x0E, sec := (h.tableOrigin 5).1, rcd := (h.tableOrigin 5).2 }
  else
  match h.xferDescs.find? fun ix => !again && reloadBad h ix with
  | some ix => h.fail 0x0F .coreDesc ix
  | none =>
  if ¬ again ∧ h.streaming ∧ streamingBad h (s.diesOf h.part).length then { code := 0x0F }
  else
  match h.regs.find? fun r => (!again || decide (r.1 = .cluSbufCfg)) && unitBad s h r.1 r.2 with
  | some r => h.fail 0x10 r.1 r.2
  | none =>
  match h.raw.find? fun b => !again && dataBad s h b with
  | some b => { code := 0x10, sec := b.sec, rcd := b.rcd }
  | none =>
  if !again && ((h.bindings.map fun b => b.1.1).eraseDups).any fun vd => (h.offGroups vd).any fun g => decide (h.stkdecl vd g ≠ 0) then
    { code := 0x10, sec := (h.tableOrigin 5).1, rcd := (h.tableOrigin 5).2 }
  else { code := 0 }

/-! ## Weight-load time (R391, R393) -/

/-- Virtual instance of a physical core's array binding in a harness: image and shard offset, if bound. -/
def Harness.binding (h : Harness) (a : ArrId) : Option (Nat × Nat) :=
  (h.bindings.find? fun b => decide (b.2 = a.coreId.cluId)).bind fun b =>
    let ix : Ix := ⟨b.1.1, b.1.2, a.core, a.arr, 0⟩
    if h.get F.coreWptrArr.valid ix = 1 then some (h.get F.coreWptrArr.img ix, h.get F.stwShardRef.shofs (Ix.stw b.1.1)) else none

/-- Arrays an activation writes: bound, and with another binding than the outgoing harness's, or cleared since it was
activated; in a streaming harness set A only. -/
def State.arraysToWrite (s : State) (h : Harness) : List (ArrId × Nat × Nat) :=
  (h.insts .coreWptrArr).filterMap fun ix =>
    match h.arrOf ix ix.n with
    | none => none
    | some a =>
      match h.binding a with
      | none => none
      | some b =>
        let old := (Map.find s.active h.part).bind fun o => o.binding a
        if (h.streaming ∧ 32 ≤ a.arr.val) ∨ (old = some b ∧ ¬ s.cleared.contains a) then none else some (a, b.1, b.2)

/-- Scale run of a core: start in the scale area, length and line. -/
def Harness.scaleRun (h : Harness) (c : CoreId) : Option (Nat × Nat × Nat × Nat) :=
  (h.bindings.find? fun b => decide (b.2 = c.cluId)).bind fun b =>
    let ix : Ix := ⟨b.1.1, b.1.2, c.core, 0, 0⟩
    let n := h.get F.coreWptrScl.slen ix
    if n = 0 then none
    else some (h.get F.stwShardRef.shofs (Ix.stw b.1.1), 32 * h.get F.coreWptrScl.sofs ix, 32 * n, h.get F.coreWptrScl.line ix)

/-- Scale runs an activation writes (R391). -/
def State.runsToWrite (s : State) (h : Harness) : List (CoreId × Nat × Nat × Nat × Nat) :=
  (h.insts .coreWptrScl).filterMap fun ix =>
    match h.arrOf ix 0 with
    | none => none
    | some a =>
      match h.scaleRun a.coreId with
      | none => none
      | some r =>
        if ((Map.find s.active h.part).bind fun o => o.scaleRun a.coreId) = some r then none else some (a.coreId, r)

/-- WLOAD_ST of a die. -/
def State.wload (s : State) (h : Harness) (d : Nat) : Nat :=
  let as := (s.arraysToWrite h).filter fun a => decide (a.1.die.val = d)
  let rs := (s.runsToWrite h).filter fun r => decide (r.1.die.val = d)
  if as.isEmpty ∧ rs.isEmpty then 0
  else
    let bytes := 8192 * as.length + (rs.map fun r => r.2.2.2.1).sum
    let cores := (as.map fun a => a.1.coreId).eraseDups
    let ac := cores.foldl (fun m c => max m (as.filter fun a => decide (a.1.coreId = c)).length) 0
    let w0 := (bytes + 21844) / 21845 + 32 * ac + 64
    let pers := as.flatMap fun a =>
      match h.bindings.find? fun b => decide (b.2 = a.1.coreId.cluId) with
      | none => []
      | some b => ((h.calEntries s ⟨b.1.1, b.1.2, a.1.core, 0, 0⟩).filter fun e => e.2.2.2.2.contains a.1.arr.val).map fun e => e.2.1
    match pers with
    | [] => w0
    | p :: ps =>
      let m := ps.foldl min p
      w0 + 150 * ((w0 + m - 1) / m)

/-- Clamp LOFS of the cores written, and RESUME_ST, up to WLOAD_ST. -/
def clampWload (s : State) (h : Harness) : Harness :=
  let cores := (((s.arraysToWrite h).map fun a => a.1.coreId) ++ (s.runsToWrite h).map fun r => r.1).eraseDups
  let h' := cores.foldl (fun h c =>
    match h.bindings.find? fun b => decide (b.2 = c.cluId) with
    | none => h
    | some b =>
      let i := (b.1.1 * 128 + b.1.2) * 4 + c.core.val
      let k := vkey 2 4 (4 * i)
      let w := s.wload h c.die
      let v := h.table 4 (4 * i) 4
      if (h.rawAt k).isSome ∧ v % 65536 < w then
        { (h.putVal k 4 (putBits v 0 16 (min w 65535))) with clamps := h.clamps ++ [h.clampEntry k 0 16 (v % 65536) (min w 65535) 9] }
      else h) h
  let w := ((cores.map fun c => c.die.val).eraseDups).foldl (fun m d => max m (s.wload h d)) 0
  if h'.resume < w then { h' with clamps := h'.clamps ++ [⟨0xFFFF, 9, 0, 0x30, 0, 32, 0, h'.resume, w, 8 * 0x30⟩], resume := w } else h'

/-! ## Recipe changes (R342) -/

/-- Recipe fields of Table 04.11 held in registers. -/
def recipeFields : List Fld :=
  [F.arrCfg.wfmt, F.arrCfg.wide_ok, F.coreKvfRoleCfg0.kvfmt, F.vecCfgRnd.site0, F.vecCfgRnd.site1, F.vecCfgRnd.site2, F.vecCfgTscale.t,
    F.vecPcntLayer.layer, F.stwPrecThr.sat_thr, F.stwPrecThr.zero_thr, F.stwPrecThr.en]

/-- A recipe item differs between two harnesses. -/
def recipeChange (a b : Harness) : Bool :=
  ((a.regs ++ b.regs).eraseDups).any fun r => recipeFields.any fun f => decide (f.reg = r.1) && decide (a.get f r.2 ≠ b.get f r.2)

/-- The harness needs a paused swap (R342). -/
def State.needsPause (s : State) (h : Harness) : Bool := (Map.find s.active h.part).any fun a => recipeChange a h

/-! ## The loader -/

/-- Stages 5 to 7 on the records read. -/
def stages57 (s : State) (secs : List Section) (a : Option Harness) (h : Harness) : LoadResult :=
  let h := match a with
    | some a =>
      let h' := { h with raw := overlay (patchBase a secs) h.raw }
      if h.opkey then h' else keepReserved s a h'
    | none => h
  let h := match a with
    | some a => { h with opkey := h.opkey || a.opkey, fpr := a.fpr }
    | none => h
  let h := clampAll s h
  let h := clampWload s h
  let h := { h with clamps := h.clamps.foldl (fun l e => insertClamp e l) [], needsPause := s.needsPause h }
  let r := stage6 s h
  if r.code ≠ 0 then { r with h := some h }
  else
    let r := stage7 s h false
    { r with h := some h }

/-- The whole load of the image that HRN.LOAD names (R327). -/
def State.loadHarness (s : State) (p : Nat) : LoadResult :=
  let addr := s.get F.hrnLoadAddr.addr (Ix.mod p)
  let len := s.get F.hrnLoadLen.len (Ix.mod p)
  let img := s.bytes addr len
  if (s.diesOf p).isEmpty ∨ ¬ s.imageArea p addr len then { code := 0x05 }
  else if ¬ headerOk img then { code := 0x01 }
  else if leNat img 0x0E 1 ≠ p then { code := 0x05 }
  else
    let n := leNat img 0x0C 2
    let secs := (List.range n).map (parseSection img)
    match firstBad (0x100 + 64 * n) (len - 128) [] secs 0 with
    | some i => { code := 0x01, sec := i }
    | none =>
    let key := leNat img 0x0F 1
    let slot := key % 64
    match Map.find s.keys slot with
    | none => { code := 0x03 }
    | some pub =>
    if key.testBit 6 ∨ 35 < slot ∨ (key.testBit 7 = true ∧ 4 ≤ slot) ∨ (key.testBit 7 = false ∧ slot < 4) then { code := 0x03 }
    else if ¬ ecdsaVerify pub (img.drop (len - 128)) (img.take (0x100 + 64 * n)) then { code := 0x02 }
    else
    match digestBad img secs 0 with
    | some i => { code := 0x04, sec := i }
    | none =>
    let flags := leNat img 0x0A 2
    let h : Harness := { part := p, hid := leNat img 0x18 8, baseId := leNat img 0x20 8, strict := flags.testBit 0, patch := flags.testBit 1
                         streaming := flags.testBit 2, opkey := key.testBit 7, fpr := fingerprint pub, vdies := leNat img 0x28 1
                         drain := leNat img 0x2C 4, resume := leNat img 0x30 4, raw := [] }
    let recs := parseSections img secs.zipIdx []
    let refs := match recs with
      | .ok raw =>
        match Map.find s.active p with
        | some a => s.shardBad { h with raw := if h.patch then overlay (patchBase a secs) raw else raw }
        | none => s.shardBad { h with raw := raw }
      | .error _ => none
    match refs with
    | some i => { code := 0x04, sec := i }
    | none =>
    let act := Map.find s.active p
    let patchBad := h.patch && (match act with
      | none => true
      | some a => decide (a.hid ≠ h.baseId) || !(h.opkey || decide (a.fpr = h.fpr)))
    if patchBad then { code := 0x11 }
    else
    match recs with
    | .error e => { code := e.1, sec := e.2.1, rcd := e.2.2 }
    | .ok raw => stages57 s secs (if h.patch then act else none) { h with raw := raw }

/-- HARNESS_LOAD_GO: a load begins and discards the shadow; refused BUSY while one runs or a swap is committed (R330). -/
def harnessLoadGo (p : PartIx) (s : State) : State :=
  let ix := Ix.mod p
  let st := s.get F.hrnStat.shadow ix
  if st = shLoading ∨ st = shCommitted ∨ s.bit F.hrnSwapResult.committed ix then
    (s.sets ix [(F.hrnLoadResult.done, 1), (F.hrnLoadResult.code, 0x12), (F.hrnLoadResult.section_, 0), (F.hrnLoadRecord.record, 0)]).inc
      F.hrnCnt.load_ref ix
  else
    let s := { s with shadowHrn := Map.del s.shadowHrn p.val, report := Map.del s.report p.val }
    (s.sets ix [(F.hrnLoadResult.done, 0), (F.hrnLoadResult.code, 0), (F.hrnLoadResult.section_, 0), (F.hrnLoadResult.overflow, 0),
      (F.hrnLoadResult.nclamp, 0), (F.hrnLoadRecord.record, 0)]).showShadow p shLoading

def execHarnessLoadGo (p : PartIx) (s : State) : Host.Outcome State Fault Refusal := done (harnessLoadGo p s)

/-- HARNESS_LOAD_DONE: the loader's outcome, its clamp report and the shadow's state (R327-R329). -/
def harnessLoadDone (p : PartIx) (s : State) : State :=
  let ix := Ix.mod p
  if s.get F.hrnStat.shadow ix ≠ shLoading then s
  else
    let r := s.loadHarness p
    let cl := (r.h.map fun h => h.clamps).getD []
    let s := { s with report := Map.put s.report p.val (cl.take 4096) }
    let s := s.sets ix [(F.hrnLoadResult.done, 1), (F.hrnLoadResult.code, r.code), (F.hrnLoadResult.section_, r.sec),
      (F.hrnLoadResult.overflow, boolNat (decide (4096 < cl.length))), (F.hrnLoadResult.nclamp, cl.length), (F.hrnLoadRecord.record, r.rcd)]
    if r.code ≠ 0 then (s.showShadow p shRefused).inc F.hrnCnt.load_ref ix
    else
      match r.h with
      | none => s
      | some h => ({ s with shadowHrn := Map.put s.shadowHrn p.val h }.showShadow p shReady).inc F.hrnCnt.loads ix

def execHarnessLoadDone (p : PartIx) (s : State) : Host.Outcome State Fault Refusal := done (harnessLoadDone p s)

/-! ## Keys (R325) -/

/-- Hold a key in a slot. -/
def State.setKey (s : State) (k : Nat) (key : Nat × Nat) : State :=
  { s with keys := Map.put s.keys k key }.sets (Ix.mod k) [(F.nirKeySlot.fpr, fingerprint key), (F.nirKeyStat.loaded, 1)]

/-- KEY_RECORD: a record that names a slot and a key, signed under the operator key of slot `signer`, is held; the record's
byte form is the implementation's. -/
def keyRecord (slot : Fin 36) (x y : BitVec 384) (signer : Fin 4) (sig : List Byte) (s : State) : State :=
  match Map.find s.keys signer.val with
  | none => s
  | some op => if ecdsaVerify op sig (Config.keyRecordBytes slot x.toNat y.toNat) then s.setKey slot (x.toNat, y.toNat) else s

def execKeyRecord (slot : Fin 36) (x y : BitVec 384) (signer : Fin 4) (sig : List Byte) (s : State) : Host.Outcome State Fault Refusal :=
  done (keyRecord slot x y signer sig s)

end Sys2Proof.Machine
end

