-- ==== Sys2Proof/Machine/Sampler.lean ====
section
/-!
DEFINITION. The die sampler (R367-R374, R537): the descriptor's fields, the sampling record, the draw and its end conditions;
records, token rings and the pending buffer (R380-R382).
-/

namespace Sys2Proof.Machine
open Sys2Proof

/-! ## Descriptor fields (Table 11.2) -/

/-- Fields of a descriptor (Table 11.2). -/
def descTag (d : List Byte) : Nat := leNat d 0x00 8
def descCtx (d : List Byte) : Nat := leNat d 0x08 2
def descParent (d : List Byte) : Nat := leNat d 0x0A 2
def descCtl (d : List Byte) : Nat := leNat d 0x0C 4
def descRoot (d : List Byte) : Bool := (descCtl d).testBit 0
def descFork (d : List Byte) : Bool := (descCtl d).testBit 1
def descPromptCnt (d : List Byte) : Bool := (descCtl d).testBit 2
def descHide (d : List Byte) : Bool := (descCtl d).testBit 3
def descPspace (d : List Byte) : Nat := bitsOf (descCtl d) 4 1
def descClass (d : List Byte) : Nat := bitsOf (descCtl d) 5 3
def descRing (d : List Byte) : Nat := bitsOf (descCtl d) 8 4
def descEth (d : List Byte) : Bool := (descCtl d).testBit 12
def descAddr (d : List Byte) : Nat := leNat d 0x10 8
def descLen (d : List Byte) : Nat := leNat d 0x18 4
def descNpos (d : List Byte) : Nat := leNat d 0x1C 4
def descMax (d : List Byte) : Nat := leNat d 0x20 4
def descF32 (d : List Byte) (o : Nat) : Word32 := BitVec.ofNat 32 (leNat d o 4)
def descTopK (d : List Byte) : Nat := leNat d 0x2C 2
def descNstop (d : List Byte) : Nat := leNat d 0x2E 1
def descSeqlen (d : List Byte) (i : Nat) : Nat := leNat d (0x3C + i) 1
def descSeed (d : List Byte) : Nat := leNat d 0x40 8
def descStopIds (d : List Byte) : List Nat := (List.range (min (descNstop d) 16)).map fun k => leNat d (0x80 + 4 * k) 4
def descStopSeq (d : List Byte) (i : Nat) : List Nat := (List.range (min (descSeqlen d i) 8)).map fun k => leNat d (0xC0 + 32 * i + 4 * k) 4

/-! ## Count table (R368) -/

/-- Entries hold a token ID in bits [19:0] and its count in bits [31:20]; 0 is an unused one. -/
def countIn (ws : List Nat) (id : Nat) : Nat :=
  match ws.find? fun w => decide (w ≠ 0) && decide (w % 2 ^ 20 = id) with
  | some w => w / 2 ^ 20
  | none => 0

/-- Count a token: its count saturates at 4,095; an ID that finds the table full is not counted. -/
def countToken (ws : List Nat) (id : Nat) : List Nat × Bool :=
  if countIn ws id ≠ 0 then
    (ws.map fun w => if w ≠ 0 ∧ w % 2 ^ 20 = id then id + min (w / 2 ^ 20 + 1) 4095 * 2 ^ 20 else w, false)
  else
    match ws.findIdx? (fun w => decide (w = 0)) with
    | some i => (ws.set i (id + 2 ^ 20), false)
    | none => (ws, true)

/-- Count tokens one after another, with the number that found the table full. -/
def countAll (ids : List Nat) (ws : List Nat) : List Nat × Nat :=
  ids.foldl (fun r i => let q := countToken r.1 (i % 2 ^ 20); (q.1, r.2 + boolNat q.2)) (ws, 0)

/-! ## The sampling record (Table 11.5) -/

/-- Size of a sampling record (R368). -/
def recBytes : Nat := 8704
def tableOfs : Nat := 392

/-- Address of a context's record in its sampler's region. -/
def State.recAddr (s : State) (die ctx : Nat) : Nat := fabStack die (s.get F.smpCfg.region (Ix.stw die) + recBytes * ctx)

/-- Bytes of a record: the parameters in the order named, four bytes each; the count of generated tokens in bits [29:0] of the
word at 104 with TABLE_FULL and CAND_SHORT above it; recent tokens with the latest first (log 60).  [DESIGN CHOICE, log 138] -/
def recordImage (desc : List Byte) (key : Nat) (gen : List Nat) (full short : Bool) (ws : List Nat) : List Byte :=
  let pars := (List.range 4).flatMap (fun i => natToBytes 4 (leNat desc ([0x24, 0x28, 0x2C, 0x30][i]!) (if i = 2 then 2 else 4)))
  let rest := (desc.drop 0x34).take 8 ++ natToBytes 4 (descNstop desc) ++ (desc.drop 0x3C).take 4
  natToBytes 8 key ++ pars ++ rest ++ List.replicate 64 0#8 ++
    natToBytes 4 (gen.length + 2 ^ 30 * boolNat full + 2 ^ 31 * boolNat short) ++
    ((gen.reverse.take 7) ++ List.replicate (7 - gen.length) 0).flatMap (fun t => natToBytes 4 t) ++
    (desc.drop 0x80).take 192 ++ List.replicate 64 0#8 ++ ws.flatMap (fun w => natToBytes 4 w) ++ List.replicate 120 0#8

def recF32 (r : List Byte) (o : Nat) : Word32 := BitVec.ofNat 32 (leNat r o 4)
def recKey (r : List Byte) : Nat := leNat r 0 8
def recTemp (r : List Byte) : Word32 := recF32 r 8
def recTopP (r : List Byte) : Word32 := recF32 r 12
def recTopK (r : List Byte) : Nat := leNat r 16 4
def recRep (r : List Byte) : Word32 := recF32 r 20
def recPres (r : List Byte) : Word32 := recF32 r 24
def recFreq (r : List Byte) : Word32 := recF32 r 28
def recNstop (r : List Byte) : Nat := leNat r 32 4
def recSeqlen (r : List Byte) (i : Nat) : Nat := leNat r (36 + i) 1
def recGen (r : List Byte) : Nat := leNat r 104 4 % 2 ^ 30
def recFull (r : List Byte) : Bool := (leNat r 104 4).testBit 30
def recShort (r : List Byte) : Bool := (leNat r 104 4).testBit 31
def recRecent (r : List Byte) : List Nat := (List.range (min (recGen r) 7)).map fun k => leNat r (108 + 4 * k) 4
def recTable (r : List Byte) : List Nat := (List.range 2048).map fun k => leNat r (tableOfs + 4 * k) 4

/-! ## The draw (R370-R372) -/

/-- Binary32 quotient, rounded to nearest even. -/
def f32Div (a b : Word32) : Word32 :=
  let x := FP.ofBits a
  let y := FP.ofBits b
  let neg := x.isNeg != y.isNeg
  match x, y with
  | .nan, _ => canonNaN
  | _, .nan => canonNaN
  | .inf _, .inf _ => canonNaN
  | .inf _, _ => infBits neg
  | _, .inf _ => zeroBits neg
  | .zero _, .zero _ => canonNaN
  | .zero _, _ => zeroBits neg
  | _, .zero _ => infBits neg
  | .num p, .num q => f32Round (p / q)

/-- A whole number as binary32. -/
def f32Nat (n : Nat) : Word32 := if n = 0 then zeroBits false else f32Round (n : Rat)

def f32Zero : Word32 := 0#32

def isNaN32 (w : Word32) : Bool := (FP.ofBits w).isNaN

/-- A candidate: penalised logit and token ID. -/
abbrev Cand := Word32 × Nat

/-- Sort order of candidates: logit descending, NaN below every number, ties by lower ID. -/
def candBefore (a b : Cand) : Bool :=
  if isNaN32 b.1 then !isNaN32 a.1 || decide (a.2 < b.2)
  else !isNaN32 a.1 && (f32Lt b.1 a.1 || (f32Eq a.1 b.1 && decide (a.2 < b.2)))

def insertCand (c : Cand) : List Cand → List Cand
  | [] => [c]
  | x :: xs => if candBefore c x then c :: x :: xs else x :: insertCand c xs

def sortCands (cs : List Cand) : List Cand := cs.foldr insertCand []

/-- The penalties of R370. -/
def penalise (ws : List Nat) (rep pres freq : Word32) (c : Cand) : Cand :=
  let n := countIn ws c.2
  if n = 0 then c
  else
    let z := if f32Lt f32Zero c.1 then f32Div c.1 rep else f32Mul c.1 rep
    (f32Sub z (f32Add pres (f32Mul freq (f32Nat n))), c.2)

/-- Cumulative sums, each formed in index order. -/
def cumSums : List Word32 → List Word32
  | [] => []
  | e :: es => es.foldl (fun (r : List Word32) x => r ++ [f32Add (r.getLast?.getD e) x]) [e]

/-- sample(): the token drawn from valid candidates, or none (R370, R537). -/
def sampleToken (r : List Byte) (cs : List Cand) (pos : Nat) : Option Nat :=
  let ws := recTable r
  let cs := sortCands (cs.map (penalise ws (recRep r) (recPres r) (recFreq r)))
  match cs with
  | [] => none
  | c0 :: _ =>
    let n := (cs.filter fun c => !isNaN32 c.1).length
    if n = 0 then none
    else if f32Eq (recTemp r) f32Zero ∨ (FP.ofBits c0.1).isInf then some c0.2
    else
      let k := min (if recTopK r = 0 then n else recTopK r) n
      let cum := cumSums ((cs.take k).map fun c => f32Exp (f32Div (f32Sub c.1 c0.1) (recTemp r)))
      let m := if f32Lt (recTopP r) 0x3F800000#32 then
          let t := f32Mul (recTopP r) (cum.getLast?.getD f32Zero)
          ((cum.findIdx? fun x => !f32Lt x t).map (· + 1)).getD k
        else k
      let w := (srgen (BitVec.ofNat 64 (recKey r)) (rngCounter 3 0 pos 0)).toNat
      let u := if w / 256 = 0 then f32Zero else f32Round (((w / 256 : Nat) : Rat) / 16777216)
      let target := f32Mul u ((cum[m - 1]?).getD f32Zero)
      let i := ((cum.take m).findIdx? fun x => f32Lt target x).getD (m - 1)
      (cs[i]?).map fun c => c.2

/-- Candidates left once padded pairs are removed. -/
def validCands (cs : List (Word32 × Word32)) : List Cand :=
  ((cs.take 512).map fun c => (c.1, c.2.toNat)).filter fun c => decide (c.2 ≠ 0xFFFFFFFF)

/-- CAND_SHORT (R372): TOP_K is set and more than 512 − TOP_K candidates have a count. -/
def candShort (r : List Byte) (cs : List Cand) : Bool :=
  let ws := recTable r
  decide (recTopK r ≠ 0) && decide (512 - recTopK r < (cs.filter fun c => decide (countIn ws c.2 ≠ 0)).length)

/-- Status and DETAIL of the first end condition of Table 11.7 that holds of a drawn token. -/
def endCondition (r : List Byte) (maxTok tok : Nat) : Option (Nat × Nat) :=
  let recent := tok :: recRecent r
  match (List.range (recNstop r)).find? fun k => decide (leNat r (136 + 4 * k) 4 = tok) with
  | some k => some (0, k)
  | none =>
    match (List.range 4).find? fun i =>
      let n := recSeqlen r i
      decide (n ≠ 0) && decide ((recent.take n).reverse = (List.range n).map fun k => leNat r (200 + 32 * i + 4 * k) 4) with
    | some i => some (1, i)
    | none => if recGen r + 1 = maxTok then some (2, 0) else none

/-- Contexts of a partition. -/
def State.ctx (s : State) (p x : Nat) : Option ReqCtx := Map.find s.ctxs (p, x)

def State.setCtx (s : State) (p x : Nat) (c : ReqCtx) : State := { s with ctxs := Map.put s.ctxs (p, x) c }

def State.setPass (s : State) (q : Pass) : State :=
  { s with passes := s.passes.map fun r => if r.id = q.id then q else r }

/-- Write the record after a draw: count table, recent tokens, count of generated tokens and flags. -/
def recordAfter (r : List Byte) (tok : Nat) (short : Bool) : List Byte × Bool :=
  let q := countToken (recTable r) (tok % 2 ^ 20)
  let full := recFull r || q.2
  let recent := (tok :: recRecent r).take 7
  (r.take 104 ++ natToBytes 4 ((recGen r + 1) % 2 ^ 30 + 2 ^ 30 * boolNat full + 2 ^ 31 * boolNat (recShort r || short)) ++
    (recent ++ List.replicate (7 - recent.length) 0).flatMap (fun t => natToBytes 4 t) ++ (r.drop 136).take 256 ++
    q.1.flatMap (fun w => natToBytes 4 w) ++ r.drop (tableOfs + 8192), q.2)

/-- The sampler of a started sampling pass takes its candidate list, draws and tests the end conditions (R370-R374, R537); it accepts one
pass every 128 cc (R367). -/
def samplerSample (id : Nat) (cands : List (Word32 × Word32)) (s : State) : State :=
  match s.passes.find? fun q => decide (q.id = id) with
  | none => s
  | some q =>
    match s.ctx q.part q.ctx with
    | none => s
    | some x =>
      let die := s.get F.srvCtx.smpdie (Ix.mod q.part q.ctx)
      if ¬ q.samples ∨ ¬ q.started ∨ q.drawn.isSome ∨ q.endAt < s.stitch ∨ (Map.find s.samplerAt die).any (fun t => decide (s.now < t + 128)) then s
      else
        let s := { s with samplerAt := Map.put s.samplerAt die s.now }
        let a := s.recAddr die q.ctx
        let r := s.bytes a recBytes
        let cs := validCands cands
        let short := candShort r cs
        let s := s.incWrap F.smpCnt.samples (Ix.stw die)
        let s := if short then s.inc F.smpCnt.short (Ix.stw die) else s
        match sampleToken r cs (q.pos + 1) with
        | none => s.setPass { q with drawn := some ⟨none, some (8, 0), short, recFull r⟩ }
        | some t =>
          let w := recordAfter r t short
          let s := (s.store a w.1).setPass { q with drawn := some ⟨some t, endCondition r (descMax x.desc) t, short, recFull r || w.2⟩ }
          if w.2 then s.inc F.smpCnt.full (Ix.stw die) else s

def execSamplerSample (id : Nat) (cands : List (Word32 × Word32)) (s : State) : Host.Outcome State Fault Refusal :=
  done (samplerSample id cands s)

/-! ## Records, rings, the pending buffer (R380-R382) -/

/-- Token record (Table 11.10). -/
def tokenRecord (first final short full : Bool) (ctx tok tag pos n emit : Nat) : List Byte :=
  natToBytes 1 1 ++ natToBytes 1 (boolNat first + 2 * boolNat final + 4 * boolNat short + 8 * boolNat full) ++ natToBytes 2 ctx ++
    natToBytes 4 tok ++ natToBytes 8 tag ++ natToBytes 4 pos ++ natToBytes 4 n ++ natToBytes 8 emit

/-- Completion record (Table 11.11). -/
def completionRecord (status ctx delivered tag detail flags ttft fin : Nat) : List Byte :=
  natToBytes 1 2 ++ natToBytes 1 status ++ natToBytes 2 ctx ++ natToBytes 4 delivered ++ natToBytes 8 tag ++ natToBytes 2 detail ++
    natToBytes 2 flags ++ natToBytes 4 ttft ++ natToBytes 8 fin

def State.pendingRecs (s : State) (p : Nat) : List RingRec := s.recs.filter fun r => decide (r.part = p)

/-- Entries of a partition's pending buffer that are free. -/
def State.bufferFree (s : State) (p : Nat) : Nat := 8192 - (s.pendingRecs p).length

def State.stalledMask (s : State) (p : Nat) : Nat := Map.getD s.stalled p 0

def State.ringStalled (s : State) (p r : Nat) : Bool := (s.stalledMask p).testBit r

/-- RING-STALL (Table 16.11). -/
def ringStallEvent (p rings kind : Nat) (s : State) : State :=
  s.emit 0x0031 1 31 (some p) [(s.stitch, 64), (p, 3), (rings, 16), (s.bufferFree p, 14), (kind, 1)]

/-- Rings that hold pending records. -/
def State.waitingRings (s : State) (p : Nat) : Nat := (s.pendingRecs p).foldl (fun m r => m ||| 2 ^ r.ring) 0

def setStalled (p m : Nat) (s : State) : State :=
  { s with stalled := Map.put s.stalled p m }.set F.srvStat.stall (Ix.mod p) (boolNat (decide (m ≠ 0)))

/-- Passes of contexts that satisfy a condition and have not started are withdrawn; bookings go back (R364, R378, R382), and the entries of
a released reservation stay empty (R361). -/
def releasePasses (p : Nat) (cond : Nat → Bool) (s : State) : State :=
  let gone := s.passes.filter fun q => decide (q.part = p) && !q.started && cond q.ctx
  let s := forAll gone (fun q s => match s.ctx p q.ctx with
    | none => s
    | some x => if q.reserved then s else s.setCtx p q.ctx { x with booked := min x.booked q.pos }) s
  { s with passes := s.passes.filter (fun q => !(gone.contains q)), released := s.released ++ gone.filter fun q => q.reserved }

/-- Stall the rings holding pending records below 4,096 free entries (R382). -/
def stallRings (p : Nat) (s : State) : State :=
  if 4096 ≤ s.bufferFree p then s
  else
    let old := s.stalledMask p
    let new := old ||| s.waitingRings p
    if new = old then s
    else
      let s := setStalled p new s
      let s := if old = 0 then ringStallEvent p new 0 s else s
      releasePasses p (fun x => match s.ctx p x with
        | some c => new.testBit (descRing c.desc)
        | none => false) s

/-- A stall ends at 6,144 free entries. -/
def resumeRings (p : Nat) (s : State) : State :=
  if s.stalledMask p ≠ 0 ∧ 6144 ≤ s.bufferFree p then ringStallEvent p (s.stalledMask p) 1 (setStalled p 0 s) else s

/-- A record enters the pending buffer, or is lost where the buffer is full: whether it entered. -/
def putRecord (p ring : Nat) (eth : Bool) (data : List Byte) (s : State) : Bool × State :=
  if s.bufferFree p = 0 then (false, s.inc F.srvCnt.lost (Ix.mod p))
  else (true, stallRings p { s with recs := s.recs ++ [⟨p, ring, eth, data, s.stitch⟩] })

/-- Records in host memory that the host has not consumed. -/
def State.ringUsed (s : State) (p r : Nat) : Nat :=
  (s.get F.srvRingProd.prod (Ix.mod p r) + 2 ^ 32 - s.get F.srvRingCons.cons (Ix.mod p r)) % 2 ^ 32

def State.ringSize (s : State) (p r : Nat) : Nat :=
  2 ^ min (max (s.get F.srvRingCfg.size_log2 (Ix.mod p r)) 6) 20

/-- An MSI-X message: sent, or held pending where its vector is masked; none without Bus Master Enable.  [PRESUMED, log 115] -/
def State.msix (s : State) (v : Nat) : State :=
  if ¬ s.bit F.hstPcieStat.bme (Ix.mod) then s
  else if s.bit F.hstMsix.mask (Ix.mod v) then
    s.set F.hstPba.pend (Ix.mod (v / 64)) (s.get F.hstPba.pend (Ix.mod (v / 64)) ||| 2 ^ (v % 64))
  else s.send (.msix v)

/-- RING_RECORD_WRITE: the oldest waiting record of ring r is written at BASE + 32 × (PROD mod SIZE), then PROD, then PRODADDR. -/
def ringRecordWrite (p : PartIx) (r : Fin 16) (s : State) : State :=
  let ix := Ix.mod p r
  if ¬ s.bit F.srvRingCfg.en ix ∨ ¬ s.bit F.hstPcieStat.bme (Ix.mod) ∨ s.ringSize p r ≤ s.ringUsed p r then s
  else match takeFirst (fun q => decide (q.part = p.val) && decide (q.ring = r.val) && !q.eth) s.recs with
    | none => s
    | some q =>
      let prod := s.get F.srvRingProd.prod ix
      let s := { s with recs := q.2 }.send (.hostWrite (s.get F.srvRingBase.addr ix + 32 * (prod % s.ringSize p r)) q.1.data)
      let s := s.set F.srvRingProd.prod ix (prod + 1)
      let s := s.send (.hostWrite (s.get F.srvRingProdaddr.addr ix) (natToBytes 8 (s.get F.srvRingProd.prod ix)))
      let sig := Map.getD s.ringSig (p.val, r.val) (0, s.stitch)
      resumeRings p { s with ringSig := Map.put s.ringSig (p.val, r.val) (sig.1 + 1, if sig.1 = 0 then s.stitch else sig.2) }

def execRingRecordWrite (p : PartIx) (r : Fin 16) (s : State) : Host.Outcome State Fault Refusal := done (ringRecordWrite p r s)

/-- RING_CONS_WRITE: the host frees entries; a stall ends once 6,144 entries of the buffer are free. -/
def ringConsWrite (p : PartIx) (r : Fin 16) (v : Nat) (s : State) : State := resumeRings p (s.set F.srvRingCons.cons (Ix.mod p r) v)

def execRingConsWrite (p : PartIx) (r : Fin 16) (v : Word32) (s : State) : Host.Outcome State Fault Refusal :=
  done (ringConsWrite p r v.toNat s)

/-- RING_MSIX: after MOD_N records, or MOD_ST stitches after the first record not yet signalled. -/
def ringMsix (p : PartIx) (r : Fin 16) (s : State) : State :=
  let ix := Ix.mod p r
  let sig := Map.getD s.ringSig (p.val, r.val) (0, 0)
  if sig.1 = 0 ∨ (sig.1 < s.get F.srvRingCfg.mod_n ix ∧ s.stitch < sig.2 + s.get F.srvRingCfg.mod_st ix) then s
  else { s with ringSig := Map.del s.ringSig (p.val, r.val) }.msix (s.get F.srvRingCfg.vec ix)

def execRingMsix (p : PartIx) (r : Fin 16) (s : State) : Host.Outcome State Fault Refusal := done (ringMsix p r s)

/-! ## Latency intervals (R376, R377) -/

/-- Count one time of class c that exceeds its goal in the interval of the emit stitch.  [DEDUCED, log 136] -/
def latViolation (p c emit : Nat) (first : Bool) (t : Nat) (s : State) : State :=
  let ix := Ix.mod p c
  let k := (p, c, emit / 4096 * 4096)
  let w := Map.getD s.latWins k {}
  if first then
    let s := (s.inc F.srvLatCnt.ttft_viol ix).set F.srvLatMax.ttft_max ix (max (s.get F.srvLatMax.ttft_max ix) (min t (2 ^ 32 - 1)))
    { s with latWins := Map.put s.latWins k { w with ttftN := w.ttftN + 1, ttftMax := max w.ttftMax t } }
  else
    let s := (s.inc F.srvLatCnt.tbt_viol ix).set F.srvLatMax.tbt_max ix (max (s.get F.srvLatMax.tbt_max ix) (min t (2 ^ 32 - 1)))
    { s with latWins := Map.put s.latWins k { w with tbtN := w.tbtN + 1, tbtMax := max w.tbtMax t } }

/-- LATENCY_GOAL_INTERVAL: events of the intervals that have ended, class by class. -/
def latencyGoalInterval (p : PartIx) (s : State) : State :=
  let past := s.latWins.filter fun e => decide (e.1.1 = p.val) && decide (e.1.2.2 + 4096 ≤ s.stitch)
  let sorted := (List.range 8).flatMap fun c => past.filter fun e => decide (e.1.2.1 = c)
  forAll sorted (fun e s => { s with latWins := Map.del s.latWins e.1 }.emit 0x0030 1 31 (some p.val)
    [(e.1.2.2, 64), (p, 3), (e.1.2.1, 3), (min e.2.ttftN 0xFFFF, 16), (min e.2.tbtN 0xFFFFFF, 24), (min e.2.ttftMax 0xFFFFFFFF, 32),
      (min e.2.tbtMax 0xFFFFFFFF, 32)]) s

def execLatencyGoalInterval (p : PartIx) (s : State) : Host.Outcome State Fault Refusal := done (latencyGoalInterval p s)

end Sys2Proof.Machine
end

