-- ==== Sys2Proof/Machine/Serving.lean ====
section
/-!
DEFINITION. The serving unit (chapter 11): submission, seat admission, frames and token passes, stream admission, emission,
cancellation, pauses, and the KV commands' effects on contexts.
-/

namespace Sys2Proof.Machine
open Sys2Proof

/-! ## Contexts (Table 11.1) -/

/-- Context states (Table 11.1). -/
def cFree : Nat := 0
def cQueued : Nat := 1
def cPrefill : Nat := 2
def cWait : Nat := 3
def cGenerate : Nat := 4
def cHold : Nat := 5
def cClosing : Nat := 6

def State.ctxState (s : State) (p x : Nat) : Nat := s.get F.srvCtx.state (Ix.mod p x)
def State.ctxSeat (s : State) (p x : Nat) : Nat := s.get F.srvCtx.seat (Ix.mod p x)

/-- Insertion sort on a numeric key; equal keys keep their order. -/
def insertOn {α : Type} (f : α → Nat) (a : α) : List α → List α
  | [] => [a]
  | x :: xs => if f a ≤ f x then a :: x :: xs else x :: insertOn f a xs

def sortOn {α : Type} (f : α → Nat) (xs : List α) : List α := xs.foldr (insertOn f) []

/-- Contexts of a partition that are not FREE, in ascending context number. -/
def State.partCtxs (s : State) (p : Nat) : List (Nat × ReqCtx) :=
  sortOn (fun e => e.1) ((s.ctxs.filter fun e => decide (e.1.1 = p)).map fun e => (e.1.2, e.2))

/-- Contexts of a partition in a state. -/
def State.ctxsIn (s : State) (p st : Nat) : List (Nat × ReqCtx) := (s.partCtxs p).filter fun e => decide (s.ctxState p e.1 = st)

/-- Ascending LCLASS, then acceptance order (R354, R362). -/
def classOrder (e : Nat × ReqCtx) : Nat := descClass e.2.desc * 2 ^ 64 + e.2.order

/-- Positions a context takes from its root by FORK; none for a fork rebuilt whole. -/
def ReqCtx.forked (x : ReqCtx) : Bool := descFork x.desc && !x.whole
/-- The first position that a context computes. -/
def ReqCtx.first (x : ReqCtx) : Nat := if x.forked then descNpos x.desc else 0
/-- End of the prompt. -/
def ReqCtx.promptEnd (x : ReqCtx) : Nat := descNpos x.desc + descLen x.desc
/-- End of what prefill passes carry: the prompt, or what is replayed (R511). -/
def ReqCtx.prefillEnd (x : ReqCtx) : Nat := max x.promptEnd x.replay
/-- The length that a request may reach. -/
def ReqCtx.ltot (x : ReqCtx) : Nat := x.promptEnd + descMax x.desc

/-- The pass of a position samples: the last prompt position of a context that is not a root (R359, R363). -/
def ReqCtx.samplesAt (x : ReqCtx) (pos : Nat) : Bool :=
  decide (pos + 1 = x.promptEnd) && !descRoot x.desc && decide (x.replay ≤ pos)

def State.setCtxState (s : State) (p x st : Nat) : State := s.set F.srvCtx.state (Ix.mod p x) st

/-! ## Frames and classes (R357-R360, R398, R245) -/

/-- Entries of the frame (R357). -/
def State.frameN (s : State) (p : Nat) : Nat := s.get F.srvFrameCfg0.nent (Ix.mod p)
/-- Stitches of an entry (R357). -/
def State.entSt (s : State) (p : Nat) : Nat := s.get F.srvFrameCfg0.ent_st (Ix.mod p)
/-- Stitches of the frame (R357). -/
def State.frameSt (s : State) (p : Nat) : Nat := s.get F.srvFrameCfg0.frame_st (Ix.mod p)
/-- NL of the frame (R357). -/
def State.frameNl (s : State) (p : Nat) : Nat := s.get F.srvFrameCfg0.nl (Ix.mod p)

/-- F_0: activation stitch of the active harness plus RESUME_ST. -/
def State.frame0 (s : State) (p : Nat) : Nat :=
  s.get F.hrnActAt.stitch (Ix.mod p) + ((Map.find s.active p).map fun h => h.resume).getD 0

/-- Start stitch of global entry g. -/
def State.entryStart (s : State) (p g : Nat) : Nat :=
  s.frame0 p + g / s.frameN p * s.frameSt p + s.entSt p * (g % s.frameN p)

/-- First entry that starts at or after a stitch. -/
def State.entryFrom (s : State) (p t : Nat) : Nat :=
  if t ≤ s.frame0 p then 0
  else
    let d := t - s.frame0 p
    let f := d / s.frameSt p
    let j := (d % s.frameSt p + s.entSt p - 1) / s.entSt p
    if s.frameN p ≤ j then (f + 1) * s.frameN p else f * s.frameN p + j

/-- Valid classes. -/
def State.classes (s : State) (p : Nat) : List Nat := (List.range 16).filter fun k => s.bit F.srvCls.valid (Ix.mod p k)

/-- B of a class (R358). -/
def State.clsB (s : State) (p k : Nat) : Nat := s.get F.srvCls.b_m1 (Ix.mod p k) + 1
/-- Z of a class (R358). -/
def State.clsZ (s : State) (p k : Nat) : Nat := s.get F.srvCls.z (Ix.mod p k)
/-- S of a class (R358). -/
def State.clsS (s : State) (p k : Nat) : Nat := s.get F.srvCls.s_st (Ix.mod p k)
/-- Shift of a class. -/
def State.clsD (s : State) (p k : Nat) : Nat := (s.clsS p k - s.get F.srvFrameCfg0.s1_st (Ix.mod p)) / s.entSt p

/-- Smallest N_A of the partition's attention sets. -/
def State.minNa (s : State) (p : Nat) : Nat :=
  ((s.lanes p).map s.laneNa).foldl (fun m n => if m = 0 then n else min m n) 0

/-- Largest count of a seat's spilled blocks in one lane. -/
def State.spillCount (s : State) (p σ : Nat) : Nat :=
  (s.lanes p).foldl (fun m l => max m ((s.seatSlots l σ).filter fun k => s.bit F.coreKvfRoleSlot.loc (l.ix k)).length) 0

/-- Serving class of a pass whose append makes the seat `len` long: the smallest B that suffices; with spilled blocks the
smallest S among those whose Z is enough (R245, R358). -/
def State.passClass (s : State) (p σ len : Nat) : Option Nat :=
  let ok := (s.classes p).filter fun k => decide ((len + 63) / 64 ≤ s.clsB p k * max 1 (s.minNa p))
  let z := s.spillCount p σ
  if z = 0 then (sortOn (fun k => s.clsB p k * 2 ^ 16 + s.clsS p k) ok).head?
  else (sortOn (fun k => s.clsS p k) (ok.filter fun k => decide (z ≤ s.clsZ p k))).head?

/-- An entry is usable: its bit of USABLE is 1 and no digest frame frees it. -/
def State.usable (s : State) (p g : Nat) : Bool :=
  let j := g % s.frameN p
  let per := s.get F.srvFrameDig.dper_fr (Ix.mod p)
  let dent := s.get F.srvFrameDig.dent (Ix.mod p)
  (s.get F.srvFrameUsable.mask (Ix.mod p (j / 64))).testBit (j % 64) &&
    !(decide (per ≠ 0) && decide (g / s.frameN p % per = s.get F.srvFrameDig.dfr (Ix.mod p)) && decide (dent ≤ j) && decide (j ≤ dent + 6))

/-- Physical die of a virtual die of a partition's harness. -/
def State.vdDie (s : State) (p vd : Nat) : Option Nat :=
  (s.tack.find? fun e => decide (e.1.part = p) && decide (e.1.vd = vd)).map fun e => e.2.die.val

/-- Die whose sampler serves LM-head entry e. -/
def State.entrySampler (s : State) (p e : Nat) : Option Nat := s.vdDie p (s.get F.srvFrameSmp.vd (Ix.mod p (e % s.frameN p)))

/-- Two passes want one entry of a stage. -/
def State.passClash (s : State) (p g k : Nat) (samples : Bool) (q : Pass) : Bool :=
  let nl := s.frameNl p
  ((List.range nl).any fun n =>
    let a := g + n * s.clsD p k
    let b := q.entry + n * s.clsD p q.cls
    decide (a < b + s.clsB p q.cls) && decide (b < a + s.clsB p k)) ||
    (samples && q.samples && decide (g + nl * s.clsD p k = q.entry + nl * s.clsD p q.cls))

/-- R359: a pass of class k may be placed at g. -/
def State.fits (s : State) (p g k : Nat) (samples : Bool) (die : Nat) : Bool :=
  let nl := s.frameNl p
  ((List.range nl).all fun n => (List.range (s.clsB p k)).all fun b => s.usable p (g + n * s.clsD p k + b)) &&
    (!samples || (s.usable p (g + nl * s.clsD p k) && decide (s.entrySampler p (g + nl * s.clsD p k) = some die))) &&
    !(((s.passes ++ s.released).filter fun q => decide (q.part = p)).any (s.passClash p g k samples))

/-- First entry from g on that satisfies a condition, within n entries. -/
def firstFit (ok : Nat → Bool) (g : Nat) : Nat → Option Nat
  | 0 => none
  | n + 1 => if ok g then some g else firstFit ok (g + 1) n

/-- Entries from g on past which placement repeats itself: to the last one any pass occupies, then a whole period of usable and
digest frames. -/
def State.searchSpan (s : State) (p g : Nat) : Nat :=
  let last := ((s.passes ++ s.released).filter fun q => decide (q.part = p)).foldl (fun m q => max m (q.entry + s.frameNl p * s.clsD p q.cls + s.clsB p q.cls)) 0
  (last - g) + s.frameN p * (s.get F.srvFrameDig.dper_fr (Ix.mod p) + 2)

/-- Place a pass at entry g with the times of R360. -/
def placePass (p x g k pos : Nat) (samples reserved : Bool) (s : State) : State :=
  let P := s.entryStart p g
  let t := P + s.frameNl p * s.clsS p k
  let q : Pass :=
    { id := s.passSeq, part := p, ctx := x, seat := s.ctxSeat p x, pos := pos, entry := g, cls := k, start := P
      fin := (if samples then t + s.get F.srvFrameCfg1.slm_st (Ix.mod p) else t) - 1
      endAt := if samples then t + s.get F.srvFrameCfg1.eofs_st (Ix.mod p) else t
      samples := samples, reserved := reserved }
  { s with passes := s.passes ++ [q], passSeq := s.passSeq + 1 }

/-! ## When passes start (R341, R342, R382, R251, R508) -/

/-- The partition has a serving setup. -/
def State.hasFrames (s : State) (p : Nat) : Bool :=
  (Map.find s.active p).isSome && decide (s.frameN p ≠ 0) && decide (s.frameSt p ≠ 0) && decide (s.entSt p ≠ 0) && !(s.classes p).isEmpty

/-- A halt holds the serving unit: from s_f to its resumption. -/
def State.servHeld (s : State) (p : Nat) : Bool :=
  match Map.find s.servHalt p with
  | some h => !h.resumed
  | none => (Map.find s.halts p).isSome

/-- The partition's dies are in ember mode (R513). -/
def State.partEmber (s : State) (p : Nat) : Bool := (s.diesOf p).any s.dieEmber

/-- Passes may start. -/
def State.serving (s : State) (p : Nat) : Bool :=
  s.hasFrames p && s.bit F.srvCfg.en (Ix.mod p) && !s.servHeld p && !s.partEmber p && decide (Map.getD s.pauseUntil p 0 ≤ s.stitch) &&
    !((Map.find s.swaps p).any fun w => w.committed && decide (s.stitch < w.at_))

/-- A command that copies blocks of the seat has not completed. -/
def State.seatCopying (s : State) (p σ : Nat) : Bool :=
  (s.kvCmds.any fun c => decide (c.part = p) && decide (3 ≤ c.op) && (decide (c.seat = σ ∧ c.op ≠ kvFork) || decide (c.seat2 = σ ∧ c.op = kvFork))) ||
    s.kvJobs.any fun j => decide (j.part = p) && decide (j.seat = σ)

/-- The context's ring is stalled (R382). -/
def State.ctxStalled (s : State) (p : Nat) (x : ReqCtx) : Bool := s.ringStalled p (descRing x.desc)

/-- Passes of a context. -/
def State.ctxPasses (s : State) (p x : Nat) : List Pass := s.passes.filter fun q => decide (q.part = p) && decide (q.ctx = x)

/-- Reserve a generation pass at the earliest entry at or after a stitch that fits (R361).  [DEDUCED, log 132] -/
def reserveNext (p x pos from_ : Nat) (s : State) : State :=
  match s.ctx p x with
  | none => s
  | some c =>
    if ¬ s.serving p ∨ s.ctxStalled p c ∨ s.seatCopying p (s.ctxSeat p x) then s
    else match s.passClass p (s.ctxSeat p x) (pos + 1) with
      | none => s
      | some k =>
        let g0 := s.entryFrom p (max from_ (s.stitch + 1))
        match firstFit (fun g => s.fits p g k true (s.get F.srvCtx.smpdie (Ix.mod p x))) g0 (s.searchSpan p g0) with
        | none => s
        | some g => placePass p x g k pos true true s

/-- GENERATE contexts without a pass are placed, in the order of their last entries (R364). -/
def placeStreams (p : Nat) (s : State) : State :=
  forAll (sortOn (fun e => e.2.lastEntry) (s.ctxsIn p cGenerate)) (fun e s =>
    if (s.ctxPasses p e.1).isEmpty then reserveNext p e.1 e.2.len e.2.ret s else s) s

/-- Stream admission is withheld (R366, Table 11.4).  [DEDUCED, log 137] -/
def State.withheld (s : State) (p : Nat) : Bool :=
  let promoted := (s.ctxsIn p cPrefill).any (fun e => e.2.promoted.isSome) || decide (Map.find s.promoEnd p = some s.stitch)
  let u := ((List.range (s.frameN p)).filter fun j => (s.get F.srvFrameUsable.mask (Ix.mod p (j / 64))).testBit (j % 64)).length
  let now := s.entryFrom p s.stitch / s.frameN p
  let entries := (s.passes.filter fun q => decide (q.part = p) && q.reserved).flatMap fun q =>
    (List.range (s.clsB p q.cls)).map fun b => (q.entry + b) / s.frameN p
  promoted && entries.any fun f => decide (now ≤ f) && decide (u - (u + 7) / 8 < (entries.filter fun e => decide (e = f)).length)

/-- SRV.STAT as read: the contexts, and what holds the unit; STALL is kept as rings stall. -/
def State.serveStat (s : State) (p stored : Nat) : Nat :=
  let b := putBits stored F.srvStat.active.lo F.srvStat.active.width (s.partCtxs p).length
  let b := putBits b F.srvStat.gen.lo F.srvStat.gen.width (min (s.ctxsIn p cGenerate).length 1023)
  let b := putBits b F.srvStat.withhold.lo 1 (boolNat (s.withheld p))
  putBits b F.srvStat.paused.lo 1 (boolNat (!s.serving p))

/-! ## The end of a request (R375, R511) -/

/-- RESUME (Table 16.11) once every context of the partition has been resumed, rebuilt or ended. -/
def checkResume (p : Nat) (s : State) : State :=
  match Map.find s.servHalt p with
  | none => s
  | some h =>
    if h.resumed ∧ ¬ ((s.partCtxs p).any fun e => e.2.rebuild) then
      { s with servHalt := Map.del s.servHalt p }.emit 0x0014 0 31 (some p) [(s.stitch, 64), (p, 3), (h.haltAt, 64), (boolNat h.viaSwap, 1),
        (h.kept, 13), (h.rebuilt, 13), (h.ended, 13), (h.dropped, 16)]
    else s

/-- A context leaves the list of those that await a rebuild. -/
def endRebuild (p : Nat) (ended : Bool) (s : State) : State :=
  let ix := Ix.mod p
  let s := s.set F.srvFaultCnt.pending ix (s.get F.srvFaultCnt.pending ix - 1)
  let s := if ended then s else s.inc F.srvFaultCnt.rebuilt ix
  match Map.find s.servHalt p with
  | none => s
  | some h => { s with servHalt := Map.put s.servHalt p (if ended then { h with ended := h.ended + 1 } else { h with rebuilt := h.rebuilt + 1 }) }

/-- Leaving PREFILL ends a promotion. -/
def leavePrefill (p x : Nat) (s : State) : State :=
  match s.ctx p x with
  | none => s
  | some c =>
    if c.promoted.isSome then
      { s with promoEnd := Map.put s.promoEnd p s.stitch }.setCtx p x { c with promoted := none } |>.set F.srvCtx.promoted (Ix.mod p x) 0
    else s

/-- Where the record of a refusal goes: ring RING, or ring 0 where that is not enabled (R352). -/
def State.refusalRing (s : State) (p : Nat) (d : List Byte) : Nat × Bool :=
  (if s.bit F.srvRingCfg.en (Ix.mod p (descRing d)) then descRing d else 0, false)

/-- A request ends: its completion record, CLOSING, SEAT_FREE at the earliest stitch; a seat the clear has emptied is not freed
again. -/
def finishCtx (p x status detail fin : Nat) (freeSeat : Bool) (s : State) : State :=
  let s := if s.ctxState p x = cPrefill then leavePrefill p x s else s
  match s.ctx p x with
  | none => s
  | some c =>
    let ix := Ix.mod p x
    let flags := boolNat c.tableFull + 2 * boolNat c.candShort + 4 * boolNat c.ttftMiss + 8 * boolNat c.tbtMiss + 16 * boolNat c.lost
    let out := if status = 6 then s.refusalRing p c.desc else (descRing c.desc, descEth c.desc)
    let s := (putRecord p out.1 out.2 (completionRecord status x (s.get F.srvCtx.delivered ix) (descTag c.desc) detail flags
      (c.ttft.getD 0xFFFFFFFF) fin) s).2
    let s := releasePasses p (fun y => decide (y = x)) s
    let s := s.setCtxState p x cClosing
    let s := if c.rebuild then checkResume p (endRebuild p true (s.setCtx p x { c with rebuild := false })) else s
    let c := { c with rebuild := false }
    if c.admitted ∧ freeSeat then
      let q := kvSubmit true p kvSeatFree (s.ctxSeat p x) 0 0 0 0 s
      if q.1 = 0 then q.2.setCtx p x c else q.2.setCtx p x { c with closedAt := some s.stitch }
    else s.setCtx p x { c with closedAt := some s.stitch }

/-- CLOSING contexts whose SEAT_FREE has taken effect, or that held no seat one stitch ago, become FREE. -/
def freeClosed (p : Nat) (s : State) : State :=
  forAll (s.ctxsIn p cClosing) (fun e s =>
    let σ := s.ctxSeat p e.1
    let gone := match e.2.closedAt with
      | some t => decide (t < s.stitch)
      | none => !s.bit F.srvKvLen.active (Ix.mod p σ) && !(s.kvCmds.any fun c => decide (c.part = p) && (decide (c.seat = σ) || decide (c.seat2 = σ)))
    if gone then
      { s with ctxs := Map.del s.ctxs (p, e.1) }.sets (Ix.mod p e.1) [(F.srvCtx.state, 0), (F.srvCtx.seat, 0), (F.srvCtx.smpdie, 0), (F.srvCtx.class_, 0)]
    else s) s

/-- Admitted contexts whose SEAT_OPEN and FORK have completed enter PREFILL (R354). -/
def enterReady (p : Nat) (s : State) : State :=
  forAll ((s.ctxsIn p cQueued).filter fun e => e.2.admitted) (fun e s =>
    let σ := s.ctxSeat p e.1
    if s.bit F.srvKvLen.active (Ix.mod p σ) ∧ ¬ (s.kvCmds.any fun c => decide (c.part = p) && (decide (c.seat = σ) || decide (c.seat2 = σ ∧ c.op = kvFork))) ∧
        ¬ s.seatCopying p σ then
      let done_ := e.2.rebuild && decide (e.2.replay ≤ e.2.first)
      let s := (s.setCtxState p e.1 cPrefill).setCtx p e.1
        { e.2 with entered := s.stitch, booked := e.2.first, len := e.2.first, rebuild := e.2.rebuild && !done_ }
      if done_ then checkResume p (endRebuild p false s) else s
    else s) s

/-! ## Submission (R350-R353) -/

/-- SUBQ_TAIL_WRITE: the host has written descriptors. -/
def subqTailWrite (p : PartIx) (v : Nat) (s : State) : State := s.set F.srvSubqTail.tail (Ix.mod p) v

def execSubqTailWrite (p : PartIx) (v : Word32) (s : State) : Host.Outcome State Fault Refusal := done (subqTailWrite p v.toNat s)

/-- Token IDs the prompt store holds: room for the longest prompt, and beyond it what the implementation gives.  [DESIGN CHOICE, log 73] -/
def promptStore : Nat := 65535 + Config.freeNat 60 0

/-- IDs in the store: prompts and generated tokens of contexts, and prompts being copied. -/
def State.storeUsed (s : State) (p : Nat) : Nat :=
  ((s.partCtxs p).map fun e => e.2.prompt.length + e.2.gen.length).sum +
    ((s.promptCopies.filter fun c => decide (c.part = p)).map fun c => descLen c.desc).sum

/-- Address lies in the stacked memory of a die of the partition. -/
def State.ownStack (s : State) (p a n : Nat) : Bool :=
  decide (addrSpace a = 2) && s.addressOk a n && decide (s.partOf (addrDie a) = some p)

/-- DESCRIPTOR_READ: the next descriptor in queue order, one a stitch, once its prompt fits the store.  `raw` is what the read
of host memory returned. -/
def descriptorRead (p : PartIx) (raw : List Byte) (s : State) : State :=
  let ix := Ix.mod p
  let out := (s.promptCopies.filter fun c => decide (c.part = p.val)).length
  let next := (s.get F.srvSubqHead.head ix + out) % 2 ^ 32
  if ¬ s.bit F.srvCfg.en ix ∨ s.partEmber p ∨ next = s.get F.srvSubqTail.tail ix ∨ Map.find s.descAt p.val = some s.stitch then s
  else
    let a := s.get F.srvSubqBase.addr ix + 512 * (next % 2 ^ s.get F.srvSubqCfg.size_log2 ix)
    let d := if s.bit F.srvSubqCfg.space ix ∧ s.ownStack p a 512 then s.bytes a 512 else raw
    if promptStore < s.storeUsed p + descLen d ∧ s.storeUsed p ≠ 0 then s
    else { s with promptCopies := s.promptCopies ++ [⟨p, d⟩], descAt := Map.put s.descAt p.val s.stitch }

def execDescriptorRead (p : PartIx) (raw : List Byte) (s : State) : Host.Outcome State Fault Refusal := done (descriptorRead p raw s)

def finite32 (w : Word32) : Bool := !(FP.ofBits w).isNaN && !(FP.ofBits w).isInf

/-- Order of finite FP32 values: the magnitude with its sign; no value counts as another. -/
def f32Key (w : Word32) : Int := let m : Int := w.toNat % 2 ^ 31; if w.toNat < 2 ^ 31 then m else -m

/-- A finite value at or above a bound. -/
def atLeast32 (w lo : Word32) : Bool := finite32 w && decide (f32Key lo ≤ f32Key w)

/-- FIELD of Table 11.3. -/
def fieldBad (d : List Byte) : Bool :=
  decide (4096 ≤ descCtx d) || decide (2 ^ 13 ≤ descCtl d) || (descRoot d && descFork d) || (!descFork d && decide (descParent d ≠ 0)) ||
    decide (descAddr d % 4 ≠ 0) || decide (descLen d = 0 ∨ 65535 < descLen d) || (if descFork d then decide (descNpos d = 0) else decide (descNpos d ≠ 0)) ||
    (if descRoot d then decide (descMax d ≠ 0) else decide (descMax d = 0 ∨ 65535 < descMax d)) ||
    !atLeast32 (descF32 d 0x24) f32Zero || !(decide (0 < f32Key (descF32 d 0x28)) && decide (f32Key (descF32 d 0x28) ≤ f32Key 0x3F800000#32)) ||
    decide (256 < descTopK d) || decide (16 < descNstop d) || !atLeast32 (descF32 d 0x30) 0x3F800000#32 || !atLeast32 (descF32 d 0x34) f32Zero ||
    !atLeast32 (descF32 d 0x38) f32Zero || ((List.range 4).any fun i => decide (8 < descSeqlen d i)) ||
    decide (leNat d 0x2F 1 ≠ 0 ∨ leNat d 0x48 56 ≠ 0 ∨ leNat d 0x140 192 ≠ 0)

/-- LMAX (R356). -/
def State.lmax (s : State) (p : Nat) : Nat := ((s.classes p).map (s.clsB p)).foldl max 0 * s.minNa p * 64

/-- The root a descriptor names, if it is one that may be forked. -/
def State.rootOf (s : State) (p : Nat) (d : List Byte) : Option ReqCtx :=
  (s.ctx p (descParent d)).bind fun r =>
    if descRoot r.desc ∧ [cQueued, cPrefill, cHold].contains (s.ctxState p (descParent d)) then some r else none

/-- Refusal reason of Table 11.3, 0 where none applies: the first in its order. -/
def State.descRefusal (s : State) (p : Nat) (d : List Byte) (ids : List Nat) (status : Nat) : Nat :=
  let vocab := s.get F.srvFrameVocab.vocab (Ix.mod p)
  if descCtx d < 4096 ∧ (s.ctx p (descCtx d)).isSome then 1
  else if fieldBad d then 2
  else if s.lmax p < descNpos d + descLen d + descMax d then 3
  else if descFork d ∧ (s.rootOf p d).all (fun r => decide (descLen r.desc < descNpos d)) then 4
  else if descFork d ∧ 31 ≤ ((s.partCtxs p).filter fun e => descFork e.2.desc && decide (descParent e.2.desc = descParent d) &&
    decide (((s.rootOf p d).map fun r => r.order) = some e.2.rootOrder)).length then 5
  else if (descStopIds d ++ (List.range 4).flatMap (descStopSeq d) ++ (if status = 0 then ids else [])).any fun t => decide (vocab ≤ t) then 6
  else if status ≠ 0 then 7 else 0

/-- A refused request: a completion record, to ring 0 where RING is not enabled. -/
def refuseRequest (p : PartIx) (d : List Byte) (why : Nat) (s : State) : State :=
  let r := s.refusalRing p d
  (putRecord p r.1 r.2 (completionRecord 6 (descCtx d) 0 (descTag d) why 0 0xFFFFFFFF s.stitch) (s.inc F.srvCnt.refused (Ix.mod p))).2

/-- Stream key (R369).  [DEDUCED, log 135] -/
def State.streamKey (s : State) (p : Nat) (d : List Byte) : Nat :=
  if descSeed d ≠ 0 then descSeed d
  else (srgen (BitVec.ofNat 64 (s.get F.srvCfg.seedkey (Ix.mod p))) (BitVec.ofNat 64 (Map.getD s.accepted p 0 - Map.getD s.acceptedAct p 0))).toNat

/-- PROMPT_COPY_DONE: the oldest copy completes, its descriptor is checked, and HEAD advances. -/
def promptCopyDone (p : PartIx) (status : Fin 16) (ids : List Word32) (s : State) : State :=
  match takeFirst (fun c => decide (c.part = p.val)) s.promptCopies with
  | none => s
  | some (c, rest) =>
    let d := c.desc
    let n := descLen d
    let own := decide (descPspace d = 1) && s.ownStack p (descAddr d) (4 * n)
    let bs := s.bytes (descAddr d) (4 * n)
    let ids := if own then (List.range n).map fun k => leNat bs (4 * k) 4
      else ((ids.take n).map fun w => w.toNat) ++ List.replicate (n - ids.length) 0
    let st := if own then (if (s.ueIn (descAddr d) (4 * n)).isSome then xEccUe else xOk) else status.val
    let why := s.descRefusal p d ids st
    let s := { s with promptCopies := rest }.incWrap F.srvSubqHead.head (Ix.mod p)
    if why ≠ 0 then refuseRequest p d why s
    else
      let x := descCtx d
      let n := Map.getD s.accepted p.val 0
      let c : ReqCtx :=
        { desc := d, prompt := ids, order := n + 1, key := s.streamKey p d
          rootOrder := ((s.rootOf p d).map fun r => r.order).getD 0 }
      let s := { s with accepted := Map.put s.accepted p.val (n + 1) }.setCtx p x c
      (s.sets (Ix.mod p x) [(F.srvCtx.state, cQueued), (F.srvCtx.promoted, 0), (F.srvCtx.delivered, 0), (F.srvCtx.accept, s.stitch)])

def execPromptCopyDone (p : PartIx) (status : Fin 16) (ids : List Word32) (s : State) : Host.Outcome State Fault Refusal :=
  done (promptCopyDone p status ids s)

/-! ## Seat admission (R354, R355, R367) -/

/-- Own blocks a lane will hold for a context (R355). -/
def State.reservation (s : State) (l : Lane) (x : ReqCtx) : Nat :=
  let n := idxBelow (s.laneNa l) (s.laneIdx l)
  n ((x.ltot + 63) / 64) - (if x.forked then n (descNpos x.desc / 64) else 0)

/-- Part of an admitted context's reservation that its seat does not use yet. -/
def State.unusedOf (s : State) (l : Lane) (p x : Nat) (c : ReqCtx) : Nat :=
  s.reservation l c - (if s.bit F.srvKvLen.active (Ix.mod p (s.ctxSeat p x)) then (s.ownSlots l (s.ctxSeat p x)).length else 0)

/-- Slots free in a lane: an own block needs a slot entry and a home. -/
def State.poolFree (s : State) (l : Lane) : Nat := min (s.get F.coreKvfRoleFree.count l.ix) (s.homes l).length

/-- Every lane has the blocks that a request reserves (R355). -/
def State.reservationFits (s : State) (p : Nat) (x : ReqCtx) : Bool :=
  let adm := (s.partCtxs p).filter fun e => e.2.admitted
  (s.lanes p).all fun l => decide ((adm.map fun e => s.unusedOf l p e.1 e.2).sum + s.reservation l x ≤ s.poolFree l)

/-- A seat no context holds and none has open.  [DESIGN CHOICE, log 129] -/
def State.freeSeat (s : State) (p : Nat) : Option Nat :=
  let m := s.kvMirror p
  (List.range 512).find? fun σ => !m.bit F.srvKvLen.active (Ix.mod p σ) && !((s.partCtxs p).any fun e => e.2.admitted && decide (s.ctxSeat p e.1 = σ))

/-- Dies that SRV.FRAME.SMP names, lowest first.  [DEDUCED, log 139] -/
def State.samplerDies (s : State) (p : Nat) : List Nat :=
  (List.range 24).filter fun d => (List.range (s.frameN p)).any fun j => decide (s.entrySampler p j = some d)

/-- The sampler with the fewest bound contexts, the lowest die on a tie. -/
def State.pickSampler (s : State) (p : Nat) : Nat :=
  let bound := fun (d : Nat) => ((s.partCtxs p).filter fun e => e.2.admitted && !descRoot e.2.desc && decide (s.get F.srvCtx.smpdie (Ix.mod p e.1) = d)).length
  ((sortOn bound (s.samplerDies p)).head?).getD 31

/-- The root of a fork, while it is the one it named. -/
def State.liveRoot (s : State) (p : Nat) (x : ReqCtx) : Option ReqCtx :=
  (s.ctx p (descParent x.desc)).bind fun r => if r.order = x.rootOrder ∧ s.ctxState p (descParent x.desc) ≠ cClosing then some r else none

/-- Write a context's sampling record from its history: the prompt where PROMPT_CNT is set, the root's first NPOS tokens for a fork,
and the generated tokens (R367, R368, R508); the IDs that found the table full. -/
def writeRecord (p x : Nat) (s : State) : Nat × State :=
  match s.ctx p x with
  | none => (0, s)
  | some c =>
    let root := if descFork c.desc then ((s.ctx p (descParent c.desc)).map fun r => r.prompt.take (descNpos c.desc)).getD [] else []
    let q := countAll ((if descPromptCnt c.desc then root ++ c.prompt else []) ++ c.gen) (List.replicate 2048 0)
    let full := c.tableFull || decide (q.2 ≠ 0)
    let img := recordImage c.desc c.key c.gen full c.candShort q.1
    (q.2, (s.store (s.recAddr (s.get F.srvCtx.smpdie (Ix.mod p x)) x) img).setCtx p x { c with tableFull := full })

/-- Admit one context to a seat: SEAT_OPEN, and FORK for a fork; none where the serving unit's mirror refuses a command. -/
def admitCtx (p x σ : Nat) (c : ReqCtx) (s : State) : Option State :=
  let o := kvSubmit true p kvSeatOpen σ 0 0 0 0 s
  let f := if c.forked then kvSubmit true p kvFork (s.ctxSeat p (descParent c.desc)) σ (descNpos c.desc) 0 0 o.2 else (0, o.2)
  if o.1 ≠ 0 ∨ f.1 ≠ 0 then none
  else
    let die := if descRoot c.desc then 0 else s.pickSampler p
    let s := f.2.sets (Ix.mod p x) [(F.srvCtx.seat, σ), (F.srvCtx.smpdie, die)]
    let s := s.setCtx p x { c with admitted := true, len := c.first, booked := c.first }
    if descRoot c.desc then some s
    else
      let q := writeRecord p x s
      some (if c.rebuild then q.2 else q.2.inc F.smpCnt.full (Ix.stw die) q.1)

/-- A fork that is rebuilt and whose root is gone is rebuilt whole (R511). -/
def State.wholeIfOrphan (s : State) (p : Nat) (c : ReqCtx) : ReqCtx :=
  if c.rebuild ∧ descFork c.desc ∧ (s.liveRoot p c).isNone then { c with whole := true } else c

/-- A context whose reservation no lane's whole pool could meet. -/
def State.neverFits (s : State) (p : Nat) (x : ReqCtx) : Bool :=
  (s.lanes p).any fun l => decide (min (s.get F.coreKvfRoleCfg0.nslot l.ix) (s.get F.coreKvfRoleCfg1.nhome l.ix) < s.reservation l x)

/-- What admission does with a QUEUED context: refuse PARENT_GONE, end a rebuild that cannot fit, admit it, or nothing.  [DEDUCED, log 133] -/
def tryAdmit (p : Nat) (e : Nat × ReqCtx) (s : State) : Option State :=
  let c := s.wholeIfOrphan p e.2
  if c.forked ∧ (s.liveRoot p c).isNone then
    some (finishCtx p e.1 6 8 (s.get F.srvCtx.accept (Ix.mod p e.1)) true (s.inc F.srvCnt.refused (Ix.mod p)))
  else if c.rebuild ∧ s.neverFits p c then
    some (finishCtx p e.1 5 5 s.stitch true (s.inc F.srvFaultCnt.ended (Ix.mod p)))
  else if c.forked ∧ s.ctxState p (descParent c.desc) ≠ cHold then none
  else match s.freeSeat p with
    | none => none
    | some σ => if s.reservationFits p c then admitCtx p e.1 σ c s else none

/-- The first of a list on which an attempt succeeds. -/
def firstDone {α : Type} (f : α → State → Option State) (s : State) : List α → Option State
  | [] => none
  | x :: xs => match f x s with
    | some t => some t
    | none => firstDone f s xs

/-- SEAT_ADMISSION: the first QUEUED context, in ascending LCLASS and acceptance order, that can be admitted. -/
def seatAdmission (p : PartIx) (s : State) : State :=
  if ¬ s.hasFrames p ∨ ¬ s.bit F.srvCfg.en (Ix.mod p) ∨ s.servHeld p ∨ s.partEmber p then s
  else
    let waiting := sortOn classOrder ((s.ctxsIn p cQueued).filter fun e => !e.2.admitted)
    ((firstDone (tryAdmit p) s waiting).getD s)

def execSeatAdmission (p : PartIx) (s : State) : Host.Outcome State Fault Refusal := done (seatAdmission p s)

/-! ## KV commands' effects (R250, R251) -/

/-- KV_COMMAND_EFFECT: the oldest accepted command that is due takes effect; contexts it was for move on. -/
def kvCommandEffect (p : PartIx) (s : State) : State :=
  match s.kvDue p with
  | none => s
  | some cmd => (freeClosed p (enterReady p (kvApply cmd s)))

def execKvCommandEffect (p : PartIx) (s : State) : Host.Outcome State Fault Refusal := done (kvCommandEffect p s)

/-- KV_COPY_DONE: block copy i completes. -/
def kvCopyEnd (i : Nat) (e : ReadEcc) (s : State) : State :=
  match s.kvJobs[i]? with
  | none => s
  | some j => (enterReady j.part (kvCopyDone i e s))

def execKvCopyDone (i : Nat) (e : ReadEcc) (s : State) : Host.Outcome State Fault Refusal := done (kvCopyEnd i e s)

/-! ## Booking and admission of streams (R361, R362, R365, R366) -/

/-- Admit a WAIT_ADMIT context: it enters GENERATE, and its first generation pass is placed (R365). -/
def admitStream (p : Nat) (e : Nat × ReqCtx) (s : State) : State := reserveNext p e.1 e.2.len e.2.ret (s.setCtxState p e.1 cGenerate)

/-- WAIT_ADMIT contexts, in the order in which their last prompt passes were placed (R365).  [DEDUCED, log 214] -/
def State.waiting (s : State) (p : Nat) : List (Nat × ReqCtx) := sortOn (fun e => e.2.lastPrompt) (s.ctxsIn p cWait)

/-- WAIT_ADMIT contexts are admitted, one after another, while admission is not withheld. -/
def admitWaiting (p : Nat) (s : State) : State := forAll (s.waiting p) (fun e s => if s.withheld p then s else admitStream p e s) s

/-- PREFILL contexts PROMOTE_FR frames after entering (R366). -/
def promoteCtx (p x : Nat) (s : State) : State :=
  match s.ctx p x with
  | none => s
  | some c =>
    if s.ctxState p x ≠ cPrefill ∨ c.promoted.isSome ∨ s.stitch < c.entered + s.get F.srvCfg.promote_fr (Ix.mod p) * s.frameSt p then s
    else ((s.setCtx p x { c with promoted := some s.stitch }).inc F.srvCnt.promoted (Ix.mod p)).set F.srvCtx.promoted (Ix.mod p x) 1

/-- Book one prefill position of a context at entry g, if it fits there; of a last prompt position, promotions of the stitch and the
admission of contexts that wait come first (R365, Table 11.4). -/
def bookAt (p g : Nat) (e : Nat × ReqCtx) (s : State) : Option State :=
  let x := e.2
  let σ := s.ctxSeat p e.1
  if x.prefillEnd ≤ x.booked ∨ s.ctxStalled p x ∨ s.seatCopying p σ then none
  else
    let smp := x.samplesAt x.booked
    match s.passClass p σ (x.booked + 1) with
    | none => none
    | some k =>
      if ¬ s.fits p g k smp (s.get F.srvCtx.smpdie (Ix.mod p e.1)) then none
      else
        let s := if smp then admitWaiting p (forAll (s.ctxsIn p cPrefill) (fun e s => promoteCtx p e.1 s) s) else s
        let x := (s.ctx p e.1).getD x
        let grant := smp && !s.withheld p
        let s := (placePass p e.1 g k x.booked smp false s).setCtx p e.1
          { x with booked := x.booked + 1, granted := grant, lastPrompt := if smp then s.passSeq else x.lastPrompt }
        let ret := s.entryStart p g + s.frameNl p * s.clsS p k + s.get F.srvFrameCfg1.slm_st (Ix.mod p)
        some (if grant then reserveNext p e.1 (x.booked + 1) ret s else s)

/-- Order of booking: promoted jobs, oldest promotion first, then ascending LCLASS and acceptance order. -/
def State.bookOrder (s : State) (p : Nat) : List (Nat × ReqCtx) :=
  let pre := s.ctxsIn p cPrefill
  sortOn (fun e => (e.2.promoted.getD 0) * 2 ^ 64 + e.2.order) (pre.filter fun e => e.2.promoted.isSome) ++
    sortOn classOrder (pre.filter fun e => e.2.promoted.isNone)

/-- PREFILL_BOOKING: BOOK_LEAD before an entry starts its prefill pass is booked; streams without a pass are placed first. -/
def prefillBooking (p : PartIx) (s : State) : State :=
  let lead := s.get F.srvFrameCfg1.book_lead (Ix.mod p)
  let g := s.entryFrom p (s.stitch + lead)
  if ¬ s.serving p ∨ s.entryStart p g ≠ s.stitch + lead ∨ g < Map.getD s.nextBook p.val 0 then s
  else
    let s := placeStreams p { s with nextBook := Map.put s.nextBook p.val (g + 1) }
    ((firstDone (bookAt p g) s (s.bookOrder p)).getD s)

def execPrefillBooking (p : PartIx) (s : State) : Host.Outcome State Fault Refusal := done (prefillBooking p s)

/-- STREAM_ADMISSION: a WAIT_ADMIT context enters GENERATE once admission is no longer withheld. -/
def streamAdmission (p : PartIx) (s : State) : State :=
  if ¬ s.serving p ∨ s.withheld p then s
  else match s.waiting p with
    | [] => s
    | e :: _ => admitStream p e s

def execStreamAdmission (p : PartIx) (s : State) : Host.Outcome State Fault Refusal := done (streamAdmission p s)

/-- PREFILL_PROMOTION: a PREFILL context PROMOTE_FR frames after it entered. -/
def prefillPromotion (p : PartIx) (x : Fin 4096) (s : State) : State := promoteCtx p x s

def execPrefillPromotion (p : PartIx) (x : Fin 4096) (s : State) : Host.Outcome State Fault Refusal := done (prefillPromotion p x s)

/-! ## Passes (R360, R361, R363, R375) -/

/-- PASS_START: a placed pass starts at its stitch, and a generation pass reserves the next; a pass that may not start is
withdrawn, as one is whose seat has since spilled more blocks than its class allows (R358).  [DESIGN CHOICE, log 189] -/
def passStart (id : Nat) (s : State) : State :=
  match s.passes.find? fun q => decide (q.id = id) with
  | none => s
  | some q =>
    match s.ctx q.part q.ctx with
    | none => s
    | some x =>
      if q.started ∨ s.stitch < q.start then s
      else if q.start < s.stitch ∨ ¬ s.serving q.part ∨ s.ctxStalled q.part x ∨ s.seatCopying q.part q.seat ∨
        s.clsZ q.part q.cls < s.spillCount q.part q.seat then
        (releasePasses q.part (fun y => decide (y = q.ctx)) s)
      else
        let s := (s.setPass { q with started := true }).setCtx q.part q.ctx { x with lastEntry := q.entry }
        let s := s.set F.srvCtx.class_ (Ix.mod q.part q.ctx) q.cls
        (if q.reserved then reserveNext q.part q.ctx (q.pos + 1) (q.fin + 1) s else s)

def execPassStart (id : Nat) (s : State) : Host.Outcome State Fault Refusal := done (passStart id s)

/-- The started pass that ends next: in order of its stitch, then of its context (R381); due from the last cycle of that stitch.  [DEDUCED, log 131] -/
def State.passDue (s : State) (p : Nat) (samples : Bool) : Option Pass :=
  (sortOn (fun q => q.endAt * 4096 + q.ctx) (s.passes.filter fun q => decide (q.part = p) && q.started && decide (q.samples = samples) &&
    decide (16 * q.endAt + 15 ≤ s.now))).head?

/-- The halt of a partition, if the stitch is at or after its first fault (R508). -/
def State.haltDrops (s : State) (p t : Nat) : Bool :=
  match Map.find s.servHalt p with
  | some h => !h.resumed && decide (h.sf ≤ t)
  | none => (Map.find s.halts p).any fun h => decide (h.sf ≤ t)

/-- Reason that a pass found its seat BROKEN: the break is at its position or before (R240).  [DEDUCED, log 134] -/
def State.brokenFor (s : State) (q : Pass) (x : ReqCtx) : Option Nat :=
  if x.rebuild ∨ ¬ s.bit F.srvKvLen.broken (Ix.mod q.part q.seat) then none
  else (Map.find s.brokeWhy (q.part, q.seat)).bind fun r => if r.2 ≤ q.pos ∨ r.1 = kvLost then some r.1 else none

/-- Latency times of a token (R376). -/
def tokenTimes (p x emit : Nat) (delivered : Bool) (c : ReqCtx) (s : State) : ReqCtx × State :=
  let cls := descClass c.desc
  let t1 := emit - s.get F.srvCtx.accept (Ix.mod p x)
  let g1 := s.get F.srvLatGoal.ttft_goal (Ix.mod p cls)
  let g2 := s.get F.srvLatGoal.tbt_goal (Ix.mod p cls)
  let miss1 := delivered && c.ttft.isNone && decide (g1 ≠ 0) && decide (g1 < t1)
  let dt := emit - c.lastEmit.getD emit
  let miss2 := decide (g2 ≠ 0) && decide (g2 < dt)
  let s := if miss1 then latViolation p cls emit true t1 s else s
  let s := if miss2 then latViolation p cls emit false dt s else s
  ({ c with ttft := if delivered ∧ c.ttft.isNone then some t1 else c.ttft, lastEmit := some emit
            ttftMiss := c.ttftMiss || miss1, tbtMiss := c.tbtMiss || miss2 }, s)

/-- A drawn token is delivered, or ends the request, or both.  [DESIGN CHOICE, log 130] -/
def deliver (q : Pass) (w : Drawn) (t : Nat) (c : ReqCtx) (s : State) : State :=
  let p := q.part
  let x := q.ctx
  let ix := Ix.mod p x
  let first := decide (s.ctxState p x = cPrefill)
  let s := if first then leavePrefill p x s else s
  let s := if first then s.setCtxState p x (if c.granted then cGenerate else cWait) else s
  let c := { c with promoted := if first then none else c.promoted, gen := c.gen ++ [t], len := q.pos + 1, ret := q.fin + 1
                    candShort := c.candShort || w.short, tableFull := c.tableFull || w.full }
  let hidden := (w.ends.any fun r => decide (r.1 < 2)) && descHide c.desc
  let r := if hidden then (false, s)
    else putRecord p (descRing c.desc) (descEth c.desc) (tokenRecord (decide (c.gen.length = 1)) w.ends.isSome w.short w.full x t (descTag c.desc)
      (q.pos + 1) c.gen.length q.endAt) s
  let s := if r.1 then r.2.set F.srvCtx.delivered ix (s.get F.srvCtx.delivered ix + 1) else r.2
  let c := if hidden ∨ r.1 then c else { c with lost := true }
  let u := tokenTimes p x q.endAt r.1 c s
  let s := u.2.setCtx p x u.1
  match w.ends with
  | some e => finishCtx p x e.1 e.2 q.endAt true s
  | none => s

/-- PASS_EMIT: at its emit stitch a sampling pass hands over its token. -/
def passEmit (p : PartIx) (s : State) : State :=
  match s.passDue p true with
  | none => s
  | some q =>
    match q.drawn with
    | none => s
    | some w =>
      let s := { s with passes := s.passes.filter fun r => decide (r.id ≠ q.id) }
      let got := w.token.isSome
      match s.ctx p q.ctx with
      | none => s
      | some c =>
        let c := { c with ret := q.fin + 1 }
        if s.haltDrops p q.endAt then
          let s := if got then s.inc F.srvFaultCnt.drop (Ix.mod p) else s
          match Map.find s.servHalt p.val with
          | some h => { s with servHalt := Map.put s.servHalt p.val { h with dropped := h.dropped + boolNat got } }
          | none => s
        else if s.ctxState p q.ctx = cClosing then (if got ∧ c.cancelAt.isSome then s.inc F.srvCnt.dropped (Ix.mod p) else s)
        else (match s.brokenFor q c with
          | some why => finishCtx p q.ctx 5 why q.endAt true (s.setCtx p q.ctx c)
          | none => match w.token with
            | none => finishCtx p q.ctx 8 0 q.endAt true (s.setCtx p q.ctx { c with candShort := c.candShort || w.short })
            | some t => deliver q w t c s)

def execPassEmit (p : PartIx) (s : State) : Host.Outcome State Fault Refusal := done (passEmit p s)

/-- PASS_COMPLETE: a pass that does not sample completes; the last one puts a root into HOLD, and ends a replay. -/
def passComplete (p : PartIx) (s : State) : State :=
  match s.passDue p false with
  | none => s
  | some q =>
    let s := { s with passes := s.passes.filter fun r => decide (r.id ≠ q.id) }
    match s.ctx p q.ctx with
    | none => s
    | some c =>
      if s.ctxState p q.ctx = cClosing ∨ s.haltDrops p q.endAt then s
      else match s.brokenFor q c with
        | some why => finishCtx p q.ctx 5 why q.endAt true (s.setCtx p q.ctx { c with ret := q.fin + 1 })
        | none =>
          let rebuilt := c.rebuild && decide (c.replay ≤ q.pos + 1)
          let c := { c with len := q.pos + 1, ret := q.fin + 1, rebuild := c.rebuild && !rebuilt }
          let s := s.setCtx p q.ctx c
          let s := if rebuilt then checkResume p (endRebuild p false s) else s
          if q.pos + 1 = c.prefillEnd ∧ (descRoot c.desc ∨ c.promptEnd ≤ c.replay) then
            ((leavePrefill p q.ctx s).setCtxState p q.ctx (if descRoot c.desc then cHold else cGenerate))
          else s

def execPassComplete (p : PartIx) (s : State) : Host.Outcome State Fault Refusal := done (passComplete p s)

/-! ## Cancel and release (R375, R378, R379) -/

/-- A request command is written; the serving unit accepts it at the next stitch boundary. -/
def requestCommand (p x op : Nat) (s : State) : State :=
  { s with reqQ := s.reqQ ++ [(p, x, op)] }.sets (Ix.mod p) [(F.srvReqCmd.ctx, x), (F.srvReqCmd.op, op)]

def execCancel (p : PartIx) (x : Fin 4096) (s : State) : Host.Outcome State Fault Refusal := done (requestCommand p x 1 s)

def execRelease (p : PartIx) (x : Fin 4096) (s : State) : Host.Outcome State Fault Refusal := done (requestCommand p x 2 s)

/-- Acceptance in stitch A: DONE for a context in CLOSING or FREE, NOT_ROOT for a release of another than a HOLD root. -/
def acceptRequest (r : Nat × Nat × Nat) (s : State) : State :=
  let p := r.1
  let x := r.2.1
  let status := if (s.ctx p x).isNone ∨ s.ctxState p x = cClosing then 1 else if r.2.2 = 2 ∧ s.ctxState p x ≠ cHold then 2 else 0
  let s := s.sets (Ix.mod p) [(F.srvReqResult.status, status), (F.srvReqResult.a_lo, s.stitch)]
  match s.ctx p x with
  | none => s
  | some c =>
    if status ≠ 0 then s
    else (if r.2.2 = 1 then finishCtx p x 4 0 s.stitch true (s.setCtx p x { c with cancelAt := some s.stitch })
      else finishCtx p x 3 0 s.stitch true s)

/-- What the serving units do at a stitch boundary: contexts that held no seat become FREE, request commands are accepted. -/
def serveBoundary (s : State) : State :=
  let s := { s with released := s.released.filter fun q => decide (s.stitch ≤ q.fin) }
  let s := forAll ((List.range 8).filter fun p => s.ctxs.any fun e => decide (e.1.1 = p)) (fun p s => freeClosed p s) s
  let q := s.reqQ
  forAll q acceptRequest { s with reqQ := [] }

/-! ## Pauses and the tenant clear (R342, R364, R375) -/

/-- PAUSE_START: from P = T − DRAIN_ST of a paused swap no pass starts; every context is kept. -/
def pauseStart (p : PartIx) (s : State) : State :=
  match Map.find s.swaps p.val, Map.find s.active p.val with
  | some w, some h =>
    if w.paused ∧ ¬ w.cut ∧ w.at_ ≤ s.stitch + h.drain ∧ s.stitch < w.at_ then
      (releasePasses p (fun _ => true) { s with pauseUntil := Map.put s.pauseUntil p.val w.at_ })
    else s
  | _, _ => s

def execPauseStart (p : PartIx) (s : State) : Host.Outcome State Fault Refusal := done (pauseStart p s)

/-- A tenant clear ends every context ABORTED at the clear stitch; its passes are gone. -/
def abortAll (p : Nat) (s : State) : State :=
  let s := { s with passes := s.passes.filter fun q => decide (q.part ≠ p) }
  (forAll ((s.partCtxs p).filter fun e => decide (s.ctxState p e.1 ≠ cClosing)) (fun e s => finishCtx p e.1 7 0 s.stitch false s) s)

end Sys2Proof.Machine
end

