-- ==== Sys2Proof/Machine/Swap.lean ====
section
/-!
DEFINITION. Partitions (R320), tenant clears (R284, R285, R310), harness swaps and activation (R337-R344), launches (R343), the
writing of arrays (R391, R392) and partition halts (R190-R193, R508).
-/

namespace Sys2Proof.Machine
open Sys2Proof

def dieIx? (d : Nat) : Option DieIx := if h : d < 24 then some ⟨d, h⟩ else none

/-- Drop the register-file entries that satisfy a condition: their fields read their reset values. -/
def State.dropRegs (s : State) (f : FKey → Bool) : State := { s with regs := s.regs.filter fun e => !f e.1 }

/-- Cores of some dies whose sequencer is not IDLE. -/
def State.busyCores (s : State) (ds : List Nat) : List CoreId :=
  (s.regs.filter fun e => decide (e.1.reg = .coreSeqTask ∧ e.1.lo = 12 ∧ e.2 ≠ 0) && ds.contains e.1.ix.die).filterMap fun e => coreOfIx e.1.ix

/-! ## Partition halt (R190-R193, R508) -/

/-- A halt cancels a swap asked at or before its first-fault stitch for a later stitch (R193). -/
def State.swapCut (s : State) (p : Nat) (w : Swap) : Bool :=
  w.cut || (Map.find s.halts p).any fun h => decide (w.asked ≤ h.sf) && decide (h.sf < w.at_)

/-- The serving unit at a halt with first-fault stitch s_f: passes that have not emitted before it are dropped, the records they
touched are rebuilt from the history, and every context is kept (R508). -/
def serveHalt (p sf haltAt : Nat) (s : State) : State :=
  let gone := s.passes.filter fun q => decide (q.part = p) && (!q.started || decide (sf ≤ q.endAt))
  let s := { s with passes := s.passes.filter fun q => !(gone.contains q) }
  let live := fun (q : Pass) => (s.ctx p q.ctx).isSome
  let lost := (gone.filter fun q => q.started && q.samples && live q).length
  let s := forAll ((gone.filter fun q => q.drawn.isSome).map fun q => q.ctx) (fun x s => (writeRecord p x s).2) s
  let s := forAll (s.partCtxs p) (fun e s => s.setCtx p e.1 { e.2 with booked := e.2.len }) s
  let s := s.inc F.srvFaultCnt.drop (Ix.mod p) lost
  ({ s with servHalt := Map.put s.servHalt p { sf := sf, haltAt := haltAt, dieLoss := (Map.find s.kdl.grace p).isSome, dropped := lost } }.set F.srvFaultHalt.sf (Ix.mod p) sf)

/-- PARTITION_HALT: at H every core of the partition that is not IDLE enters HALTED. -/
def partitionHalt (p : PartIx) (s : State) : State :=
  match Map.find s.halts p.val with
  | none => s
  | some h =>
    if h.taken ∨ s.stitch < h.haltAt then s
    else
      let ds := s.diesOf p
      let s := forAll (s.busyCores ds) (fun c s => (s.set F.coreSeqTask.state c.ix qHalted).setCore c { s.core c with stopAt := some (16 * h.haltAt) }) s
      let s := forAll ds (fun d s => s.inc F.stwSchedCnt.halts (Ix.stw d)) s
      let s := match Map.find s.swaps p.val with
        | some w => { s with swaps := Map.put s.swaps p.val { w with cut := s.swapCut p w } }
        | none => s
      serveHalt p h.sf h.haltAt { s with halts := Map.put s.halts p.val { h with taken := true } }

def execPartitionHalt (p : PartIx) (s : State) : Host.Outcome State Fault Refusal := done (partitionHalt p s)

/-- DIE-DARK (Table 16.11). -/
def dieDarkEvent (d cause : Nat) (p : Option Nat) (attach : Bool) (s : State) : State :=
  s.emit 0x0012 3 (match p with
    | some q => s.leadDie q
    | none => 31) p [(s.stitch, 64), (d, 5), (cause, 3), (p.getD 0, 3), (boolNat p.isSome, 1), (boolNat attach, 1)]

/-- SCHEDULE_FAULT_EVENT: the lead steward copies the first fault and issues the halt's event: SCHEDULE-FAULT, or FABRIC-LINK or
DIE-DARK where no core faulted first (R192, R301, R509). -/
def scheduleFaultEvent (p : PartIx) (s : State) : State :=
  match Map.find s.halts p.val with
  | none => s
  | some h =>
    if h.reported ∨ s.stitch < h.haltAt then s
    else
      let lead := s.leadDie p
      let k := h.first
      let c := coreAt k
      let s := ({ s with halts := Map.put s.halts p.val { h with reported := true } }).set F.stwSchedHalt.stitch (Ix.stw lead) h.haltAt
      if h.byCore then
        let code := s.get F.coreSfltRec.code c
        let src := s.get F.coreSfltRec.src c
        let b := s.get F.coreSfltRec.bundle c
        let det := s.get F.coreSfltRec.detail c
        let fst := s.get F.coreSfltStitch.stitch c
        let s := s.sets (Ix.stw lead) [(F.stwSchedFirst.die, k.die), (F.stwSchedFirst.cluster, k.clu), (F.stwSchedFirst.core, k.core),
          (F.stwSchedFirst.code, code), (F.stwSchedFirst.src, src), (F.stwSchedFirst.bundle, b), (F.stwSchedFirst.detail, det),
          (F.stwSchedFirst.valid, 1), (F.stwSchedFstitch.stitch, fst)]
        s.emit 0x0010 2 lead (some p.val) [(fst, 64), (s.get F.coreSfltCycle.cc c, 32), (k.die, 5), (k.clu, 7), (k.core, 2), (code, 6), (src, 2), (b, 11),
          (det, 8), (h.haltAt, 64), (min h.secondary 0xFFFF, 16)]
      else if s.dieDark k.die then
        dieDarkEvent k.die (s.get F.nirFpDie.dark_cause (Ix.mod k.die)) (some p.val) (s.attachMoves k.die) s
      else
        let e : Ix := ⟨k.die, k.clu, 0, 0, 0⟩
        s.fabricLink lead k.die k.clu (s.get F.cluRtrErr.port e) 0 (s.get F.cluRtrErr.lane e) h.haltAt h.sf

def execScheduleFaultEvent (p : PartIx) (s : State) : Host.Outcome State Fault Refusal := done (scheduleFaultEvent p s)

/-- Halt lines asserted for lost dies: Nirdo asserts the line of a die's partition in the stitch after the one named (R509). -/
def settleOwed (s : State) : State :=
  let due := s.kdl.owed.filter fun o => decide (o.2 < s.stitch)
  let s := { s with kdl := { s.kdl with owed := s.kdl.owed.filter fun o => !decide (o.2 < s.stitch) } }
  forAll due (fun o s => match s.partOf o.1 with
    | none => s
    | some p => s.assertHalt p ⟨16 * s.stitch, o.1, 0, 0⟩ false) s

/-! ## Tenant clears (R284, R285, R310) -/

/-- Memory of the partition's scratchpads, shared buffers and stacks becomes zero, with its marks and errors. -/
def clearMemory (ds : List Nat) (s : State) : State :=
  let hit := fun (a : Nat) => decide (addrSpace a ≤ 2) && ds.contains (addrDie a)
  { s with mem := s.mem.filter fun b => !hit b.1
           upsets := s.upsets.filter fun u => !hit (8 * u.1)
           marks := s.marks.filter fun m => !hit (256 * m.1)
           writebacks := s.writebacks.filter fun w => !hit (8 * w)
           stackWrites := s.stackWrites.filter fun w => !hit w.addr
           areas := s.areas.filter fun a => !ds.contains a.die }

/-- A shared-buffer unit is cleared during two stitches; a unit whose mode is, or becomes, CACHE loses its slots: with it the set of CACHE
units and so the place of every slot changes (R269, R271). -/
def clearUnit (c : CluId) (u : Nat) (s : State) : State :=
  let lo := sbufAddr c (u * 65536)
  let s := { s.loseRange lo (lo + 65536) with cache := s.cache.filter fun e => decide (e.1.1 ≠ c) }
  { s with sbufClear := Map.put s.sbufClear (c, u) (s.stitch + 2) }.setSbufState c u 3

/-- Units whose clear has ended are ready. -/
def settleUnits (s : State) : State :=
  let late := s.sbufClear.filter fun e => decide (e.2 ≤ s.stitch)
  forAll late (fun e s => { s with sbufClear := Map.del s.sbufClear e.1 }.setSbufState e.1.1 e.1.2 0) s

/-- Queued transfers of a channel end WINDOW_CLOSED (R284). -/
def emptyChan (e : (CluId × Nat) × Chan) (s : State) : State :=
  let s := s.setChan e.1.1 e.1.2 { e.2 with queue := [] }
  forAll e.2.queue (fun x s => decideXfer x xWindowClosed { s with flights := if (s.flight x.id).isSome then s.flights else s.flights ++ [x] }) s

/-- Every window entry of the partition's dies closes (R284). -/
def closeWindows (ds : List Nat) (s : State) : State :=
  s.dropRegs fun k => ds.contains k.ix.die && [Reg.coreWin, .cluWin, .stkWin].contains k.reg

/-- Every shared-buffer unit of a cluster that is not off is cleared for two stitches (R271, R284). -/
def clearUnits (c : CluId) (s : State) : State :=
  let us := (List.range 8).filter fun u => decide (s.sbufState c u ≠ 2)
  let st := us.foldl (fun v u => putBits v (2 * u) 2 3) (s.get F.cluSbufStat.state c.ix)
  { s with sbufClear := us.foldl (fun m u => Map.put m (c, u) (s.stitch + 2)) s.sbufClear }.set F.cluSbufStat.state c.ix st

/-- Every seat, slot and stack region of the partition is empty (R256). -/
def clearKv (p : Nat) (s : State) : State :=
  let ls := s.lanes p
  let ds := s.diesOf p
  let s := s.dropRegs fun k => (match k.reg with
    | .coreKvfRoleSeat => ds.contains k.ix.die
    | .coreKvfStat => ds.contains k.ix.die
    | .srvKvLen => decide (k.ix.n = p)
    | _ => false)
  let s := { s with kvCmds := s.kvCmds.filter (fun c => decide (c.part ≠ p)), kvJobs := s.kvJobs.filter (fun j => decide (j.part ≠ p))
                    brokeWhy := s.brokeWhy.filter fun e => decide (e.1.1 ≠ p), stageAt := s.stageAt.filter fun e => !ls.contains e.1 }
  forAll ls (fun l s => s.initLane l) s

/-- A clear of partition p at this stitch (R284, R285, R310, R375): sync objects lose the updates of earlier cycles, and those of this cycle
are applied after the clear.  [DEDUCED, log 128] -/
def clearPartition (p : Nat) (s : State) : State :=
  let ds := s.diesOf p
  let s := abortAll p s.settleSync
  let as := s.knownArrays.filter fun a => ds.contains a.die.val
  let s := forAll as tenantClearArray { s with cleared := (s.cleared ++ as).eraseDups }
  let s := clearMemory ds s
  let s := forAll (s.cores.filter fun e => ds.contains e.1.die.val) (fun e s => s.setCore e.1 { e.2 with latches := [] }) s
  let s := { s with cache := s.cache.filter fun e => !ds.contains e.1.1.die.val
                    spadClear := ds.foldl (fun m d => Map.put m d (s.now + 128)) s.spadClear }
  let s := forAll (ds.flatMap dieClus) clearUnits s
  let s := closeWindows ds s
  let s := forAll (s.chans.filter fun e => ds.contains e.1.1.die.val) emptyChan s
  let s := clearKv p s
  let s := s.dropRegs fun k => ds.contains k.ix.die && decide (k.reg = .cluSynObj)
  let s := { s with clearing := (ds.filter fun d => !s.dieDark d).foldl (fun m d => Map.put m d s.wall) s.clearing }
  forAll (ds.filter fun d => !s.dieDark d) (fun d s => (s.set F.stkStat.clearing (Ix.stw d 0) 1).set F.stkStat.clearing (Ix.stw d 1) 1) s

/-- TENANT_CLEAR: the operator's command, in cc 0 of the clear stitch. -/
def execTenantClear (p : PartIx) (s : State) : Host.Outcome State Fault Refusal := done (if s.cc = 0 then clearPartition p s else s)

/-- PARTITION_WRITE: a partition's set of dies; refused while Ready is withheld (R497) and where a die would be in two partitions, is not populated, or the
partition's harness is valid.  A set formed or changed is cleared.  [DEDUCED, log 124] -/
def partitionWrite (p : PartIx) (m : BitVec 24) (s : State) : State :=
  let old := s.get F.hrnPart.dies (Ix.mod p)
  let new := m.toNat
  if new = old ∨ s.readyHeld then s
  else if (Map.find s.active p.val).isSome ∨ 2 ^ s.dieCount ≤ new ∨
      (List.range 8).any (fun q => decide (q ≠ p.val) && decide (s.get F.hrnPart.dies (Ix.mod q) &&& new ≠ 0)) then s
  else
    let s := s.set F.hrnPart.dies (Ix.mod p) new
    if new = 0 then s else clearPartition p s

def execPartitionWrite (p : PartIx) (m : BitVec 24) (s : State) : Host.Outcome State Fault Refusal := done (partitionWrite p m s)

/-! ## Swap requests and commits (R338-R342) -/

/-- Swap status codes (Table 10.9). -/
def swOk : Nat := 0
def swLate : Nat := 1
def swNotReady : Nat := 2
def swStrict : Nat := 3
def swKvResident : Nat := 4
def swHalted : Nat := 5
def swBusy : Nat := 6
def swClearing : Nat := 7

/-- A swap has taken effect or been refused. -/
def swapDone (p st : Nat) (s : State) : State :=
  let ix := Ix.mod p
  let s := { s with swaps := Map.del s.swaps p }.sets ix [(F.hrnSwapResult.status, st), (F.hrnSwapResult.committed, 0), (F.hrnSwapResult.done, 1)]
  if st = swOk then s.inc F.hrnCnt.swaps ix else s.inc F.hrnCnt.swap_ref ix

/-- SWAP_REQUEST: the mode is that of HRN.SWAP.CTL. -/
def swapRequest (p : PartIx) (t : Nat) (s : State) : State :=
  let ix := Ix.mod p
  if s.bit F.hrnSwapResult.committed ix then (s.set F.hrnSwapResult.status ix swBusy).inc F.hrnCnt.swap_ref ix
  else
    let paused := s.bit F.hrnSwapCtl.paused ix
    let drain := ((Map.find s.active p.val).map fun h => h.drain).getD 64
    let at_ := max t (s.stitch + 64 + (if paused then drain else 0))
    if at_ ≠ t ∧ ¬ s.bit F.hrnSwapCtl.movable ix then swapDone p swLate s
    else
      { s with swaps := Map.put s.swaps p.val { at_ := at_, asked := s.stitch, paused := paused } }.sets ix
        [(F.hrnSwapAt.stitch, t), (F.hrnSwapT.stitch, at_), (F.hrnSwapResult.status, 0), (F.hrnSwapResult.committed, 0), (F.hrnSwapResult.done, 0)]

def execSwapRequest (p : PartIx) (t : BitVec 64) (s : State) : Host.Outcome State Fault Refusal := done (swapRequest p t.toNat s)

/-- What R256 compares of a lane role, in virtual coordinates. -/
def Harness.roleSig (h : Harness) (ix : Ix) : List Nat :=
  [F.coreKvfRoleCfg0.en, F.coreKvfRoleCfg0.na_m1, F.coreKvfRoleCfg0.lane, F.coreKvfRoleCfg0.kvfmt, F.coreKvfRoleCfg0.g_m1, F.coreKvfRoleCfg0.nslot,
    F.coreKvfRoleCfg1.stkbase, F.coreKvfRoleCfg1.stkn, F.coreKvfRoleCfg1.nhome].map (fun f => h.get f ix) ++
    (List.range (h.get F.coreKvfRoleCfg1.nhome ix)).flatMap fun i =>
      [h.get F.coreKvfRoleHome.space { ix with m := i }, h.get F.coreKvfRoleHome.line { ix with m := i }]

/-- Enabled lane roles of a harness: virtual instance and physical lane. -/
def Harness.roles (h : Harness) : List (Ix × Lane) :=
  (h.insts .coreKvfRoleCfg0).filterMap fun ix =>
    if h.get F.coreKvfRoleCfg0.en ix = 1 then (h.phys .coreKvfRoleCfg0 ix).bind fun q => (coreOfIx q).map fun c => (ix, (c, ix.n)) else none

/-- Any block is held in a lane. -/
def State.laneHolds (s : State) (l : Lane) : Bool := decide (s.get F.coreKvfRoleFree.count l.ix < s.get F.coreKvfRoleCfg0.nslot l.ix)

/-- Blocks held in a lane at T: those held now, and those that started passes will allocate before T (R341). -/
def State.laneHoldsAt (s : State) (p : Nat) (l : Lane) (t : Nat) : Bool :=
  s.laneHolds l || s.passes.any fun q => decide (q.part = p) && q.started && decide (q.pos % 64 = 0) && s.holds l (q.pos / 64) &&
    decide (q.start + s.get F.coreKvfRoleCfg1.stage l.ix * s.clsS p q.cls + s.get F.coreKvfRoleCfg0.aofs l.ix < t)

/-- KV-RESIDENT: a change of KV format meets blocks anywhere in the partition, any other change blocks of its role. -/
def State.kvResident (s : State) (p : Nat) (a h : Harness) (t : Nat) : Bool :=
  a.roles.any fun r =>
    let fmt := decide (h.get F.coreKvfRoleCfg0.kvfmt r.1 ≠ a.get F.coreKvfRoleCfg0.kvfmt r.1) && decide (h.get F.coreKvfRoleCfg0.en r.1 = 1)
    (fmt && (s.lanes p).any fun l => s.laneHoldsAt p l t) ||
      ((decide (h.roleSig r.1 ≠ a.roleSig r.1) || (h.phys .coreKvfRoleCfg0 r.1).isNone) && s.laneHoldsAt p r.2 t)

/-- Why a swap is refused at its commit, 0 where it is not (Table 10.9): a halt first, then in the order of the codes.  [DESIGN CHOICE, log 125] -/
def State.swapRefusal (s : State) (p : Nat) (w : Swap) : Nat :=
  if s.swapCut p w then swHalted
  else match Map.find s.shadowHrn p with
    | none => swNotReady
    | some h =>
      if s.get F.hrnStat.shadow (Ix.mod p) ≠ shReady ∨ (h.needsPause ∧ ¬ w.paused) ∨
          (h.kept ∧ (stage7 s h true).code ≠ 0) then swNotReady
      else if h.strict ∧ ¬ h.clamps.isEmpty then swStrict
      else if (Map.find s.active p).any fun a => s.kvResident p a h w.at_ then swKvResident
      else if s.partClearing p then swClearing
      else swOk

/-- SWAP_COMMIT: at T − 48 the swap is committed or refused; one that binds no dark die ends the grace after a die loss (R512).  [DEDUCED, log 175] -/
def swapCommit (p : PartIx) (s : State) : State :=
  match Map.find s.swaps p.val with
  | none => s
  | some w =>
    if w.committed ∨ s.stitch + 48 < w.at_ then s
    else
      let st := s.swapRefusal p w
      if st ≠ swOk then swapDone p st s
      else
        let s := { s with swaps := Map.put s.swaps p.val { w with committed := true } }.set F.hrnSwapResult.committed (Ix.mod p) 1
        let bindsDark := (Map.find s.shadowHrn p.val).any fun h => h.bindings.any fun b => s.dieDark b.2.die
        let s := if bindsDark then s else { s with kdl := { s.kdl with grace := Map.del s.kdl.grace p.val } }
        let moved := s.kvCmds.filter fun c => decide (c.part = p.val) && decide (w.at_ ≤ c.at_ + 48) && decide (c.at_ ≤ w.at_)
        let s := { s with kvCmds := s.kvCmds.map fun c => if moved.contains c then { c with at_ := w.at_ + 1 } else c }
        let s := if moved.any (fun c => decide (Map.find s.kvLast p.val = some c.seq)) then s.set F.srvKvResult.t_lo (Ix.mod p) (w.at_ + 1) else s
        ((releasePasses p (fun _ => true) s).showShadow p shCommitted)

def execSwapCommit (p : PartIx) (s : State) : Host.Outcome State Fault Refusal := done (swapCommit p s)

/-! ## Activation (R339-R344) -/

/-- The field is set by a harness. -/
def isRwh (k : FKey) : Bool := (Reg.fields k.reg).any fun f => decide (f.lo = k.lo) && decide (f.ty = .rwh)

/-- The register instance belongs to a partition. -/
def inPart (p : Nat) (ds : List Nat) (k : FKey) : Bool :=
  match (Reg.place k.reg).cls with
  | .srv => decide (k.ix.n = p)
  | .nir => false
  | _ => ds.contains k.ix.die

/-- Image of a register as activation writes it: module IDs are physical (R335). -/
def Harness.loaded (h : Harness) (r : Reg) (ix : Ix) : Nat :=
  let v := h.regVal r ix
  let tr := fun (flag id : Nat) => if bitsOf v flag 1 = 0 then v else putBits v id 16 ((h.moduleId (bitsOf v id 16)).getD (bitsOf v id 16))
  match r with
  | .coreDesc => match bitsOf v 0 4 with
    | 1 => tr 70 71
    | 2 => tr 32 33
    | _ => v
  | .coreWin => tr 12 13
  | .cluWin => tr 12 13
  | .stkWin => tr 12 13
  | _ => v

/-- Every RWH field of the partition takes the harness's value, or its reset value where no record wrote it. -/
def writeRegs (p : Nat) (ds : List Nat) (h : Harness) (s : State) : State :=
  let s := s.dropRegs fun k => isRwh k && inPart p ds k
  forAll h.regs (fun r s => match h.phys r.1 r.2 with
    | none => s
    | some ix => forAll ((Reg.fields r.1).filter fun f => decide (f.ty = .rwh)) (fun f s =>
      s.set ⟨r.1, f.lo, f.width⟩ ix (bitsOf (h.loaded r.1 r.2) f.lo f.width)) s) s

/-- Units that the floor plan reports failed are OFF under every harness, bound or not (R286). -/
def offFailed (ds : List Nat) (s : State) : State :=
  let cs := s.regs.filterMap fun e => if e.1.reg = .nirFpClu ∧ e.1.lo = F.nirFpClu.sbuf.lo ∧ ds.contains e.1.ix.n then cluAt? e.1.ix.n e.1.ix.m else none
  forAll cs (fun c s => s.set F.cluSbufCfg.mode c.ix
    (((List.range 8).filter (s.unitFailed c)).foldl (fun v u => putBits v (2 * u) 2 2) (s.get F.cluSbufCfg.mode c.ix))) s

/-- Bundle stores and the bytes of DATA and BUNDLE sections. -/
def writeBytes (ds : List Nat) (h : Harness) (s : State) : State :=
  let bundle := fun (a : Nat) => decide (addrSpace a = 3) && ds.contains (addrDie a) && decide (0xC8000 ≤ a % 2 ^ 30) && decide (a % 2 ^ 30 < 0xD0000)
  let s := { s with mem := s.mem.filter fun b => !bundle b.1 }
  forAll h.raw (fun b s =>
    let t := vkTgt b.at_
    if vkTk b.at_ = 0 ∧ (addrSpace t ≤ 1 ∨ (addrSpace t = 3 ∧ 0xC8000 ≤ t % 2 ^ 30 ∧ t % 2 ^ 30 < 0xD0000)) then
      match h.clu (addrDie t) (addrClu t) with
      | none => s
      | some c =>
        let a := fab (addrSpace t) c.die c.clu (addrCore t) (t % 2 ^ 30)
        let s := { s with mem := Memory.write s.mem a b.val }
        if addrSpace t ≤ 1 then s.markWritten a false false false else s
    else s) s

/-- The routers take the new tack map. -/
def writeTack (p : Nat) (h : Harness) (s : State) : State :=
  { s with tack := (h.bindings.map fun b => ((⟨p, b.1.1, b.1.2⟩ : VClu), b.2)) ++ s.tack.filter fun e => decide (e.1.part ≠ p) }

/-- Credit state of a bound cluster: DECL, and declared or reduced entries from activation (R185).  [DEDUCED, log 126] -/
def activateCredit (h : Harness) (b : (Nat × Nat) × CluId) (s : State) : State :=
  let c := b.2
  let decl := h.decl b.1.1 b.1.2
  let s := s.set F.cluCredCap.decl c.ix decl
  let enf := decide (s.get F.cluCredCap.cap c.ix < decl)
  let s := applyCap c (s.get F.cluCredCap.cap c.ix) enf { s with capSeen := Map.put s.capSeen c (s.get F.cluCredCap.cap c.ix, decl) }
  if enf then capEvent c ((s.stitch + 255) / 256) true s else s

/-- Shared-buffer units whose mode changes: a unit turned off is fenced, any other is cleared (R271, R287, R288). -/
def remodeUnits (old : State) (c : CluId) (s : State) : State :=
  let s := forAll (List.range 8) (fun u s =>
    let a := old.sbufMode c u
    let b := s.sbufMode c u
    if a = b then s
    else if b = 2 then (if hu : u < 8 then (if s.sbufState c u = 2 then s else startFence (.sbuf c ⟨u, hu⟩) s) else s)
    else clearUnit c u (if hu : u < 8 then { s with fences := Map.del s.fences (.sbuf c ⟨u, hu⟩) } else s)) s
  s.set F.cluSbufStat.ncache c.ix ((List.range 8).filter fun u => decide (s.sbufMode c u = 1)).length

/-- Channel groups a harness turns off are fenced; those it turns on are powered and zeroed (R287, R288). -/
def regroup (old : State) (d : DieIx) (s : State) : State :=
  forAll (List.finRange 2) (fun sd s => forAll (List.finRange 4) (fun g s =>
    let ix := Ix.stw d sd
    let a := (old.get F.stkCfg.grp_on ix).testBit g
    let b := (s.get F.stkCfg.grp_on ix).testBit g
    if a ∧ ¬ b then startFence (.group d sd g) s
    else if b ∧ ¬ a then
      { s with zeroing := Map.put s.zeroing (d.val, 4 * sd.val + g.val) s.wall, fences := Map.del s.fences (.group d sd g) }
    else s) s) s

/-- Lists of the lane roles: a role that holds no block begins with full lists (R234).  [DEDUCED, log 127] -/
def activateLanes (p : Nat) (old : State) (h : Harness) (a : Option Harness) (s : State) : State :=
  forAll h.roles (fun r s =>
    let same : Bool := match a with
      | none => false
      | some o => decide (o.roleSig r.1 = h.roleSig r.1) && decide (o.phys .coreKvfRoleCfg0 r.1 = h.phys .coreKvfRoleCfg0 r.1)
    if same ∧ old.laneHolds r.2 then s
    else
      let s := if same then s else s.dropRegs fun k => decide (k.reg = .coreKvfRoleSeat) && decide (k.ix.die = r.2.1.die.val) &&
        decide (k.ix.clu = r.2.1.clu.val) && decide (k.ix.core = r.2.1.core.val) && decide (k.ix.n = r.2.2)
      let s := s.initLane r.2
      if same then s
      else forAll ((List.range 512).filter fun σ => s.bit F.srvKvLen.active (Ix.mod p σ)) (fun σ s =>
        s.sets (r.2.ix σ) [(F.coreKvfRoleSeat.active, 1), (F.coreKvfRoleSeat.len, s.get F.srvKvLen.len (Ix.mod p σ))]) s) s

/-- Image and digest addresses of an array's binding in its die's shard (R384). -/
def State.imageAddr (s : State) (d shofs img : Nat) : Nat := fabStack d (shofs + bytesToNat (s.bytes (fabStack d (shofs + 0x10)) 8) + 8192 * img)
/-- Address of an array's digest entry (R384). -/
def State.digestAddr (s : State) (d shofs img : Nat) : Nat := fabStack d (shofs + bytesToNat (s.bytes (fabStack d (shofs + 0x28)) 8) + 32 * img)

/-- The arrays to write, and the scale runs copied (R391). -/
def startWrites (h : Harness) (was : State) (s : State) : State :=
  let ws := (was.arraysToWrite h).map fun a =>
    ({ arr := a.1, image := a.2.1, src := s.imageAddr a.1.die a.2.2 a.2.1, dig := s.digestAddr a.1.die a.2.2 a.2.1 } : ActWrite)
  let s := { s with actWrites := s.actWrites.filter (fun w => !(ws.any fun v => decide (v.arr = w.arr))) ++ ws
                    cleared := s.cleared.filter fun a => !(ws.any fun w => decide (w.arr = a)) }
  forAll (was.runsToWrite h) (fun r s =>
    let d := r.1.die
    let sclOff := bytesToNat (s.bytes (fabStack d (r.2.1 + 0x18)) 8)
    let bs := s.bytes (fabStack d (r.2.1 + sclOff + r.2.2.1)) r.2.2.2.1
    let a := spadAddr r.1 (256 * r.2.2.2.2)
    let s := s.store a bs
    forAll (List.range ((bs.length + 255) / 256)) (fun i s => s.markWritten (a + 256 * i) false false false) s) s

/-- Launch-plan entry of a virtual core: LOFS and AUTO (R343). -/
def Harness.plan (h : Harness) (vd vcl c : Nat) : Nat × Bool :=
  let v := h.table 4 (4 * ((vd * 128 + vcl) * 4 + c)) 4
  (max 2 (v % 65536), v.testBit 16)

/-- Cores of the harness that kindling left in service. -/
def State.usableCores (s : State) (h : Harness) : List (CoreId × Nat × Bool) :=
  h.bindings.flatMap fun b => (cluCores b.2).filterMap fun c =>
    if s.coreMappedOut c.die c.clu c.core ∨ ¬ s.regionOn c.cluId then none
    else
      let q := h.plan b.1.1 b.1.2 c.core
      some (c, q.1, q.2)

/-- What becomes of the shadow once a harness is in force (R344). -/
def outgoing (p : Nat) (h : Harness) (old : Option Harness) (clear : Bool) (s : State) : State :=
  match old, clear with
  | some o, false =>
    { s with shadowHrn := Map.put s.shadowHrn p { o with kept := true, needsPause := recipeChange h o } }.showShadow p shReady
  | _, _ => { s with shadowHrn := Map.del s.shadowHrn p }.showShadow p shEmpty

/-- Activation of harness h at this stitch. -/
def activate (p : PartIx) (w : Swap) (h : Harness) (s : State) : State :=
  let ds := s.diesOf p
  let dx := ds.filterMap dieIx?
  let old := Map.find s.active p.val
  let clear := (old.any fun o => decide (o.fpr ≠ h.fpr)) || s.mustClear.contains p.val
  let halted := (Map.find s.halts p.val).isSome || (Map.find s.servHalt p.val).isSome
  let s := forAll dx (fun d s => deliverHeld d (copyFirst d s)) s
  let s := forAll (s.busyCores ds) (fun c s => (s.set F.coreSeqTask.state c.ix qIdle).setCore c { s.core c with stopAt := none }) s
  let s := if (Map.find s.halts p.val).isSome then endHalt p s else s
  let s := if clear then { clearPartition p s with mustClear := s.mustClear.filter fun q => decide (q ≠ p.val) } else s
  let was := s
  let s := writeBytes ds h (writeTack p h (offFailed ds (writeRegs p ds h s)))
  let s := forAll (s.mapOut.filter fun a => ds.contains a.die.val) (fun a s => s.set F.arrCfg.enable a.ix 0) s
  let s := s.sets (Ix.mod p) [(F.hrnActAt.stitch, s.stitch), (F.hrnActiveId.id, h.hid), (F.hrnStat.active_valid, 1), (F.hrnStat.mode, boolNat h.streaming),
    (F.hrnStat.active_opkey, boolNat h.opkey)]
  let s := { s with active := Map.put s.active p.val h }
  let s := s.dropRegs fun k => ds.contains k.ix.die && (match k.reg with
    | .coreCredEff => true
    | .cluRtrRlat => true
    | .stkDecl => true
    | .cluCredCap => decide (k.lo = 32 ∨ k.lo = 49)
    | .coreCredCfg => decide (k.lo = 24)
    | .coreArrstat => decide (k.lo = F.coreArrstat.streaming.lo ∨ k.lo = F.coreArrstat.compute_set.lo)
    | _ => false)
  let mine := fun (d : DieIx) => ds.contains d.val
  let s := { s with capDue := s.capDue.filter fun e => !mine e.1.die, capSeen := s.capSeen.filter fun e => !mine e.1.die
                    cores := s.cores.map fun e => if mine e.1.die then (e.1, { e.2 with exchange := none }) else e }
  let s := forAll h.bindings (fun b s => (activateCredit h b s).writeRlat b.2) s
  let s := forAll ((dx.flatMap fun d => dieClus d.val).filter fun c => decide (was.get F.cluSbufCfg.mode c.ix ≠ s.get F.cluSbufCfg.mode c.ix)) (remodeUnits was) s
  let s := forAll dx (regroup was) s
  let s := forAll ((h.bindings.map fun b => b.1.1).eraseDups) (fun vd s => match h.die vd with
    | none => s
    | some d => forAll (List.range 8) (fun g s => s.set F.stkDecl.maxbytes (Ix.stw d (g / 4) (g % 4)) (h.stkdecl vd g)) s) s
  let s := forAll (h.bindings.flatMap fun b => cluCores b.2) (fun c s =>
    s.set F.coreArrstat.streaming c.ix (boolNat h.streaming)) s
  let s := activateLanes p was h old s
  let s := startWrites h was s
  let s := releasePasses p (fun _ => true) s
  let s := { s with nextBook := Map.del s.nextBook p.val, released := s.released.filter fun q => decide (q.part ≠ p.val), acceptedAct := Map.put s.acceptedAct p.val (Map.getD s.accepted p.val 0) }
  let s := if w.paused then { s with pauseUntil := Map.put s.pauseUntil p.val (s.stitch + h.resume) } else s
  let s := match Map.find s.servHalt p.val with
    | some q => if halted then { s with servHalt := Map.put s.servHalt p.val { q with resumeAt := some (s.stitch + h.resume), viaSwap := true } } else s
    | none => s
  let s := if clear then s
    else forAll ((s.usableCores h).filter fun c => c.2.2) (fun c s => s.nameLaunch c.1 (s.stitch + c.2.1)) s
  (placeStreams p (swapDone p swOk (outgoing p h old clear s)))

/-- SWAP_ACTIVATION: at cc 0 of T a committed swap takes effect, unless a halt has cancelled it. -/
def swapActivation (p : PartIx) (s : State) : State :=
  match Map.find s.swaps p.val with
  | none => s
  | some w =>
    if ¬ w.committed ∨ s.stitch < w.at_ ∨ s.cc ≠ 0 then s
    else match s.swapCut p w, Map.find s.shadowHrn p.val with
      | false, some h => activate p w h s
      | _, _ => swapDone p swHalted (s.showShadow p shReady)

def execSwapActivation (p : PartIx) (s : State) : Host.Outcome State Fault Refusal := done (swapActivation p s)

/-! ## Launch (R343, R285, R512) -/

/-- HRN_LAUNCH: names the launch stitch for every core of the partition not launched automatically, and after a halt for every
core; refused during a tenant clear. -/
def hrnLaunch (p : PartIx) (t : Nat) (s : State) : State :=
  match Map.find s.active p.val with
  | none => s
  | some h =>
    if s.partClearing p then s
    else
      let at_ := max t (s.stitch + 64)
      let all := (Map.find s.halts p.val).isSome
      let s := s.set F.hrnLaunch.stitch (Ix.mod p) t
      let s := forAll (s.usableCores h) (fun c s =>
        let q := s.get F.coreSeqTask.state c.1.ix
        if (all ∨ ¬ c.2.2 ∨ s.get F.coreSeqLaunch.stitch c.1.ix < s.get F.hrnActAt.stitch (Ix.mod p)) ∧ (q = qIdle ∨ q = qDone ∨ q = qHalted) then
          s.nameLaunch c.1 at_ else s) s
      match Map.find s.servHalt p.val with
      | some q => { s with servHalt := Map.put s.servHalt p.val { q with resumeAt := some (at_ + h.resume), viaSwap := false } }
      | none => s

def execHrnLaunch (p : PartIx) (t : BitVec 64) (s : State) : Host.Outcome State Fault Refusal := done (hrnLaunch p t.toNat s)

/-! ## Arrays written at activation (R391, R392) -/

/-- Rows of two runs of bytes that differ. -/
def rowsDiffer (a b : List Byte) : Nat := ((List.range 256).filter fun i => decide ((a.drop (32 * i)).take 32 ≠ (b.drop (32 * i)).take 32)).length

/-- WEIGHT-DIGEST (Table 12.3). -/
def weightDigest (d clu core arr image kind status rows : Nat) (s : State) : State :=
  s.emit 0x0027 1 d (s.partOf d) [(s.stitch, 64), (d, 5), (clu, 7), (core, 2), (arr, 6), (image, 24), (kind, 3), (status, 4), (rows, 9)]

/-- Write an image into an array. -/
def writeImage (a : ArrId) (src : Nat) (s : State) : State :=
  (rowsWrite a.coreId s.now (rowsOf (a.arr * 8192) ((s.drainSide src).bytes src 8192)) s).2

/-- ACT_ARRAY_WRITE_DONE: the next array is written and read back; a mismatch is retried once, a second leaves DBAD set. -/
def actArrayWriteDone (i : Nat) (s : State) : State :=
  match s.actWrites[i]? with
  | none => s
  | some w =>
    let a := w.arr
    if ¬ s.acceptsWrite a then s
    else
      let s := writeImage a w.src s
      let img := s.bytes w.src 8192
      let got := s.bytes (planeAddr a 0) 8192
      let ok := decide (sha256 got = s.bytes w.dig 32)
      if ¬ ok ∧ w.tries = 0 then { s with actWrites := s.actWrites.set i { w with tries := 1 } }
      else
        let s := { s with actWrites := s.actWrites.eraseIdx i }.set F.coreWptrArr.dbad (a.coreId.ix a.arr) (boolNat (!ok))
        if ok then s else weightDigest a.die a.clu a.core a.arr w.image 0 0 (rowsDiffer got img) s

def execActArrayWriteDone (i : Nat) (s : State) : Host.Outcome State Fault Refusal := done (actArrayWriteDone i s)

end Sys2Proof.Machine
end

