-- ==== Sys2Proof/Machine/Power.lean ====
section
/-!
DEFINITION. Power delivery (chapter 14): the governor, billets and die capacity, region regulators, the power sequence of a
region, credit windows, the conditions of the 60 V bus; and what happens at a stitch boundary.
-/

namespace Sys2Proof.Machine
open Sys2Proof

/-! ## The power governor (R464-R466) -/

/-- Limits of the grade (Table 17.7).  [DESIGN CHOICE, log 201] -/
def State.gradeLimit (s : State) : Nat := match s.dieCount with
  | 24 => 15000
  | 16 => 10100
  | _ => 5200

/-- The grade's 100 us limit (Table 17.7). -/
def State.peakLimit (s : State) : Nat :=
  if s.get F.nirIdLimits.ppeak (Ix.mod) ≠ 0 then s.get F.nirIdLimits.ppeak (Ix.mod)
  else match s.dieCount with
    | 24 => 16500
    | 16 => 11100
    | _ => 5700

/-- The limit the governor holds: the lower of PLIM and the derated limit once evaluated (R529). -/
def State.powerLimit (s : State) : Nat :=
  let p := s.get F.nirPwrGov.plim (Ix.mod)
  let d := s.get F.nirIdLimits.pder (Ix.mod)
  if d = 0 then p else min p d

/-- POWER-GOVERNOR (Table 14.14). -/
def governorEvent (cause : Nat) (c : Option CluId) (s : State) : State :=
  s.emit 0x0052 1 31 none [(s.stitch, 64), (cause, 3), (s.get F.nirPwrGov.gov_step (Ix.mod), 3), (s.get F.nirPwrPin.p1ms (Ix.mod), 16),
    ((c.map fun c => c.die.val).getD 0x1F, 5), ((c.map fun c => c.clu.val).getD 0x7F, 7)]

/-- GOV_STEP rises by one step; at step 5 only the event is raised (R465, R466).  [DEDUCED, log 154] -/
def raiseGov (cause : Nat) (c : Option CluId) (s : State) : State :=
  let m := Ix.mod
  let g := s.get F.nirPwrGov.gov_step m
  if 5 ≤ g then governorEvent cause c s
  else
    let s := s.set F.nirPwrGov.gov_step m (g + 1)
    let s := if cause ≤ 1 then s.inc F.nirPwrGovcnt.region m else if cause ≤ 3 then s.inc F.nirPwrGovcnt.input m else s.inc F.nirPwrGovcnt.other m
    let s := { s with wins := s.wins.map fun e => (e.1, { e.2 with excess := 0 }), manyRun := 0, govSince := s.stitch }
    requestStep .governor (g + 1) (governorEvent cause c s)

/-- GOVERNOR_INPUT_CHECK: the mean over 1 ms has been above the limit for 5 ms or for a further 1 ms, or the mean over 100 µs is above
the grade's peak, or has been for a further 100 µs (R465). -/
def governorInputCheck (peak : Bool) (s : State) : State :=
  if peak then (if s.mon.peakIn = some 0 then raiseGov 3 none { s with mon := { s.mon with peakIn := some 10 } } else s)
  else if s.mon.overIn = some 0 then raiseGov 2 none { s with mon := { s.mon with overIn := some 100 } } else s

def execGovernorInputCheck (peak : Bool) (s : State) : Host.Outcome State Fault Refusal := done (governorInputCheck peak s)

/-- The release conditions of R466 that show now. -/
def State.governorQuiet (s : State) : Bool :=
  decide (10 * s.get F.nirPwrPin.p1ms (Ix.mod) ≤ 9 * s.powerLimit) && s.wins.all fun e => !e.2.droop

/-- GOVERNOR_RELEASE: after 2^20 st of quiet GOV_STEP falls by one. -/
def governorRelease (s : State) : State :=
  let m := Ix.mod
  let g := s.get F.nirPwrGov.gov_step m
  if 0 < g ∧ s.govSince + 2 ^ 20 ≤ s.stitch ∧ s.governorQuiet then
    let s := (s.set F.nirPwrGov.gov_step m (g - 1)).inc F.nirPwrGovcnt.release m
    requestStep .governor (g - 1) (governorEvent 4 none { s with govSince := s.stitch })
  else s

def execGovernorRelease (s : State) : Host.Outcome State Fault Refusal := done (governorRelease s)

/-! ## Die capacity and region caps (R447, R454) -/

/-- Sockets of a die (R440). -/
def dieSockets (d : Nat) : List Nat := [2 * d, 2 * d + 1]

/-- State of a billet, as NIR.BIL.STAT shows it. -/
def State.bilState (s : State) (b : Nat) : Nat := s.get F.nirBilStat.state (Ix.mod b)

/-- A billet is on: accepted and not tripped. -/
def State.bilOn (s : State) (b : Nat) : Bool := decide (s.bilState b = 2) || decide (s.bilState b = 3)

/-- Capacity C of a die: the continuous limits of its billets that are on. -/
def State.capacity (s : State) (d : Nat) : Nat :=
  (((dieSockets d).filter s.bilOn).map fun b => s.get F.nirBilStat.ilim (Ix.mod b)).foldl (· + ·) 0

/-- CAP_b: 256 × min(256, ⌊((C − 15 A) ÷ 128 − 1.95 A) ÷ 12 mA⌋). -/
def capB (c : Nat) : Nat := 256 * min 256 (((c - 15) * 1000 - 249600) / 1536)

/-- Phase cap (Table 14.9). -/
def phaseCap (nfail : Nat) : Nat := if nfail ≤ 1 then 65536 else if nfail = 2 then 49152 else 0

/-- Cap of a region: the lower of its die share and what its healthy phases allow (R447, R454). -/
def State.regionCap (s : State) (c : CluId) : Nat :=
  min (capB (s.get F.stwPwrRail.cap_a (Ix.stw c.die))) (phaseCap (s.get F.cluPwrStat.nfail c.ix))

/-- Show the cap of a region: the lower of CAP_b and its phase cap. -/
def setCap (c : CluId) (s : State) : State :=
  if s.get F.cluCredCap.cap c.ix = s.regionCap c then s else s.set F.cluCredCap.cap c.ix (s.regionCap c)

/-- The die's capacity, shown by its steward and in the floor plan, and the caps of its regions. -/
def setCapacity (d : Nat) (s : State) : State :=
  let c := s.capacity d
  let s := ((s.set F.stwPwrRail.cap_a (Ix.stw d) c).set F.nirFpDie.c (Ix.mod d) c).fpChange
  forAll (dieClus d) setCap s

/-! ## Billets (R440-R446, R523) -/

/-- Wear W × 1,000 of a billet. -/
def Billet.wear1000 (b : Billet) : Nat :=
  let eqh := leNat b.mem 0x1C 4
  let cyc := leNat b.mem 0x20 4
  if eqh = 0 ∨ cyc = 0 then 0
  else (max (b.wear.eqh / 16 / (eqh : Rat)) ((b.wear.cyc : Rat) / (cyc : Rat)) * 1000).floor.toNat

/-- Show a billet's wear account. -/
def showWear (b : Nat) (s : State) : State :=
  match Map.find s.billets b with
  | none => s
  | some x => s.sets (Ix.mod b) [(F.nirBilWear.eqh, min x.wear.eqh.floor.toNat 0xFFFFFFFF), (F.nirBilWear.cyc, min x.wear.cyc 0xFFFF),
      (F.nirBilWear.w, min x.wear1000 0xFFFF), (F.nirBilStat.warned, boolNat x.wear.warned), (F.nirBilStat.refuse_next, boolNat x.wear.refuse)]

/-- BILLET (Table 14.14). -/
def billetEvent (b kind cause : Nat) (s : State) : State :=
  s.emit 0x0050 1 31 none [(s.stitch, 64), (b, 6), (kind, 3), (cause, 3), (min (((Map.find s.billets b).map Billet.wear1000).getD 0) 0xFFFF, 16),
    (s.capacity (b / 2), 12)]

/-- The thermal-cycle detector: a rise of 25 °C above the last minimum, then a fall of 25 °C below the maximum after it (R444).  [DEDUCED, log 161] -/
def Billet.cycle (b : Billet) (t : Nat) : Billet :=
  match b.up, b.turn with
  | _, none => { b with turn := some t }
  | false, some lo => if lo + 100 ≤ t then { b with up := true, turn := some t } else { b with turn := some (min lo t) }
  | true, some hi =>
    if t + 100 ≤ hi then { b with up := false, turn := some t, wear := { b.wear with cyc := b.wear.cyc + 1 } } else { b with turn := some (max hi t) }

/-- BILLET_REPORT: output current in 0.25 A, input current in 0.25 A, baseplate temperature code. -/
def billetReport (b : Nat) (iout iin tbp : Nat) (s : State) : State :=
  match Map.find s.billets b with
  | none => s
  | some x =>
    if x.fitted then
      let x := { x with iin := iin, n := x.n + 1, sumI := x.sumI + iout, sumT := x.sumT + tbp }.cycle tbp
      { s with billets := Map.put s.billets b x }.sets (Ix.mod b) [(F.nirBilMeas.iout, min iout 0xFFF), (F.nirBilMeas.tbp, tbp)]
    else s

def execBilletReport (b : Fin 48) (iout iin : Fin 4096) (tbp : Fin 1024) (s : State) : Host.Outcome State Fault Refusal :=
  done (billetReport b iout iin tbp s)

/-- A_b of Table 14.6, held at its end values. -/
def billetAge (t : Rat) : Rat :=
  if t < 45 then 1 / 10
  else if t < 65 then 1 / 10 + (t - 45) * (1 / 4) / 20
  else if t < 85 then 35 / 100 + (t - 65) * (65 / 100) / 20
  else if t < 100 then 1 + (t - 85) * (12 / 10) / 15
  else 22 / 10

/-- One second of wear in 1/16 h: means of current (A) and baseplate temperature (°C) over the second's reports. -/
def Billet.age (b : Billet) : Rat :=
  if b.n = 0 then 0
  else
    let i := (b.sumI : Rat) / 4 / (b.n : Rat)
    let t := (b.sumT : Rat) / 4 / (b.n : Rat) - 40
    16 / 3600 * billetAge t * (2 / 5 + 3 / 5 * (i / 450) * (i / 450))

/-- The thresholds of R445 on an accepted billet. -/
def wearThresholds (b : Nat) (s : State) : State :=
  match Map.find s.billets b with
  | none => s
  | some x =>
    let w := x.wear1000
    let put := fun (y : Wear) (s : State) => showWear b { s with billets := Map.put s.billets b { x with wear := y } }
    let y := x.wear
    let s := if 900 ≤ w ∧ ¬ y.warned then billetEvent b 0 0 (put { y with warned := true } s) else s
    let y := if 900 ≤ w then { y with warned := true } else y
    let s := if 1000 ≤ w ∧ ¬ y.derated then
        let s := put { y with derated := true } s
        billetEvent b 1 0 (setCapacity (b / 2) (s.sets (Ix.mod b) [(F.nirBilStat.state, 3), (F.nirBilStat.ilim, 315)]))
      else s
    let y := if 1000 ≤ w then { y with derated := true } else y
    if 1100 ≤ w ∧ ¬ y.refuse then billetEvent b 1 0 (put { y with refuse := true } s) else s

/-- BILLET_WEAR_UPDATE: once a second, every accepted billet. -/
def billetWearUpdate (s : State) : State :=
  forAll (s.billets.filter fun e => s.bilOn e.1) (fun e s =>
    let x := { e.2 with wear := { e.2.wear with eqh := e.2.wear.eqh + e.2.age }, n := 0, sumI := 0, sumT := 0 }
    wearThresholds e.1 (showWear e.1 { s with billets := Map.put s.billets e.1 x })) s

def execBilletWearUpdate (s : State) : Host.Outcome State Fault Refusal := done (billetWearUpdate s)

/-- The wear area as written (Table 14.5): SEQ, EQH, CYC, module ID, flags, CRC-32C. -/
def wearArea (seq : Nat) (w : Wear) (modId : Nat) : List Byte :=
  let bs := natToBytes 4 seq ++ natToBytes 4 w.eqh.floor.toNat ++ natToBytes 4 w.cyc ++ natToBytes 2 modId ++
    natToBytes 1 (boolNat w.warned + 2 * boolNat w.derated + 4 * boolNat w.refuse) ++ List.replicate 13 0#8
  bs ++ natToBytes 4 (chkFinal (polyOf 0) (chkBytes (polyOf 0) (polyOf 0).init bs))

/-- SERIAL of an identity memory. -/
def Billet.serial (b : Billet) : Nat := leNat b.mem 8 8

/-- A wear copy at an offset of an identity memory, if its CRC is valid: SEQ and account. -/
def wearCopy (mem : List Byte) (o : Nat) : Option (Nat × Wear) :=
  let bs := (mem.drop o).take 28
  if mem.length < o + 32 ∨ leNat mem (o + 28) 4 ≠ chkFinal (polyOf 0) (chkBytes (polyOf 0) (polyOf 0).init bs) then none
  else
    let f := leNat mem (o + 14) 1
    some (leNat mem o 4, { eqh := (leNat mem (o + 4) 4 : Rat), cyc := leNat mem (o + 8) 4, warned := f.testBit 0, derated := f.testBit 1, refuse := f.testBit 2 })

/-- The current wear copy: of the valid ones, that with the higher SEQ; and its offset. -/
def currentCopy (mem : List Byte) : Option (Nat × Nat × Wear) :=
  match wearCopy mem 0x60, wearCopy mem 0x80 with
  | none, none => none
  | some a, none => some (0x60, a)
  | none, some b => some (0x80, b)
  | some a, some b => if a.1 < b.1 then some (0x80, b) else some (0x60, a)

/-- Write the wear area of a billet into the copy that is not current, with the next SEQ. -/
def Billet.save (b : Billet) (modId : Nat) : Billet :=
  let q := currentCopy b.mem
  let o := if (q.map fun c => c.1) = some 0x60 then 0x80 else 0x60
  let seq := (((q.map fun c => c.2.1).getD 0) + 1) % 2 ^ 32
  { b with mem := b.mem.take o ++ wearArea seq b.wear modId ++ b.mem.drop (o + 32) }

/-- BILLET_WEAR_SAVE: every hour and at orderly shutdown, into the billets and the identity flash. -/
def billetWearSave (s : State) : State :=
  forAll (s.billets.filter fun e => s.bilOn e.1) (fun e s =>
    { s with billets := Map.put s.billets e.1 (e.2.save (s.get F.nirTorusId.id (Ix.mod)))
             flashWear := Map.put s.flashWear e.2.serial e.2.wear }) s

def execBilletWearSave (s : State) : Host.Outcome State Fault Refusal := done (billetWearSave s)

/-- A billet's output turns off: the die's capacity falls, an event, a step-down from the governor; a die with both billets off
loses its transit rail (R446, R509). -/
def tripBillet (b cause : Nat) (s : State) : State :=
  if s.bilOn b then
    let s := s.sets (Ix.mod b) [(F.nirBilStat.state, 4), (F.nirBilStat.cause, cause), (F.nirBilStat.ilim, 0)]
    let d := b / 2
    let s := raiseGov 5 none (billetEvent b 3 cause (setCapacity d s))
    if (dieSockets d).any s.bilOn ∨ s.dieDark d then s else { s with dying := Map.put s.dying d 0 }
  else s

def execBilletTrip (b : Fin 48) (cause : Fin 4) (s : State) : Host.Outcome State Fault Refusal := done (tripBillet b cause s)

/-- BILLET_WITHDRAWN: under a live bus it counts as a trip with cause "bus lost". -/
def billetWithdrawn (b : Nat) (s : State) : State :=
  match Map.find s.billets b with
  | none => s
  | some x => tripBillet b 3 { s with billets := Map.put s.billets b { x with fitted := false } }

def execBilletWithdrawn (b : Fin 48) (s : State) : Host.Outcome State Fault Refusal := done (billetWithdrawn b s)

/-- BILLET_INSERTED: with its identity memory; it stays off until the next full kindling. -/
def billetInserted (b : Nat) (mem : List Byte) (s : State) : State :=
  if (Map.find s.billets b).any fun x => x.fitted then s else { s with billets := Map.put s.billets b { mem := mem } }

def execBilletInserted (b : Fin 48) (mem : List Byte) (s : State) : Host.Outcome State Fault Refusal := done (billetInserted b mem s)

/-! ## Regions: records and events -/

def State.seq (s : State) (c : CluId) : RegionSeq := Map.getD s.seqs c {}
def State.setSeq (s : State) (c : CluId) (q : RegionSeq) : State := { s with seqs := Map.put s.seqs c q }
def State.win (s : State) (c : CluId) : RegionWin := Map.getD s.wins c {}
def State.setWin (s : State) (c : CluId) (w : RegionWin) : State := { s with wins := Map.put s.wins c w }

/-- REGION-POWER (Table 14.14). -/
def regionEvent (c : CluId) (kind phase : Nat) (s : State) : State :=
  s.emit 0x0051 1 c.die (s.partOf c.die) [(s.stitch, 64), (c.die, 5), (c.clu, 7), (kind, 4), (phase, 4), (s.get F.cluPwrStat.nfail c.ix, 4),
    (s.get F.cluCredCap.cap c.ix, 17)]

/-- Spare eligibility in the floor plan: powerable and no mapped-out core (R500). -/
def fpSpare (c : CluId) (s : State) : State :=
  let ix := Ix.mod c.die c.clu
  let s := s.set F.nirFpClu.flags ix (putBits (s.get F.nirFpClu.flags ix) 4 1 (boolNat (s.spareOk c)))
  s.set F.nirFpDie.nspare (Ix.mod c.die) ((dieClus c.die).filter fun e => (s.get F.nirFpClu.flags (Ix.mod e.die e.clu)).testBit 4).length

/-- The floor plan's region code (Table 16.7), the die's count of DEAD and unpowerable regions, and spare eligibility. -/
def fpRegionIs (c : CluId) (code : Nat) (s : State) : State :=
  let s := s.set F.nirFpClu.region (Ix.mod c.die c.clu) code
  let s := if code = rDead ∨ code = 8 then s.set F.nirFpClu.naout (Ix.mod c.die c.clu) 255 else s
  let s := s.set F.nirFpDie.ndead (Ix.mod c.die) ((dieClus c.die).filter fun e => decide (s.fpRegion e = rDead) || decide (s.fpRegion e = 8)).length
  (fpSpare c s).fpChange

/-! ## Power-on (R455-R458, R462) -/

/-- An active harness's tack map binds the region. -/
def State.regionBound (s : State) (c : CluId) : Bool := s.active.any fun e => e.2.bindings.any fun b => decide (b.2 = c)

/-- A command of STW.PWR.SEQ that its steward refuses; LATE is reported too (R27). -/
def seqResult (c : CluId) (st cmd t : Nat) (s : State) : State :=
  let s := s.set F.stwPwrSeqResult.status (Ix.stw c.die) st
  if st = 1 then s.commandLate c.die cmd t else s

/-- REGION_ON: region c at stitch t.  A region off for heat is STATE until its cluster has been at or below 85 °C for 1 s (R479). -/
def regionOnCmd (c : CluId) (t : Nat) (s : State) : State :=
  if s.dieDark c.die then s
  else if t ≤ s.stitch + 2 then seqResult c 1 3 t s
  else if s.regionState c = rDead then seqResult c 3 3 t s
  else if s.regionState c ≠ rOff ∨ (s.bit F.stwThmCt.heatoff (Ix.stw c.die c.clu) ∧ ¬ (Map.find s.heatCool c).any fun w => decide (w + 12375000000 ≤ s.wall)) then
    seqResult c 4 3 t s
  else (seqResult c 0 3 t s).setSeq c { s.seq c with onAt := some t }

def execRegionOn (c : CluId) (t : BitVec 64) (s : State) : Host.Outcome State Fault Refusal := done (regionOnCmd c t.toNat s)

/-- REGION_OFF: region c at stitch t. -/
def regionOffCmd (c : CluId) (t : Nat) (s : State) : State :=
  if s.dieDark c.die then s
  else if t ≤ s.stitch + 2 then seqResult c 1 4 t s
  else if s.regionBound c then seqResult c 2 4 t s
  else if s.regionState c = rDead then seqResult c 3 4 t s
  else if s.regionState c ≠ rOn then seqResult c 4 4 t s
  else (seqResult c 0 4 t s).setSeq c { s.seq c with offAt := some t }

def execRegionOff (c : CluId) (t : BitVec 64) (s : State) : Host.Outcome State Fault Refusal := done (regionOffCmd c t.toNat s)

/-- PREP begins: the regulator is enabled at VID of the step in force (R456). -/
def beginPrep (c : CluId) (s : State) : State :=
  let q := { s.seq c with onAt := none }
  if s.regionState c = rOff ∧ ¬ s.dieDark c.die then
    (s.sets c.ix [(F.cluPwrStat.state, rPrep), (F.cluPwrStat.slow, 0), (F.cluPwrStat.code, vidCode s.curStep)]).setSeq c
      { q with since := s.stitch, stage := 0, ready := false, firstWait := none, openAt := none, toDead := false }
  else s.setSeq c q

/-- Regions whose power-on begins at this stitch. -/
def startPreps (s : State) : State :=
  forAll ((s.seqs.filter fun e => e.2.onAt.any fun t => decide (t ≤ s.stitch)).map fun e => e.1) beginPrep s

/-- Number of failed phases of a mask. -/
def phases (m : Nat) : Nat := ((List.range 9).filter fun i => m.testBit i).length

/-- A phase fails and is switched out: counted, shown, reported; the spare stands in for a main phase; the cap follows. -/
def failPhase (c : CluId) (i : Nat) (s : State) : State :=
  let q := s.seq c
  if q.failed.testBit i then s
  else
    let m := q.failed ||| 2 ^ i
    let s := (s.setSeq c { q with failed := m }).sets c.ix [(F.cluPwrStat.phase_ok, 0x1FF - m), (F.cluPwrStat.nfail, phases m),
      (F.cluPwrStat.spare_in, boolNat (!m.testBit 8 && decide (m % 256 ≠ 0)))]
    let s := (s.inc F.stwPwrCnt.phasef (Ix.stw c.die)).set F.nirFpClu.nfail (Ix.mod c.die c.clu) (phases m)
    let s := regionEvent c 0 i (setCap c s)
    if phases m = 2 then regionEvent c 1 0 s else if phases m = 3 then regionEvent c 2 0 s else s

/-- A power-down is scheduled; the earliest stands, and DEAD outweighs OFF (Table 15.6). -/
def schedulePowerDown (c : CluId) (t : Nat) (dead : Bool) (s : State) : State :=
  if s.regionState c = rDead ∨ (s.regionState c = rOff ∧ ¬ dead) then s
  else
    let q := s.seq c
    s.setSeq c { q with onAt := none, offAt := some ((q.offAt.map fun u => min u t).getD t), toDead := q.toDead || dead }

/-- PHASE_FAILURE: a phase of a running regulator; the third failure takes the region dark from the next stitch.  [DEDUCED, log 156] -/
def phaseFailure (c : CluId) (i : Nat) (s : State) : State :=
  if s.regionState c = rOff ∨ s.regionState c = rDead ∨ s.dieDark c.die then s
  else
    let s := failPhase c i s
    if 3 ≤ phases (s.seq c).failed then schedulePowerDown c (s.stitch + 1) true s else s

def execPhaseFailure (c : CluId) (i : Fin 9) (s : State) : Host.Outcome State Fault Refusal := done (phaseFailure c i s)

/-- REGION_PREP_END: after 32 st; `failing` are the phases that fail their test.  Three failed phases are DEAD. -/
def regionPrepEnd (c : CluId) (failing : Nat) (s : State) : State :=
  let q := s.seq c
  if s.regionState c = rPrep ∧ ¬ q.ready ∧ q.since + 32 ≤ s.stitch then
    let s := s.set F.cluPwrStat.phase_ok c.ix (0x1FF - q.failed)
    let s := forAll ((List.range 9).filter fun i => failing.testBit i) (failPhase c) s
    if 3 ≤ phases (s.seq c).failed then
      fpRegionIs c rDead ((s.set F.cluPwrStat.state c.ix rDead).setSeq c { failed := (s.seq c).failed })
    else s.setSeq c { s.seq c with ready := true }
  else s

def execRegionPrepEnd (c : CluId) (failing : BitVec 9) (s : State) : Host.Outcome State Fault Refusal := done (regionPrepEnd c failing.toNat s)

/-- I_die: the latest current reports of the die's regions and of its transit rail, in 10 mA. -/
def State.idie (s : State) (d : Nat) : Nat :=
  (dieClus d).foldl (fun t c => t + s.get F.cluPwrMeas.ireg c.ix) (Map.getD s.transitI d 0)

/-- Headroom a stage requires (Table 14.12) with 4 A for each mesh neighbour on the die above 4.5 A, in 10 mA. -/
def State.stageNeed (s : State) (c : CluId) (stage : Nat) : Nat :=
  let base := if stage ≤ 1 then 600 else if stage = 2 then 800 else if stage = 3 then 1200 else 1600
  base + 400 * ((List.range 4).filter fun dir => (cluNext c dir).any fun e => decide (e.die = c.die) && decide (450 < s.get F.cluPwrMeas.ireg e.ix)).length

/-- What stages begun in this stitch on the die have already claimed. -/
def State.claimedMa (s : State) (d : Nat) : Nat :=
  ((s.seqs.filter fun e => decide (e.1.die.val = d) && decide (e.2.tookAt = s.stitch)).map fun e => e.2.took).foldl (· + ·) 0

/-- The headroom check of R457. -/
def State.headroom (s : State) (c : CluId) (stage : Nat) : Bool :=
  decide (s.idie c.die + s.claimedMa c.die + s.stageNeed c stage ≤ min 73000 (100 * s.get F.stwPwrRail.cap_a (Ix.stw c.die)))

/-- 4,096 st have passed since the region first entered WAIT in this power-on (R458). -/
def State.slowDue (s : State) (c : CluId) : Bool :=
  (s.seq c).firstWait.any fun t => decide (t + 4096 ≤ s.stitch) && !s.bit F.cluPwrStat.slow c.ix

/-- A header-stage check of the region is due at this stitch. -/
def State.checkDue (s : State) (c : CluId) : Bool :=
  let q := s.seq c
  let st := s.regionState c
  !s.bit F.cluPwrStat.slow c.ix && !s.slowDue c &&
    ((decide (st = rPrep) && q.ready) || (decide (st = rLadder) && decide (q.stage < 4) && decide (q.since + q.len ≤ s.stitch)) ||
      (decide (st = rWait) && decide (q.since + 16 ≤ s.stitch)))

/-- A region of the die with a lower cluster index has a check due: it goes first (Table 14.13). -/
def State.lowerDue (s : State) (c : CluId) : Bool :=
  s.seqs.any fun e => decide (e.1.die = c.die) && decide (e.1.clu < c.clu) && s.checkDue e.1

/-- A header stage begins. -/
def startStage (c : CluId) (stage len need : Nat) (s : State) : State :=
  (s.set F.cluPwrStat.state c.ix rLadder).setSeq c
    { s.seq c with since := s.stitch, len := len, stage := stage, ready := false, tookAt := s.stitch, took := need }

/-- The check before the next stage: the stage begins, or the region waits. -/
def tryStage (c : CluId) (s : State) : State :=
  let q := s.seq c
  if s.headroom c (q.stage + 1) then startStage c (q.stage + 1) 64 (s.stageNeed c (q.stage + 1)) s
  else
    let s := (s.inc F.stwPwrCnt.waits (Ix.stw c.die)).inc F.cluPwrCnt.waits c.ix
    (s.set F.cluPwrStat.state c.ix rWait).setSeq c
      { q with since := s.stitch, ready := false, firstWait := some (q.firstWait.getD s.stitch) }

/-- Arrays of a cluster. -/
def cluArrays (c : CluId) : List ArrId := (cluCores c).flatMap fun k => (List.finRange 64).map k.arr

/-- Lose the scratchpads, shared buffer and, with `planes`, the weight planes of a region.  [DEDUCED, log 158] -/
def loseRegion (c : CluId) (planes : Bool) (s : State) : State :=
  let s := forAll (cluCores c) (fun k s =>
    let s := s.loseRange (spadAddr k 0) (spadAddr k 0x40000)
    if planes then s.loseRange (planeAddr (k.arr 0) 0) (planeAddr (k.arr 0) 0 + 0x80000) else s) s
  let s := s.loseRange (sbufAddr c 0) (sbufAddr c 0x80000)
  { s with cache := s.cache.filter fun e => decide (e.1.1 ≠ c) }

/-- CLEARING begins: arrays cleared, scratchpads and shared buffer zeroed, latches Q4 zero, no valid calibration. -/
def beginClearing (c : CluId) (s : State) : State :=
  let s := (s.set F.cluPwrStat.state c.ix rClearing).setSeq c { s.seq c with since := s.stitch }
  let s := forAll (cluArrays c) (fun a s => (powerClear a s).set F.coreCalrecStat.valid a.ix 0) s
  let s := loseRegion c false s
  let s := forAll (List.range 8) (fun u s => s.setSbufState c u (if s.sbufMode c u = 2 then 2 else 3)) s
  forAll (cluCores c) (fun k s => { s with cores := Map.del s.cores k }) s

/-- REGION_HEADER_STAGE: after PREP and after each stage; the slow ladder makes no check. -/
def regionHeaderStage (c : CluId) (s : State) : State :=
  let q := s.seq c
  let st := s.regionState c
  if (st = rPrep ∧ q.ready) ∨ (st = rLadder ∧ q.since + q.len ≤ s.stitch) then
    if st = rLadder ∧ q.stage = 4 then beginClearing c s
    else if s.bit F.cluPwrStat.slow c.ix then startStage c (q.stage + 1) 128 0 s
    else if s.slowDue c ∨ s.lowerDue c then s
    else tryStage c s
  else s

def execRegionHeaderStage (c : CluId) (s : State) : Host.Outcome State Fault Refusal := done (regionHeaderStage c s)

/-- REGION_WAIT_RECHECK: every 16 st in WAIT. -/
def regionWaitRecheck (c : CluId) (s : State) : State :=
  if s.regionState c = rWait ∧ s.checkDue c ∧ ¬ s.lowerDue c then tryStage c s else s

def execRegionWaitRecheck (c : CluId) (s : State) : Host.Outcome State Fault Refusal := done (regionWaitRecheck c s)

/-- REGION_SLOW_LADDER: the stage due and later stages last 128 st each, without checks. -/
def regionSlowLadder (c : CluId) (s : State) : State :=
  let st := s.regionState c
  if s.slowDue c ∧ (st = rWait ∨ st = rLadder ∧ (s.seq c).stage < 4) then
    let s := regionEvent c 4 0 ((s.set F.cluPwrStat.slow c.ix 1).inc F.stwPwrCnt.slow (Ix.stw c.die))
    if st = rWait then startStage c ((s.seq c).stage + 1) 128 0 s else s
  else s

def execRegionSlowLadder (c : CluId) (s : State) : Host.Outcome State Fault Refusal := done (regionSlowLadder c s)

/-- REGION_CLEARING_END: after 16 st the region is ON. -/
def regionClearingEnd (c : CluId) (s : State) : State :=
  if s.regionState c = rClearing ∧ (s.seq c).since + 16 ≤ s.stitch then
    let s := (s.set F.cluPwrStat.state c.ix rOn).inc F.cluPwrCnt.powerups c.ix
    let s := forAll (List.range 8) (fun u s => if s.sbufState c u = 3 then s.setSbufState c u 0 else s) s
    let s := (s.setWin c {}).set F.stwThmCt.heatoff (Ix.stw c.die c.clu) 0
    let f := s.get F.nirFpClu.flags (Ix.mod c.die c.clu)
    regionEvent c 7 0 (fpRegionIs c rOn (s.set F.nirFpClu.flags (Ix.mod c.die c.clu) (putBits f 7 1 0)))
  else s

def execRegionClearingEnd (c : CluId) (s : State) : Host.Outcome State Fault Refusal := done (regionClearingEnd c s)

/-! ## Power-down (R460, R461) -/

/-- The cores and cluster units of a region are gated: nothing of theirs goes on. -/
def gateRegion (c : CluId) (s : State) : State :=
  let s := forAll (cluCores c) (fun k s => s.setCore k { stopAt := some s.now }) s
  let cut := s.rwq.filter fun e => match e.1 with
    | .spad k _ => decide (k.cluId = c)
    | .sbuf k _ _ => decide (k = c)
  let s := forAll (cut.flatMap fun e => e.2) (fun r s => s.send (.dynDone r.addr xWindowClosed [])) s
  { s with chans := s.chans.filter (fun e => decide (e.1.1 ≠ c)), flights := s.flights.filter (fun x => decide (x.core.cluId ≠ c))
           rwq := s.rwq.filter fun e => match e.1 with
             | .spad k _ => decide (k.cluId ≠ c)
             | .sbuf k _ _ => decide (k ≠ c) }

/-- REGION_POWER_DOWN: at stitch D the clocks are gated and the region's windows fenced; a power-on in progress ends and its
headers open from the stage reached. -/
def regionPowerDown (c : CluId) (s : State) : State :=
  let q := s.seq c
  match q.offAt with
  | none => s
  | some d =>
    if s.stitch < d then s
    else
      let st := s.regionState c
      if st = rPrep ∨ st = rWait ∨ st = rLadder then
        (s.set F.cluPwrStat.state c.ix rDown).setSeq c { q with offAt := none, ready := false, openAt := some s.stitch }
      else if st = rOn ∨ st = rClearing then
        let s := (s.set F.cluPwrStat.state c.ix rDown).setSeq c { q with offAt := none, stage := 4, openAt := none }
        startFence (.region c) (gateRegion c s)
      else s.setSeq c { q with offAt := none }

def execRegionPowerDown (c : CluId) (s : State) : Host.Outcome State Fault Refusal := done (regionPowerDown c s)

/-- Seats that held a resident block in a lane of the region are BROKEN, LOST (R255, R240).  [DEDUCED, log 101] -/
def loseSeats (c : CluId) (s : State) : State :=
  match s.partOf c.die with
  | none => s
  | some p => forAll ((s.lanes p).filter fun l => decide (l.1.cluId = c)) (fun l s =>
      forAll ((List.range 512).filter fun σ => s.bit F.coreKvfRoleSeat.active (l.ix σ) && (s.seatSlots l σ).any fun k => (s.homeOf l k).isSome)
        (fun σ s => s.breakSeat p l σ (s.get F.coreKvfRoleSeat.len (l.ix σ)) kvLost) s) s

/-- The region is off: regulator off, contents lost, arrays OFF, no valid calibration, its cores idle.  [DEDUCED, log 157] -/
def regionIsOff (c : CluId) (st : Nat) (s : State) : State :=
  let s := loseSeats c (gateRegion c s)
  let s := loseRegion c true s
  let s := forAll (s.knownArrays.filter fun a => decide (a.coreId.cluId = c)) (fun a s =>
    ((if s.mapOut.contains a then s else s.setArrState a aOff).set F.coreCalrecStat.valid a.ix 0).dropRegs (fun k => decide (k.reg = .arrTrim ∧
        k.ix.die = a.die.val ∧ k.ix.clu = a.clu.val ∧ k.ix.core = a.core.val ∧ k.ix.n = a.arr.val)) |>.setEngine a
      { s.engine a with reissueAt := 0, convEnd := 0, hold := false, clearEnd := none, clearAfter := none, accessEnd := 0, reload := 0 }) s
  let s := forAll (cluCores c) (fun k s => { s with cores := Map.del s.cores k }.set F.coreSeqTask.state k.ix qIdle) s
  let s := forAll (List.range 8) (fun u s => s.setSbufState c u 2) s
  let s := s.sets c.ix [(F.cluPwrStat.state, st), (F.cluPwrMeas.ireg, 0)]
  let s := { s with fences := Map.del s.fences (.region c), wins := Map.del s.wins c, actWrites := s.actWrites.filter fun w => decide (w.arr.coreId.cluId ≠ c) }
  fpRegionIs c st (s.setSeq c { failed := (s.seq c).failed })

/-- REGION_HEADER_OPEN: once the fence has closed the headers open from the stage reached, 16 st apart; then the region is OFF
or DEAD. -/
def regionHeaderOpen (c : CluId) (s : State) : State :=
  let q := s.seq c
  let due := match q.openAt with
    | some t => some t
    | none => (Map.find s.fences (.region c)).bind fun f => f.closedAt
  match due with
  | none => s
  | some t =>
    if s.regionState c ≠ rDown ∨ s.stitch < t then s
    else if 0 < q.stage then s.setSeq c { q with stage := q.stage - 1, openAt := some (t + 16) }
    else if q.toDead then regionIsOff c rDead s
    else regionEvent c 8 0 (regionIsOff c rOff s)

def execRegionHeaderOpen (c : CluId) (s : State) : Host.Outcome State Fault Refusal := done (regionHeaderOpen c s)

/-- REGION_SHORT: the header opens at once and the region is DEAD; granted transfers complete with the bytes landed (R289). -/
def regionShort (c : CluId) (s : State) : State :=
  let st := s.regionState c
  if st = rOff ∨ st = rPrep ∨ st = rDead ∨ s.dieDark c.die then s
  else
    let s := closeUnit (.region c) s
    regionEvent c 3 0 (regionIsOff c rDead (s.inc F.stwPwrCnt.shorts (Ix.stw c.die)))

def execRegionShort (c : CluId) (s : State) : Host.Outcome State Fault Refusal := done (regionShort c s)

/-! ## Current reports and credit windows (R449, R452, R453, R464) -/

/-- Lowest permitted droop reading in mV, and the model currents per busy array and of the region in 0.1 mA (Table 14.8). -/
def vmin : Nat → Nat
  | 0 => 740
  | 1 => 715
  | 2 => 690
  | 3 => 660
  | 4 => 620
  | _ => 600

/-- Current of a busy array, by clock step. -/
def iArr : Nat → Nat
  | 0 => 120
  | 1 => 106
  | 2 => 94
  | 3 => 81
  | 4 => 63
  | _ => 48

/-- Base current of a region, by clock step. -/
def iBase : Nat → Nat
  | 0 => 19500
  | 1 => 17300
  | 2 => 15200
  | 3 => 13100
  | 4 => 10300
  | _ => 7800

/-- REGION_CURRENT_REPORT of region i, or of the die's transit rail: mean current of the last 16 st in 10 mA, and the lowest
readings of the eight droop sensors in mV.  A floor raised for a step-up moves the code up by one (R451, R453). -/
def regionCurrentReport (d : DieIx) (i : Option CluIx) (cur : Nat) (droop : List Nat) (s : State) : State :=
  if s.stitch % 16 ≠ 0 ∨ s.dieDark d then s
  else
    let s := match i with
      | none => { s with transitI := Map.put s.transitI d.val cur }
      | some i =>
        let c : CluId := ⟨d, i⟩
        let st := s.regionState c
        if st = rOff ∨ st = rDead then s
        else
          let ok := fun (v : Nat) => decide (400 ≤ v) && decide (v ≤ 1000)
          let mask := (droop.take 8).zipIdx.foldl (fun (m : Nat) (e : Nat × Nat) => if ok e.1 then m + 2 ^ e.2 else m) 0
          let w := s.win c
          let low := ((droop.take 8).filter ok).foldl (fun (t : Option Nat) v => some ((t.map fun u => min u v).getD v)) w.low
          let s := (s.sets c.ix [(F.cluPwrMeas.ireg, min cur 1023), (F.cluPwrMeas.valid, mask)]).setWin c
            { w with sum := w.sum + cur, n := w.n + 1, low := low }
          let code := s.get F.cluPwrStat.code c.ix
          if s.standby < s.curStep ∧ code < vidCode s.standby then s.set F.cluPwrStat.code c.ix (code + 1) else s
    s.set F.stwPwrIdie.idie (Ix.stw d) (min (s.idie d / 25) 0xFFF)

def execRegionCurrentReport (d : DieIx) (i : Option CluIx) (cur : Fin 65536) (droop : List Nat) (s : State) : Host.Outcome State Fault Refusal :=
  done (regionCurrentReport d i cur droop s)

/-- Regions in state ON. -/
def State.onRegions (s : State) : List CluId :=
  s.regs.filterMap fun e => if e.1.reg = .cluPwrStat ∧ e.1.lo = 0 ∧ e.2 = rOn then (cluAt? e.1.ix.die e.1.ix.clu).bind fun c =>
    if s.dieDark c.die then none else some c else none

/-- The region's mean current over the window exceeds 1.10 × I_decl + 0.20 A (R464). -/
def RegionWin.over (w : RegionWin) (step : Nat) : Bool :=
  match w.decl with
  | none => false
  | some b => decide (0 < w.n) && decide (w.n * (11 * (256 * iBase step + iArr step * b) + 5120000) < 256000 * w.sum)

/-- The governor's evaluation of the window just ended. -/
def governorWindow (s : State) : State :=
  let on := s.onRegions
  let hot := on.filter fun c => (s.win c).over s.winStep || (s.win c).droop
  let s := forAll on (fun c s =>
    let w := s.win c
    let x := hot.contains c
    let s := s.setWin c { w with excess := if x then w.excess + 1 else 0 }
    if x then s.inc F.cluPwrCnt.excess c.ix else s) s
  let s := { s with manyRun := if 16 ≤ hot.length then s.manyRun + 1 else 0, govSince := if hot.isEmpty then s.govSince else s.stitch }
  match on.find? fun c => decide (8 ≤ (s.win c).excess) with
  | some c => raiseGov 0 (some c) s
  | none => if 4 ≤ s.manyRun then raiseGov 1 none s else s

/-- The setpoint loop of a region, and its droop limit (R453).  [DEDUCED, log 155] -/
def setpointLoop (c : CluId) (s : State) : State :=
  let w := s.win c
  if w.n = 0 then s
  else
    let k := s.curStep
    let m := w.low.getD 0
    let code := s.get F.cluPwrStat.code c.ix
    let few := decide (((List.range 8).filter fun i => (s.get F.cluPwrMeas.valid c.ix).testBit i).length < 4)
    let lows := if code = 50 ∧ m < vmin k then w.lows + 1 else 0
    let limit := few || decide (16 ≤ lows)
    let floor := max (vidCode k - 4) (if s.standby < k then min code (vidCode s.standby) else 0)
    let new := if few then 50 else if m < vmin k + 10 then min 50 (code + 1) else if vmin k + 30 < m then max floor (code - 1) else code
    let s := s.sets c.ix [(F.cluPwrStat.code, new), (F.cluPwrMeas.mindroop, m)]
    let s := if code < new ∧ ¬ few then s.inc F.cluPwrCnt.code_up c.ix else s
    let s := s.setWin c { w with lows := lows, droop := limit }
    let s := if limit then s.raise F.cluPwrStat.droop_lim c.ix else s
    let s := if limit then { s with govSince := s.stitch } else s
    if limit ∧ ¬ w.droop then raiseGov 5 (some c) (regionEvent c 5 0 s) else s

/-- Cores that hold budget tables or charges. -/
def State.creditCores (s : State) : List CoreId :=
  ((s.cores.map fun e => e.1) ++ s.regs.filterMap fun e =>
    if e.1.reg = .coreCredTab ∨ e.1.reg = .coreCredCfg ∨ e.1.reg = .coreCredUse then coreOfIx e.1.ix else none).eraseDups

/-- Sum of a region's budget entries in force in a window. -/
def State.declared (s : State) (c : CluId) (w : Nat) : Nat :=
  (cluCores c).foldl (fun t k => t + s.get F.coreCredEff.budget (k.ix (s.creditEntry k w))) 0

/-- CREDIT_WINDOW_START: at each multiple of 256 st: the governor judges the window ended unless a clock step fell in it, the
regulators' setpoint loops and the die-rail setpoints move, credit use rolls over, and the new window's declared budgets are
taken.  [DEDUCED, log 215] -/
def creditWindowStart (s : State) : State :=
  let w := s.stitch / 256
  if s.stitch % 256 ≠ 0 ∨ s.cc ≠ 0 ∨ s.lastWin = some w then s
  else
    let stepped := s.lastStep.any fun t => decide (s.stitch ≤ t + 256) && decide (t < s.stitch)
    let s := if s.lastWin.isNone ∨ stepped then s else governorWindow s
    let s := forAll s.onRegions setpointLoop s
    let s := forAll s.litDies (fun d s => s.set F.stwPwrRail.set (Ix.stw d) (s.railTarget d)) s
    let s := forAll s.creditCores creditRoll s
    let s := forAll s.onRegions (fun c s => s.setWin c { s.win c with sum := 0, n := 0, low := none, decl := some (s.declared c w) }) s
    { s with lastWin := some w, winStep := s.curStep }

def execCreditWindowStart (s : State) : Host.Outcome State Fault Refusal := done (creditWindowStart s)

/-! ## Steward commands and host requests that name a stitch (R27, R28) -/

/-- HOST_STITCH_REQUEST: the host asks Nirdo to switch region c on or off at stitch t; Nirdo schedules it for the earliest
stitch that gives 64 st of lead, answers that stitch, and sends the command to the die's steward. -/
def hostStitchRequest (c : CluId) (on : Bool) (t : Nat) (s : State) : State :=
  let at_ := max t (s.stitch + 64)
  { s with stwQ := s.stwQ ++ [(c.die.val, on, c.clu.val, at_)] }.send (.answer at_ true)

def execHostStitchRequest (c : CluId) (on : Bool) (t : BitVec 64) (s : State) : Host.Outcome State Fault Refusal :=
  done (hostStitchRequest c on t.toNat s)

/-- STEWARD_COMMAND: die d's steward executes the oldest command that has reached it, or refuses it LATE. -/
def stewardCommand (d : DieIx) (s : State) : State :=
  match takeFirst (fun q => decide (q.1 = d.val)) s.stwQ with
  | none => s
  | some (q, rest) =>
    let s := { s with stwQ := rest }
    match cluAt? d q.2.2.1 with
    | none => s
    | some c => if q.2.1 then regionOnCmd c q.2.2.2 s else regionOffCmd c q.2.2.2 s

def execStewardCommand (d : DieIx) (s : State) : Host.Outcome State Fault Refusal := done (stewardCommand d s)

/-! ## The 60 V bus (R439) -/

/-- SUPPLY (Table 14.14). -/
def supplyEvent (kind : Nat) (s : State) : State :=
  s.emit 0x0053 (if kind = 4 then 3 else 1) 31 none [(s.stitch, 64), (kind, 3), (s.get F.nirPwrStat.vbus (Ix.mod), 16)]

/-- A voltage of the bus: since when it has been in 54-63 V.  [DESIGN CHOICE, log 160] -/
def State.busSeen (s : State) (v : Nat) : State :=
  { s with mon := { s.mon with busSince := if 5400 ≤ v ∧ v ≤ 6300 then s.mon.busSince.orElse (fun _ => some s.wall) else none } }

/-- The condition shown in SUPPLY and the voltage. -/
def setBus (cond v : Nat) (s : State) : State := (s.busSeen v).sets (Ix.mod) [(F.nirPwrStat.supply, cond), (F.nirPwrStat.vbus, v)]

/-- A warm kindling stops at an ember decision for its scope, or for the module (R516); the scope stays in ember mode. -/
def stopWarm (scope : Option Nat) (s : State) : State :=
  match s.kdl.kin with
  | none => s
  | some k =>
    if k.warm ∧ (scope = none ∨ k.scope = scope ∨ k.scope = none) then
      let s := { s with kdl := { s.kdl with kin := none } }
      let st := if k.scope.isNone then 5 else if s.kdl.ready then 2 else 3
      (s.set F.nirKindleStat.state (Ix.mod) st).set F.nirFpHead.state (Ix.mod) st
    else s

/-- An ember decision: the gate stitch is 64 st ahead (R28, R513).  A decision already made stands, and the module in ember mode
needs none unless a warm kindling has begun to take it out.  [DEDUCED, log 159] -/
def emberDecide (scope : Option Nat) (cause : Nat) (s : State) : State :=
  if (Map.find s.embers scope).isSome ∨ (Map.find s.embers none).isSome ∨ s.shut ∨
      (s.bit F.nirEmberStat.module (Ix.mod) ∧ ¬ s.kdl.kin.any fun k => k.warm) then s
  else { stopWarm scope s with embers := Map.put s.embers scope (s.stitch + 64, cause) }

/-- The module is shut down: billets and carrier converters off, Nirdo without power soon after.  What is not in flash, in the
billets or already outside is gone. -/
def shutDown (s : State) : State :=
  { State.reset with pending := s.pending, draws := s.draws, out := s.out, wall := s.wall, flashAges := s.flashAges, flashWear := s.flashWear
                     billets := s.billets, ident := s.ident, keys := s.keys, shut := true, sdRecs := s.sdRecs
                     net := { mfgLock := s.net.mfgLock, perst := s.net.perst }, kdl := { clean := false }
                     regs := s.regs.filter fun e => decide (e.1.reg = .nirThmSdrec) }

/-- BUS_LOW: 51.0-54.0 V for 100 µs. -/
def busLow (v : Nat) (s : State) : State :=
  if 5100 ≤ v ∧ v < 5400 ∧ s.get F.nirPwrStat.supply (Ix.mod) ≠ 1 ∧ ¬ s.shut then raiseGov 5 none (supplyEvent 0 (setBus 1 v s)) else s

def execBusLow (v : Fin 65536) (s : State) : Host.Outcome State Fault Refusal := done (busLow v s)

/-- BUS_LOW_REPEAT: another 1 ms of the same condition. -/
def busLowRepeat (s : State) : State :=
  if s.get F.nirPwrStat.supply (Ix.mod) = 1 then raiseGov 5 none s else s

def execBusLowRepeat (s : State) : Host.Outcome State Fault Refusal := done (busLowRepeat s)

/-- BUS_EMBER_RANGE: 45.0-51.0 V for 200 µs. -/
def busEmberRange (v : Nat) (s : State) : State :=
  if 4500 ≤ v ∧ v < 5100 ∧ s.get F.nirPwrStat.supply (Ix.mod) ≠ 2 ∧ ¬ s.shut then emberDecide none 2 (supplyEvent 1 (setBus 2 v s)) else s

def execBusEmberRange (v : Fin 65536) (s : State) : Host.Outcome State Fault Refusal := done (busEmberRange v s)

/-- BUS_UNDERVOLTAGE: below 45.0 V for 20 µs; `holdup`: Nirdo's hold-up allows the event. -/
def busUndervoltage (v : Nat) (holdup : Bool) (s : State) : State :=
  if v < 4500 ∧ ¬ s.shut then
    let s := setBus 0 v s
    shutDown (if holdup then supplyEvent 4 s else s)
  else s

def execBusUndervoltage (v : Fin 65536) (holdup : Bool) (s : State) : Host.Outcome State Fault Refusal := done (busUndervoltage v holdup s)

/-- BUS_HIGH: 63.0-66.0 V for 1 ms. -/
def busHigh (v : Nat) (s : State) : State :=
  if 6300 < v ∧ v ≤ 6600 ∧ s.get F.nirPwrStat.supply (Ix.mod) ≠ 3 ∧ ¬ s.shut then supplyEvent 3 (setBus 3 v s) else s

def execBusHigh (v : Fin 65536) (s : State) : Host.Outcome State Fault Refusal := done (busHigh v s)

/-- BUS_OVERVOLTAGE: above 66.0 V for 10 µs. -/
def busOvervoltage (v : Nat) (holdup : Bool) (s : State) : State :=
  if 6600 < v ∧ ¬ s.shut then
    let s := setBus 0 v s
    shutDown (if holdup then supplyEvent 4 s else s)
  else s

def execBusOvervoltage (v : Fin 65536) (holdup : Bool) (s : State) : Host.Outcome State Fault Refusal := done (busOvervoltage v holdup s)

/-- BUS_RESTORED: back in range by 0.5 V for 1 ms after a low, ember-range or high condition. -/
def busRestored (v : Nat) (s : State) : State :=
  if s.get F.nirPwrStat.supply (Ix.mod) ≠ 0 ∧ 5450 ≤ v ∧ v ≤ 6250 then supplyEvent 2 (setBus 0 v s) else s

def execBusRestored (v : Fin 65536) (s : State) : Host.Outcome State Fault Refusal := done (busRestored v s)

end Sys2Proof.Machine
end

