-- ==== Sys2Proof/Machine/Telemetry.lean ====
section
/-!
DEFINITION. Telemetry, thermal protection and cooling (chapter 15): converters and references, channels, sensor pairs, the thermal
ceiling, hard limits, coolant and the heat-removal margin.
-/

namespace Sys2Proof.Machine
open Sys2Proof

def State.tlmOf (s : State) (d : Nat) : Telemetry := Map.getD s.tlm d {}
def State.setTlm (s : State) (d : Nat) (t : Telemetry) : State := { s with tlm := Map.put s.tlm d t }

def Telemetry.conv (t : Telemetry) (k : Nat) : Converter := if k = 0 then t.c0 else t.c1
def Telemetry.setConv (t : Telemetry) (k : Nat) (c : Converter) : Telemetry := if k = 0 then { t with c0 := c } else { t with c1 := c }

/-- THERMAL (Table 15.7). -/
def thermalEvent (by_ kind die clu sensor temp : Nat) (s : State) : State :=
  s.emit 0x0060 (if kind = 6 then 3 else 1) by_ (s.partOf die) [(s.stitch, 64), (kind, 4), (die, 5), (clu, 7), (sensor, 6), (temp, 10),
    (s.get F.nirThmStat.thm_step (Ix.mod), 3)]

/-! ## References (R471, R472) -/

/-- Reference of a conversion that starts now: 1 main, 2 fallback, 3 supply as fallback, 0 none. -/
def State.reference (s : State) (d : Nat) : Nat :=
  let ix := Ix.stw d
  if s.bit F.tlmRef.main_ok ix then 1
  else if s.bit F.tlmRef.fb_ok ix then (if s.get F.tlmRef.fb_sel ix = 2 then 3 else 2)
  else 0

/-- MAIN_REF_ENABLE: a write of MAIN_EN; disabling clears MAIN_OK and a fault of the buffer. -/
def mainRefEnable (d : Nat) (en : Bool) (s : State) : State :=
  let ix := Ix.stw d
  if en then s.set F.tlmRef.main_en ix 1
  else ((s.set F.tlmRef.main_en ix 0).set F.tlmRef.main_ok ix 0).setTlm d { s.tlmOf d with mainBad := false }

def execMainRefEnable (d : DieIx) (en : Bool) (s : State) : Host.Outcome State Fault Refusal := done (mainRefEnable d en s)

/-- MAIN_REF_SETTLED: 2.0 ms after the enable. -/
def mainRefSettled (d : Nat) (s : State) : State :=
  if s.bit F.tlmRef.main_en (Ix.stw d) ∧ ¬ (s.tlmOf d).mainBad then s.set F.tlmRef.main_ok (Ix.stw d) 1 else s

def execMainRefSettled (d : DieIx) (s : State) : Host.Outcome State Fault Refusal := done (mainRefSettled d s)

/-- FALLBACK_SELECT: a write of FB_SEL; a change clears FB_OK. -/
def fallbackSelect (d v : Nat) (s : State) : State :=
  let ix := Ix.stw d
  let v := storeRule F.tlmRef.fb_sel v
  if s.get F.tlmRef.fb_sel ix = v then s else (s.set F.tlmRef.fb_sel ix v).set F.tlmRef.fb_ok ix 0

def execFallbackSelect (d : DieIx) (v : Fin 4) (s : State) : Host.Outcome State Fault Refusal := done (fallbackSelect d v s)

/-- FALLBACK_SETTLED: the settling time of the selected fallback has passed. -/
def execFallbackSettled (d : DieIx) (s : State) : Host.Outcome State Fault Refusal := done (s.set F.tlmRef.fb_ok (Ix.stw d) 1)

/-! ## Results (R472, R474) -/

/-- The telemetry of a die with what came in the present core cycle. -/
def State.tlmNow (s : State) (d : Nat) : Telemetry :=
  let t := s.tlmOf d
  if t.cycle = s.now then t else { t with cycle := s.now, hits := [], fresh := 0, lost := [] }

/-- Show the oldest entry of the result queue. -/
def showQueue (d : Nat) (s : State) : State := s.set F.tlmQ.entry (Ix.stw d) ((s.tlmOf d).queue.headD 0)

/-- A queue entry (Table 15.3). -/
def queueEntry (code ch ref stitch : Nat) (urg restart : Bool) : Nat :=
  code + ch * 2 ^ 12 + boolNat urg * 2 ^ 21 + boolNat restart * 2 ^ 22 + boolNat (decide (2 ≤ ref)) * 2 ^ 23 + boolNat (decide (ref = 3)) * 2 ^ 24 +
    boolNat (decide (ref = 0)) * 2 ^ 25 + 2 ^ 27 + stitch % 2 ^ 32 * 2 ^ 32

/-- A result enters an accumulator (R474). -/
def accAdd (d k code : Nat) (s : State) : State :=
  let ax := Ix.stw d k
  let s := (s.inc F.tlmAccSum.sum ax code).inc F.tlmAccSum.count ax
  s.sets ax [(F.tlmAccRange.min, min (s.get F.tlmAccRange.min ax) code), (F.tlmAccRange.max, max (s.get F.tlmAccRange.max ax) code)]

/-- A channel's result goes to its accumulator or to the queue; one without a reference only to a queue. -/
def deliverResult (d ch code ref : Nat) (urg restart : Bool) (s : State) : State :=
  let ix := Ix.stw d
  let cx := Ix.stw d ch
  let code := if 40 ≤ s.get F.tlmCh.mux cx then 0 else code
  if s.get F.tlmCh.dest cx = 1 then
    let t := s.tlmNow d
    let e := queueEntry code ch ref s.stitch urg restart
    if 256 ≤ t.queue.length then (s.inc F.tlmCnt.qovf ix).setTlm d { t with lost := t.lost ++ [e] }
    else showQueue d (s.setTlm d { t with queue := t.queue ++ [e], fresh := t.fresh + 1 })
  else if ref = 0 then s
  else
    let k := s.get F.tlmCh.acc cx
    let t := s.tlmNow d
    accAdd d k code (s.setTlm d { t with hits := t.hits ++ [(k, code)] })

/-- ACC_CLEAR; a result that lands in the cycle of the clear is counted after it. -/
def accClear (d k : Nat) (s : State) : State :=
  let s := s.sets (Ix.stw d k) [(F.tlmAccSum.sum, 0), (F.tlmAccSum.count, 0), (F.tlmAccRange.min, 0xFFF), (F.tlmAccRange.max, 0)]
  forAll ((s.tlmNow d).hits.filter fun h => decide (h.1 = k)) (fun h s => accAdd d k h.2 s) s

def execAccClear (d : DieIx) (k : Fin 64) (s : State) : Host.Outcome State Fault Refusal := done (accClear d k s)

/-- The entry that a read takes: the oldest one that stood in the queue before the present cycle; 0 for none (R489). -/
def State.queueFront (s : State) (d : Nat) : Nat :=
  let t := s.tlmNow d
  if t.queue.length ≤ t.fresh then 0 else t.queue.headD 0

/-- Remove the oldest entry; a result of the same cycle that found the queue full is then stored behind (R489).  [DEDUCED, log 219] -/
def queuePop (d : Nat) (s : State) : State :=
  let t := s.tlmNow d
  if t.queue.length ≤ t.fresh then s
  else
    let in_ := t.lost.take 1
    let s := if in_.isEmpty then s else s.set F.tlmCnt.qovf (Ix.stw d) (s.get F.tlmCnt.qovf (Ix.stw d) - 1)
    showQueue d (s.setTlm d { t with queue := t.queue.tail ++ in_, fresh := t.fresh + in_.length, lost := t.lost.drop 1 })

/-- QUEUE_READ: the oldest entry is answered and removed; VALID = 0 from an empty queue. -/
def queueRead (d : Nat) (s : State) : State := (queuePop d s).send (.answer (s.queueFront d) true)

def execQueueRead (d : DieIx) (s : State) : Host.Outcome State Fault Refusal := done (queueRead d s)

/-! ## Conversions (R470, R473, R475-R477) -/

/-- Sense line of a cluster sensor: 0-15 TA, 16-31 TB. -/
def sensorLine (i : Nat) : Nat := i / 128 * 16 + i % 16

/-- A sense line is FAULTY. -/
def State.lineFaulty (s : State) (d l : Nat) : Bool :=
  if l < 16 then (s.get F.tlmDac.faulty (Ix.stw d)).testBit l else (s.get F.tlmDacFaultyB.faulty (Ix.stw d)).testBit (l - 16)

/-- A thermal sample enters protection unless it is out of range, without a main or ordinary fallback reference, or from a
FAULTY line (R472, R478). -/
def thermalSample (d i : Nat) (ref : Nat) (temp : Int) (s : State) : State :=
  if 0 ≤ temp ∧ temp ≤ 760 ∧ (ref = 1 ∨ ref = 2) ∧ ¬ (i < 256 ∧ s.lineFaulty d (sensorLine i)) then
    let t := s.tlmOf d
    s.setTlm d { t with samples := Map.put t.samples i temp.toNat }
  else s

/-- A bandgap conversion on the main reference: two frames in a row more than 1 % off find the buffer faulty (R472). -/
def bandgap (d k code ref : Nat) (s : State) : State :=
  let t := s.tlmOf d
  let c := t.conv k
  if ref ≠ 1 then s.setTlm d (t.setConv k { c with gap := 0 })
  else
    let want := Config.bandgapCode d k
    let off := decide (want < 100 * (max code want - min code want))
    let n := if off then c.gap + 1 else 0
    let s := s.setTlm d (t.setConv k { c with gap := n })
    if 2 ≤ n ∧ s.bit F.tlmRef.main_ok (Ix.stw d) then
      let t := s.tlmOf d
      thermalEvent d 8 d 0x7F 0 0 ((s.set F.tlmRef.main_ok (Ix.stw d) 0).setTlm d { t with mainBad := true })
    else s

/-- Line tested in a converter's present frame, and its DAC code. -/
def Converter.testLine (c : Converter) : Nat := c.frames % 32
def Converter.testCode (c : Converter) : Nat := 256 * (c.frames % 3 + 1)

/-- A self-test of a sense line: within 12 LSB of 4 × the DAC code; two failures in a row make it FAULTY (R477).  [DEDUCED, log 162] -/
def selfTest (d k code : Nat) (s : State) : State :=
  let t := s.tlmOf d
  let l := (t.conv k).testLine
  let want := 4 * (t.conv k).testCode
  let bad := decide (12 < max code want - min code want)
  let n := if bad then Map.getD t.lines l 0 + 1 else 0
  let s := s.setTlm d { t with lines := Map.put t.lines l n }
  if 2 ≤ n ∧ ¬ s.lineFaulty d l then
    let s := if l < 16 then s.set F.tlmDac.faulty (Ix.stw d) (s.get F.tlmDac.faulty (Ix.stw d) ||| 2 ^ l)
      else s.set F.tlmDacFaultyB.faulty (Ix.stw d) (s.get F.tlmDacFaultyB.faulty (Ix.stw d) ||| 2 ^ (l - 16))
    thermalEvent d 7 d 0x7F (4 + l) 0 s
  else s

/-- The next slot begins: its reference is taken; slot 132 of the converter that reads the line tests it; another channel slot
takes the oldest request. -/
def nextConversion (d k : Nat) (s : State) : State :=
  let t := s.tlmOf d
  let c := t.conv k
  let wrap := decide (255 ≤ c.slot)
  let slot := if wrap then 0 else c.slot + 1
  let test := decide (slot = 132) && s.bit F.tlmDac.selftest (Ix.stw d) && s.bit F.tlmRef.main_ok (Ix.stw d) && decide (c.testLine / 16 = k)
  let cur := if slot < 132 ∨ test then none else c.waiting.head?
  s.setTlm d (t.setConv k { c with slot := slot, cur := cur, test := test, ref := s.before.reference d, restarted := false
                                   waiting := if cur.isSome then c.waiting.tail else c.waiting
                                   urgents := if wrap then 0 else c.urgents, frames := if wrap then c.frames + 1 else c.frames })

/-- CONVERSION_SLOT: converter k of die d ends the conversion of its slot: `code` is the result, `temp` what the steward's
calibration makes of it on a thermal input (0.25 °C from −40 °C). -/
def conversionSlot (d k code : Nat) (temp : Int) (s : State) : State :=
  if s.dieDark d then s
  else
    let c := (s.tlmOf d).conv k
    let used : Bool := decide (c.slot < 132) || c.test || c.cur.isSome
    let s := if used ∧ c.ref = 0 then s.inc F.tlmCnt.noref (Ix.stw d) else s
    let s :=
      if c.slot < 128 then thermalSample d (128 * k + c.slot) c.ref temp s
      else if c.slot = 128 then thermalSample d (256 + k) c.ref temp s
      else if c.slot = 130 ∧ k = 1 ∨ c.slot = 131 ∧ k = 0 then bandgap d k code c.ref s
      else if c.slot < 132 then s
      else if c.test then selfTest d k code s
      else match c.cur with
        | some ch => deliverResult d ch code c.ref false c.restarted s
        | none => s
    nextConversion d k s

def execConversionSlot (d : DieIx) (k : Fin 2) (code : Fin 4096) (temp : Int) (s : State) : Host.Outcome State Fault Refusal :=
  done (conversionSlot d k code temp s)

/-- An urgent request of a channel: dropped where its converter already has one, or after eight in the frame (R476). -/
def urgentRequest (d ch : Nat) (s : State) : State :=
  let t := s.tlmOf d
  let k := s.before.get F.tlmCh.conv (Ix.stw d ch)
  let c := t.conv k
  if c.urgent.isSome then s.inc F.tlmCnt.urg_busy (Ix.stw d)
  else if 8 ≤ c.urgents then s.inc F.tlmCnt.urg_limit (Ix.stw d)
  else s.setTlm d (t.setConv k { c with urgent := some ch, urgents := c.urgents + 1 })

/-- CHANNEL_TRIGGER: the delay of a triggered channel has passed: it requests a conversion.  Requests of one oscillator cycle
come in ascending channel order, urgent ones first; a write of the entry in the cycle of its trigger counts after it (R473). -/
def channelTrigger (d ch : Nat) (s : State) : State :=
  let cx := Ix.stw d ch
  if s.dieDark d ∨ s.before.get F.tlmCh.trig cx = 0 then s
  else if s.before.bit F.tlmCh.urg cx then urgentRequest d ch s
  else
    let t := s.tlmOf d
    let k := s.before.get F.tlmCh.conv cx
    let c := t.conv k
    if 8 ≤ c.waiting.length then s.inc F.tlmCnt.trig_drop (Ix.stw d)
    else s.setTlm d (t.setConv k { c with waiting := c.waiting ++ [ch] })

def execChannelTrigger (d : DieIx) (ch : Fin 512) (s : State) : Host.Outcome State Fault Refusal := done (channelTrigger d ch s)

/-- TLM_URG_WRITE: one urgent conversion of a channel. -/
def tlmUrgWrite (d ch : Nat) (s : State) : State := if s.dieDark d then s else urgentRequest d ch s

def execTlmUrgWrite (d : DieIx) (ch : Fin 512) (s : State) : Host.Outcome State Fault Refusal := done (tlmUrgWrite d ch s)

/-- URGENT_CONVERSION: converter k makes the urgent conversion at once; a non-urgent one in progress is aborted and restarts
after it. -/
def urgentConversion (d k code : Nat) (s : State) : State :=
  let t := s.tlmOf d
  let c := t.conv k
  match c.urgent with
  | none => s
  | some ch =>
    let busy : Bool := decide (c.slot < 132) || c.test || c.cur.isSome
    let ref := s.before.reference d
    let s := if busy then s.inc F.tlmCnt.aborts (Ix.stw d) else s
    let s := if ref = 0 then s.inc F.tlmCnt.noref (Ix.stw d) else s
    let s := s.setTlm d (t.setConv k { c with urgent := none, restarted := c.restarted || busy, ref := if busy then ref else c.ref })
    deliverResult d ch code ref true false s

def execUrgentConversion (d : DieIx) (k : Fin 2) (code : Fin 4096) (s : State) : Host.Outcome State Fault Refusal :=
  done (urgentConversion d k code s)

/-! ## Sensor pairs and temperatures (R478-R480) -/

/-- A run grows while its condition holds. -/
def runOf (m : Map Nat Nat) (i : Nat) (b : Bool) : Map Nat Nat := if b then Map.put m i (Map.getD m i 0 + 1) else Map.del m i

/-- A sensor's state of the frame: 0 valid, 1 excluded, 2 failed. -/
def Telemetry.sensor (t : Telemetry) (i : Nat) : Nat :=
  if 16 ≤ Map.getD t.excluded i 0 then 2 else if (Map.find t.samples i).isSome then 0 else 1

/-- Excluded frames of one sensor: the sixteenth in a row fails it until the next kindling.  [DEDUCED, log 164] -/
def sensorFrame (d i sensor clu : Nat) (s : State) : State :=
  let t := s.tlmOf d
  let n := Map.getD t.excluded i 0
  if 16 ≤ n then s
  else
    let out := (Map.find t.samples i).isNone
    let s := s.setTlm d { t with excluded := runOf t.excluded i out }
    if out ∧ n = 15 then thermalEvent d 3 d clu sensor 0 s else s

/-- Set a flag of a cluster in the floor plan (R501). -/
def fpFlag (c : CluId) (b : Nat) (s : State) : State :=
  let ix := Ix.mod c.die c.clu
  (s.set F.nirFpClu.flags ix (putBits (s.get F.nirFpClu.flags ix) b 1 1)).fpChange

/-- Switch a region off for heat from the next stitch (R479). -/
def heatOff (c : CluId) (s : State) : State :=
  let st := s.regionState c
  if st = rOff ∨ st = rDead ∨ st = rDown then s
  else regionEvent c 6 0 (fpFlag c 7 ((schedulePowerDown c (s.stitch + 1) false s).set F.stwThmCt.heatoff (Ix.stw c.die c.clu) 1))

/-- One cluster at a frame's end: sensor states, temperature, disagreement, blindness, heat. -/
def clusterFrame (c : CluId) (s : State) : State :=
  let d := c.die.val
  let i := c.clu.val
  let ix := Ix.stw d i
  let s := sensorFrame d (128 + i) 1 i (sensorFrame d i 0 i s)
  let t := s.tlmOf d
  let a := if t.sensor i = 0 then Map.find t.samples i else none
  let b := if t.sensor (128 + i) = 0 then Map.find t.samples (128 + i) else none
  let none_ := a.isNone && b.isNone
  let temp := if none_ then 540 else max (a.getD 0) (b.getD 0)
  let apart := a.isSome && b.isSome && decide (24 < max (a.getD 0) (b.getD 0) - min (a.getD 0) (b.getD 0))
  let t := { t with differ := runOf t.differ i apart, dark := runOf t.dark i none_, hot := runOf t.hot i (decide (580 ≤ temp)) }
  let s := (s.setTlm d t).sets ix [(F.stwThmCt.t, temp), (F.stwThmCt.a, t.sensor i), (F.stwThmCt.b, t.sensor (128 + i))]
  let s := if 16 ≤ Map.getD t.differ i 0 ∧ ¬ s.bit F.stwThmCt.disagree ix then thermalEvent d 2 d i 0 temp (fpFlag c 5 (s.set F.stwThmCt.disagree ix 1)) else s
  let s := if 16 ≤ Map.getD t.dark i 0 ∧ ¬ s.bit F.stwThmCt.blind ix then thermalEvent d 4 d i 0 temp (fpFlag c 6 (s.set F.stwThmCt.blind ix 1)) else s
  let s := deliverTemp c none_ temp s
  let s := if s.bit F.stwThmCt.heatoff ix then
      { s with heatCool := if temp ≤ 500 then Map.put s.heatCool c (Map.getD s.heatCool c s.wall) else Map.del s.heatCool c }
    else s
  if 2 ≤ Map.getD t.hot i 0 then heatOff c s else s

/-- A stack's temperature: the highest of its valid readings; 85.0 °C after 16 frames without one; a stack that is off gives
none. -/
def stackFrame (d side : Nat) (hbm : Option Int) (s : State) : State :=
  let f := if side = 0 then F.stwThmDie.ts0 else F.stwThmDie.ts1
  if s.get (if side = 0 then F.nirFpDie.stk0 else F.nirFpDie.stk1) (Ix.mod d) = 2 then s.set f (Ix.stw d) 0
  else
    let t := s.tlmOf d
    let r := hbm.bind fun v => if 0 ≤ v ∧ v ≤ 760 then some v.toNat else none
    let q := Map.find t.samples (256 + side)
    let s := match r with
      | some v => s.set F.stkStat.temp (Ix.stw d side) (v / 4 - 40)
      | none => s
    let none_ := r.isNone && q.isNone
    let s := s.setTlm d { t with blindStack := runOf t.blindStack side none_ }
    if none_ then (if 16 ≤ Map.getD (s.tlmOf d).blindStack side 0 then s.set f (Ix.stw d) 500 else s)
    else s.set f (Ix.stw d) (max (r.getD 0) (q.getD 0))

/-- Highest cluster temperature of a die and the first cluster that has it. -/
def State.hottest (s : State) (d : Nat) : Nat × Nat :=
  (List.range 128).foldl (fun (m : Nat × Nat) i =>
    let t := s.get F.stwThmCt.t (Ix.stw d i)
    if m.1 < t then (t, i) else m) (s.get F.stwThmCt.t (Ix.stw d 0), 0)

/-- TELEMETRY_FRAME_END: both converters have completed the frame; `r0`, `r1` are the latest readouts of the stacks' own sensors. -/
def telemetryFrameEnd (d : Nat) (r0 r1 : Option Int) (s : State) : State :=
  let t := s.tlmOf d
  if s.dieDark d ∨ min t.c0.frames t.c1.frames ≤ t.formed then s
  else
    let s := forAll (dieClus d) clusterFrame s
    let s := stackFrame d 1 r1 (stackFrame d 0 r0 s)
    let h := s.hottest d
    let s := s.sets (Ix.stw d) [(F.stwThmDie.tdie, h.1), (F.stwThmDie.hot, h.2)]
    s.setTlm d { s.tlmOf d with samples := [], formed := t.formed + 1 }

def execTelemetryFrameEnd (d : DieIx) (r0 r1 : Option Int) (s : State) : Host.Outcome State Fault Refusal :=
  done (telemetryFrameEnd d r0 r1 s)

/-! ## The thermal ceiling (R481-R483) -/

/-- Dies whose temperatures Nirdo has. -/
def State.thermalDies (s : State) : List Nat := (List.range 24).filter fun d => decide (0 < (s.tlmOf d).told) && !s.dieDark d

/-- All release conditions hold (R482). -/
def State.thermalCool (s : State) : Bool :=
  (s.thermalDies.all fun d => decide (s.get F.stwThmDie.tdie (Ix.stw d) ≤ 520) && decide (s.get F.stwThmDie.ts0 (Ix.stw d) ≤ 480) &&
      decide (s.get F.stwThmDie.ts1 (Ix.stw d) ≤ 480)) &&
    (decide (s.get F.nirCoolMargin.pcap (Ix.mod) = 0xFFFF) ||
      decide (105 * Map.getD s.praise (s.get F.nirThmStat.thm_step (Ix.mod)) 0 ≤ 100 * s.get F.nirCoolMargin.pcap (Ix.mod)))

/-- Keep the wall time since which the release conditions have held. -/
def watchCool (s : State) : State :=
  { s with coolSince := if s.thermalCool then some (s.coolSince.getD s.wall) else none }

/-- THM_STEP rises by one, up to 5, with the power that was drawn (R481).  [DEDUCED, log 163] -/
def raiseThermal (stack : Bool) (temp : Nat) (s : State) : State :=
  let m := Ix.mod
  let k := s.get F.nirThmStat.thm_step m
  if 5 ≤ k then { s with thmAt := s.wall }
  else
    let s := s.sets m [(F.nirThmStat.thm_step, k + 1), (F.nirThmStat.stackcause, boolNat stack)]
    let s := { s with thmAt := s.wall, coolSince := none, praise := Map.put s.praise (k + 1) s.mon.p1s }
    requestStep .thermal (k + 1) (thermalEvent 31 0 0x1F 0x7F (if stack then 2 else 0) temp s)

/-- Units in throttle: (die, 0 die temperature, 1 and 2 the stacks). -/
def State.throttled (s : State) : List (Nat × Nat) :=
  (s.thmRun.filter fun e => decide (2 ≤ e.2.1) && !s.dieDark e.1.1).map fun e => e.1

/-- Temperature of a unit of a die (R481). -/
def State.unitTemp (s : State) (u : Nat × Nat) : Nat :=
  s.get (match u.2 with
    | 0 => F.stwThmDie.tdie
    | 1 => F.stwThmDie.ts0
    | _ => F.stwThmDie.ts1) (Ix.stw u.1)

/-- Throttle and hard-limit runs of a unit. -/
def thermalUnit (u : Nat × Nat) (s : State) : State :=
  let t := s.unitTemp u
  let r := Map.getD s.thmRun u (0, 0)
  let hi := if u.2 = 0 then 540 else 500
  let hard := if u.2 = 0 then 600 else 540
  { s with thmRun := Map.put s.thmRun u (if hi < t then r.1 + 1 else 0, if hard ≤ t then r.2 + 1 else 0) }

/-- A hard limit shuts the module down, with a shutdown record in identity flash and FAULT# low (R483). -/
def hardShutdown (u : Nat × Nat) (holdup : Bool) (s : State) : State :=
  let t := s.unitTemp u
  let m := Ix.mod
  let s := s.sets m [(F.nirThmSdrec.cause, if u.2 = 0 then 1 else 2), (F.nirThmSdrec.die, u.1), (F.nirThmSdrec.side, u.2 - 1), (F.nirThmSdrec.temp, t),
    (F.nirThmSdrec.stitch, s.stitch)]
  let s := { s with sdRecs := (s.peekReg .nirThmSdrec m :: s.sdRecs).take 64 }
  let s := if holdup then thermalEvent 31 6 u.1 0x7F (if u.2 = 0 then 0 else u.2 + 1) t s else s
  { shutDown s with faultPin := true }

/-- THERMAL_REPORT: die d's frame temperatures reach Nirdo. -/
def thermalReport (d : Nat) (holdup : Bool) (s : State) : State :=
  let t := s.tlmOf d
  if s.dieDark d ∨ t.formed ≤ t.told then s
  else
    let before := s.throttled
    let s := s.setTlm d { t with told := t.formed }
    let s := thermalUnit (d, 2) (thermalUnit (d, 1) (thermalUnit (d, 0) s))
    let hot := s.thermalDies.foldl (fun (m : Nat × Nat) e => if m.1 < s.get F.stwThmDie.tdie (Ix.stw e) then (s.get F.stwThmDie.tdie (Ix.stw e), e) else m) (0, 0)
    let s := s.sets (Ix.mod) [(F.nirThmStat.thot, hot.1), (F.nirThmStat.hotdie, hot.2)]
    let s := { s with mon := { s.mon with nHot := s.mon.nHot + 1, sumHot := s.mon.sumHot + hot.1 } }
    match s.thmRun.find? fun e => decide (2 ≤ e.2.2) && decide (e.1.1 = d) with
    | some e => hardShutdown e.1 holdup s
    | none =>
      let s := if before.isEmpty then (match s.throttled with
          | u :: _ => raiseThermal (decide (u.2 ≠ 0)) (s.unitTemp u) s
          | [] => s) else s
      watchCool s

def execThermalReport (d : DieIx) (holdup : Bool) (s : State) : Host.Outcome State Fault Refusal := done (thermalReport d holdup s)

/-- THERMAL_RAISE_REPEAT: a throttle condition still holds 2 ms after the last raise. -/
def thermalRaiseRepeat (s : State) : State :=
  match s.throttled with
  | u :: _ => if s.thmAt + 24750000 ≤ s.wall then raiseThermal (decide (u.2 ≠ 0)) (s.unitTemp u) s else s
  | [] => s

def execThermalRaiseRepeat (s : State) : Host.Outcome State Fault Refusal := done (thermalRaiseRepeat s)

/-- THERMAL_RELEASE: the conditions have held for 100 ms. -/
def thermalRelease (s : State) : State :=
  let m := Ix.mod
  let k := s.get F.nirThmStat.thm_step m
  if 0 < k ∧ s.thermalCool ∧ (s.coolSince.any fun w => decide (w + 1237500000 ≤ s.wall)) then
    let s := { s.set F.nirThmStat.thm_step m (k - 1) with coolSince := some s.wall }
    requestStep .thermal (k - 1) (thermalEvent 31 1 0x1F 0x7F 0 (s.get F.nirThmStat.thot m) s)
  else s

def execThermalRelease (s : State) : Host.Outcome State Fault Refusal := done (thermalRelease s)

/-! ## Coolant (R484-R488, R529) -/

/-- COOLANT (Table 15.7). -/
def coolantEvent (kind : Nat) (s : State) : State :=
  let m := Ix.mod
  s.emit 0x0061 (if kind = 3 then 3 else 1) 31 none [(s.stitch, 64), (kind, 3), (s.get F.nirCoolMeas.tin m, 10), (s.get F.nirCoolMeas.tout m, 10),
    (s.get F.nirCoolMeas.flow m, 12), (min s.mon.p1s 0xFFFF, 16), (s.get F.nirCoolMargin.m m, 16)]

/-- Mean of 0.1 mW samples in W. -/
def meanW (ps : List Nat) : Nat := if ps.isEmpty then 0 else ps.foldl (· + ·) 0 / (10000 * ps.length)

/-- A thermistor reading: valid from −20 °C to 100 °C. -/
def thermistorOk (t : Int) : Bool := decide (80 ≤ t) && decide (t ≤ 560)

/-- Nirdo's thermistor readings: a fault is reported once (R484). -/
def thermistors (tin tout : Int) (s : State) : State :=
  let m := Ix.mod
  let s := if thermistorOk tin then s.set F.nirCoolMeas.tin m tin.toNat else s
  let s := if thermistorOk tout then s.set F.nirCoolMeas.tout m tout.toNat else s
  let o := s.mon
  let s := s.set F.nirCoolMeas.thfault m (boolNat (!thermistorOk tin || !thermistorOk tout))
  let s := { s with mon := { o with inBad := !thermistorOk tin, outBad := !thermistorOk tout, nT := o.nT + 1
                                    sumIn := o.sumIn + s.get F.nirCoolMeas.tin m, sumOut := o.sumOut + s.get F.nirCoolMeas.tout m } }
  let s := if !thermistorOk tin && !o.inBad then coolantEvent 5 s else s
  if !thermistorOk tout && !o.outBad then coolantEvent 5 s else s

/-- Samples still to come before the governor acts on an excess: a number of them at its start, one fewer with each further one. -/
def overNext (above : Bool) (start : Nat) (o : Option Nat) : Option Nat := if above then some (o.elim start (· - 1)) else none

/-- Input powers above their limits (R465): 5 ms of the 1 ms mean are 500 samples.  [DESIGN CHOICE, log 217] -/
def watchInput (s : State) : State :=
  let m := Ix.mod
  { s with mon := { s.mon with overIn := overNext (decide (s.powerLimit < s.get F.nirPwrPin.p1ms m)) 500 s.mon.overIn
                               peakIn := overNext (decide (s.peakLimit < s.get F.nirPwrPin.p100us m)) 0 s.mon.peakIn } }

/-- Inlet range of the grade (Table 17.9): codes of its ends. -/
def State.inletRange (s : State) : Nat × Nat := if s.get F.nirIdInfo.tgrade (Ix.mod) = 0x45 then (200, 340) else (220, 300)

/-- The inlet's time above and below the grade's range.  [DEDUCED, log 218] -/
def watchInlet (tin : Int) (s : State) : State :=
  let r := s.inletRange
  let since := fun (b : Bool) (o : Option Nat) => if b then some (o.getD s.wall) else none
  { s with mon := { s.mon with inHighAt := since (thermistorOk tin && decide ((r.2 : Int) < tin)) s.mon.inHighAt
                               inLowAt := since (thermistorOk tin && decide (tin < (r.1 : Int))) s.mon.inLowAt } }

/-- NIRDO_SAMPLE: VBUS in 10 mV and IBUS in 10 mA, every 10 µs, with the inlet and outlet codes when they are converted. -/
def nirdoSample (v i : Nat) (temps : Option (Int × Int)) (s : State) : State :=
  let m := Ix.mod
  if s.shut then s
  else
    let ps := (v * i :: s.mon.powers).take 100
    let s := { s with mon := { s.mon with powers := ps, n := s.mon.n + 1, sumP := s.mon.sumP + v * i } }
    let s := watchInput <| (s.busSeen v).sets m [(F.nirPwrStat.vbus, v), (F.nirPwrPin.p1ms, min (meanW ps) 0xFFFF), (F.nirPwrPin.p100us, min (meanW (ps.take 10)) 0xFFFF)]
    let s := if s.governorQuiet then s else { s with govSince := s.stitch }
    match temps with
    | none => s
    | some t => thermistors t.1 t.2 (watchInlet t.1 s)

def execNirdoSample (v i : Fin 65536) (temps : Option (Int × Int)) (s : State) : Host.Outcome State Fault Refusal := done (nirdoSample v i temps s)

/-- FLOW_PULSE: a pulse of a width in ns; one shorter than 20 µs is ignored. -/
def flowPulse (ns : Nat) (s : State) : State :=
  if ns < 20000 ∨ s.shut then s else { s with mon := { s.mon with pulses := s.mon.pulses + 1, flowLost := false } }

def execFlowPulse (ns : Nat) (s : State) : Host.Outcome State Fault Refusal := done (flowPulse ns s)

/-- Required flow in 0.001 L/min: 3.0 L/min per kW of the 1 s mean of P_in, at least 6 L/min. -/
def State.flowNeed (s : State) : Nat := max 6000 (3 * s.mon.p1s)

/-- FLOW_EVALUATE: each second Q is formed from the pulses of the second; low, or sufficient again, over 2 s is reported.  [DEDUCED, log 165] -/
def flowEvaluate (s : State) : State :=
  let m := Ix.mod
  let o := s.mon
  let ppl := s.get F.nirCoolCfg.ppl m
  let low := decide (60000 * o.pulses < s.flowNeed * ppl)
  let s := s.sets m [(F.nirCoolMeas.flow, min (600 * o.pulses / max 1 ppl) 0xFFF), (F.nirCoolMeas.qreq, min (s.flowNeed / 100) 0xFFF)]
  let s := { s with mon := { o with pulses := 0, perSec := o.pulses, lowRun := if low then o.lowRun + 1 else 0, okRun := if low then 0 else o.okRun + 1
                                    clearRun := if max 6000 (3 * s.get F.nirPwrGov.plim m) * ppl ≤ 60000 * o.pulses then o.clearRun + 1 else 0 } }
  if 3 ≤ s.mon.lowRun ∧ ¬ s.bit F.nirCoolMeas.lowflow m then coolantEvent 2 (s.set F.nirCoolMeas.lowflow m 1)
  else if 3 ≤ s.mon.okRun ∧ s.bit F.nirCoolMeas.lowflow m then coolantEvent 6 (s.set F.nirCoolMeas.lowflow m 0)
  else s

def execFlowEvaluate (s : State) : Host.Outcome State Fault Refusal := done (flowEvaluate s)

/-- FLOW_LOSS: no pulse for 200 ms: ember mode. -/
def flowLoss (s : State) : State :=
  if s.mon.flowLost ∨ s.shut then s else emberDecide none 1 (coolantEvent 3 { s with mon := { s.mon with flowLost := true } })

def execFlowLoss (s : State) : Host.Outcome State Fault Refusal := done (flowLoss s)

/-- A real number as a register of 16 bits shows it. -/
def show16 (x : Rat) : Nat := min x.floor.toNat 0xFFFF

/-- MARGIN_ESTIMATE: once a second, from 1 s means. -/
def marginEstimate (s : State) : State :=
  let m := Ix.mod
  let o := s.mon
  let p : Rat := if o.n = 0 then (o.p1s : Rat) else (o.sumP : Rat) / 10000 / (o.n : Rat)
  let tin : Rat := if o.nT = 0 then (s.get F.nirCoolMeas.tin m : Rat) / 4 - 40 else (o.sumIn : Rat) / 4 / (o.nT : Rat) - 40
  let tout : Rat := if o.nT = 0 then (s.get F.nirCoolMeas.tout m : Rat) / 4 - 40 else (o.sumOut : Rat) / 4 / (o.nT : Rat) - 40
  let hot : Rat := if o.nHot = 0 then (s.get F.nirThmStat.thot m : Rat) / 4 - 40 else (o.sumHot : Rat) / 4 / (o.nHot : Rat) - 40
  let ok := decide (1000 ≤ p) && decide (tin + 5 < hot) && !o.inBad && !o.outBad
  let cap := if ok then (95 - tin) * p / (hot - tin) else 0
  let cool := (o.perSec : Rat) / (s.get F.nirCoolCfg.ppl m : Rat) * (s.get F.nirCoolCfg.cpv m : Rat) * (tout - tin)
  let off := ok && (decide (p / 5 < p - cool) || decide (p / 5 < cool - p))
  let s := { s with mon := { o with n := 0, sumP := 0, nT := 0, sumIn := 0, sumOut := 0, nHot := 0, sumHot := 0, p1s := p.floor.toNat
                                    in1s := if o.inBad then none else some ((tin + 40) * 4).floor.toNat, unbalanced := if off then o.unbalanced + 1 else 0 } }
  let s := s.sets m (if ok then [(F.nirCoolMargin.m, show16 (max 0 (cap - p))), (F.nirCoolMargin.pcap, show16 cap), (F.nirCoolMargin.pcool, show16 cool),
      (F.nirCoolMargin.rth, show16 ((hot - tin) / p * 1000000))]
    else [(F.nirCoolMargin.m, 0xFFFF), (F.nirCoolMargin.pcap, 0xFFFF), (F.nirCoolMargin.pcool, show16 cool)])
  watchCool (if s.mon.unbalanced = 10 then coolantEvent 4 s else s)

def execMarginEstimate (s : State) : Host.Outcome State Fault Refusal := done (marginEstimate s)

/-- Derated sustained limit at an inlet code (R529), to the nearest W. -/
def deratedLimit (grade t : Nat) : Nat := if t ≤ 300 then grade else ((grade : Rat) * (1 - ((t : Rat) - 300) / 240) + 1 / 2).floor.toNat

/-- Nirdo has seen a condition for 1 s. -/
def State.forSecond (s : State) (o : Option Nat) : Bool := o.any fun w => decide (w + 12375000000 ≤ s.wall)

/-- INLET_EVALUATE: once a second the limit is derated for the 1 s mean of the inlet, with its thermistor in fault for the grade's
highest inlet; and an inlet above or below the grade's range for 1 s is reported once (R488, R529). -/
def inletEvaluate (s : State) : State :=
  let m := Ix.mod
  let psus := s.get F.nirIdLimits.psus m
  let grade := if psus = 0 then s.gradeLimit else psus
  let s := s.set F.nirIdLimits.pder m (deratedLimit grade (s.mon.in1s.getD s.inletRange.2))
  let o := s.mon
  let hi := s.forSecond o.inHighAt
  let lo := s.forSecond o.inLowAt
  let s := { s with mon := { o with inHigh := o.inHighAt.isSome && (o.inHigh || hi), inLow := o.inLowAt.isSome && (o.inLow || lo) } }
  let s := if hi && !o.inHigh then coolantEvent 0 s else s
  if lo && !o.inLow then coolantEvent 1 s else s

def execInletEvaluate (s : State) : Host.Outcome State Fault Refusal := done (inletEvaluate s)

end Sys2Proof.Machine
end

