-- ==== Sys2Proof/Machine/Shards.lean ====
section
/-!
DEFINITION. Weight shards, streaming reload and check values (R384-R405): shard commands, RDMA READ responses, hashing, the
reload buffer, the digest sweep and its repairs, writes of a channel's check-value unit.
-/

namespace Sys2Proof.Machine
open Sys2Proof

/-! ## Shard commands (R386-R389) -/

/-- Area states (R388). -/
def shEmptyArea : Nat := 0
def shFetching : Nat := 1
def shHashing : Nat := 2
def shVerified : Nat := 3
def shBad : Nat := 4

/-- Shard command status codes (R387). -/
def shsOk : Nat := 0
def shsBusy : Nat := 1
def shsWindow : Nat := 2
def shsInUse : Nat := 3
def shsNetFail : Nat := 4
def shsDigest : Nat := 5
def shsFormat : Nat := 6
def shsAborted : Nat := 7

def State.shardJob (s : State) (d : Nat) : Option ShardJob := Map.find s.wts.jobs d
def State.setJob (s : State) (d : Nat) (j : ShardJob) : State := { s with wts := { s.wts with jobs := Map.put s.wts.jobs d j } }
def State.delJob (s : State) (d : Nat) : State := { s with wts := { s.wts with jobs := Map.del s.wts.jobs d } }

/-- Two ranges of a die's stacks meet. -/
def rangesMeet (a n b m : Nat) : Bool := decide (a < b + m) && decide (b < a + n)

/-- Show an area's state. -/
def State.putArea (s : State) (a : ShardArea) : State :=
  { s with areas := (s.areas.filter fun b => !(decide (b.die = a.die) && decide (b.ofs = a.ofs))) ++ [a] }

/-- A fetch writes a range of a die's stacks: an area it meets is VERIFIED no longer (R388).  [DEDUCED, log 141] -/
def State.writeAreas (s : State) (d lo n : Nat) : State :=
  { s with areas := s.areas.filter fun b => !(decide (b.die = d) && rangesMeet lo n b.ofs b.len) }

/-- The range lies inside one open entry of STK.WIN that admits a source class (R387, R434). -/
def State.stackWindow (s : State) (d cls lo n : Nat) : Bool :=
  decide (lo + n ≤ spaceSize 2) && (List.range 16).any fun i =>
    let w := s.window .stkWin (Ix.stw d i)
    w.open_ && decide (w.space = 2) && w.srcMask.testBit cls && decide (w.base ≤ lo) && decide (lo + n ≤ w.base + w.size)

/-- Shard areas that the active harness of the die's partition, or its READY or COMMITTED shadow, names: offset and length. -/
def State.namedAreas (s : State) (d : Nat) : List (Nat × Nat) :=
  match s.partOf d with
  | none => []
  | some p =>
    let sh := s.get F.hrnStat.shadow (Ix.mod p)
    let hs := (Map.find s.active p).toList ++ (if sh = shReady ∨ sh = shCommitted then (Map.find s.shadowHrn p).toList else [])
    hs.flatMap fun h => ((h.insts .stwShardRef).filter fun ix => decide ((h.die ix.die).map (fun e => e.val) = some d)).map fun ix =>
      let o := h.get F.stwShardRef.shofs ix
      (o, ((s.area d o).map fun a => a.len).getD 256)

/-- A field of the context in effect of a READY queue pair (R433). -/
def State.qpField (s : State) (q lo w : Nat) : Option Nat :=
  if s.get F.hstQp.state (Ix.mod q) = 1 then (Map.find s.net.qps q).map fun k => bitsOf k.ctx lo w else none

/-- The queue pair serves a die's steward and is READY (R386, R433). -/
def State.qpServes (s : State) (q d : Nat) : Bool := decide (s.qpField q 1 1 = some 0) && decide (s.qpField q 8 8 = some d)

/-- A PFC pause of a queue pair's priority is in force (R432). -/
def State.qpPaused (s : State) (q : Nat) : Bool :=
  match s.qpField q 2 2, s.qpField q 312 3 with
  | some n, some prio => (Map.find s.net.pfc (n, prio)).any fun t => decide (s.wall < t)
  | _, _ => false

/-- A response arrived on a queue pair: its retries are restored. -/
def qpProgress (q : Nat) (s : State) : State :=
  match Map.find s.net.qps q with
  | none => s
  | some k => { s with net := { s.net with qps := Map.put s.net.qps q { k with retries := bitsOf k.ctx 328 8 } } }

def State.qp (s : State) (q : Nat) : QpState := Map.getD s.net.qps q { ctx := 0, sPsn := 0, ePsn := 0 }
def State.setQp (s : State) (q : Nat) (k : QpState) : State := { s with net := { s.net with qps := Map.put s.net.qps q k } }

/-- Bytes of a packet of the path MTU. -/
def mtuBytes : Nat → Nat
  | 0 => 1024
  | 1 => 2048
  | _ => 4096

/-- PSNs a request of n bytes takes. -/
def psnCount (mtu n : Nat) : Nat := max 1 ((n + mtuBytes mtu - 1) / mtuBytes mtu)

/-- Issue READ requests of at most 1 MiB, up to 16 outstanding. -/
def issueReads (d : Nat) : Nat → State → State
  | 0, s => s
  | fuel + 1, s =>
    match s.shardJob d with
    | none => s
    | some j =>
      let n := min (2 ^ 20) (j.len - j.asked)
      if j.verify ∨ j.aborting ∨ n = 0 ∨ 16 ≤ j.outs.length ∨ s.qpPaused j.qp then s
      else
        let k := s.qp j.qp
        let s := s.setQp j.qp { k with sPsn := (k.sPsn + psnCount (bitsOf k.ctx 4 3) n) % 2 ^ 24 }
        issueReads d fuel ((s.setJob d { j with asked := j.asked + n, outs := j.outs ++ [n] }).send
          (.rdmaRead j.qp k.sPsn ((j.raddr + j.asked) % 2 ^ 64) j.rkey n))

/-- SHARD-DIGEST (Table 12.3). -/
def shardDigestEvent (d status : Nat) (s : State) : State :=
  s.emit 0x0028 2 d (s.partOf d) [(s.stitch, 64), (d, 5), (0x7F, 7), (0, 2), (0, 6), (0xFFFFFF, 24), (6, 3), (status, 4), (0, 9)]

/-- Put the repair of a core's array in hand for its next digest slot. -/
def scheduleRepair (c : CoreId) (a img : Nat) (s : State) : State :=
  let k := Map.getD s.wts.digs c {}
  { s with wts := { s.wts with digs := Map.put s.wts.digs c { k with repairs := k.repairs ++ [(a, img)] } } }.set F.coreWptrDigStat.repair c.ix 1

/-- The command of die d ends: its area's state, STW.SHARD.STAT, and the event of a failed verification.  A refetch ends with
KIND 5 and the repair, or KIND 6 (R388, R389, R400). -/
def endShard (d : Nat) (j : ShardJob) (st status synd : Nat) (digest : List Byte) (s : State) : State :=
  let s := (s.delJob d).putArea ⟨d, j.ofs, j.len, st, digest⟩
  match j.refetch with
  | none =>
    let s := s.sets (Ix.stw d) [(F.stwShardStat.state, st), (F.stwShardStat.status, status), (F.stwShardStat.synd, synd), (F.stwShardStat.landed, j.landed)]
    if status = shsDigest ∨ status = shsFormat then shardDigestEvent d status s else s
  | some (c, a, img) =>
    if st = shVerified then scheduleRepair c a img (weightDigest d 0x7F 0 0 0xFFFFFF 5 0 0 s) else weightDigest d 0x7F 0 0 0xFFFFFF 6 status 0 s

/-- The expected digest of STW.SHARD.EXPECT. -/
def State.expected (s : State) (d : Nat) : List Byte := (List.range 4).flatMap fun j => natToBytes 8 (s.get F.stwShardExpect.dig (Ix.stw d j))

/-- A fetch begins; without a queue pair that serves the die it ends NET_FAIL.  [DEDUCED, log 140] -/
def startFetch (d : Nat) (j : ShardJob) (s : State) : State :=
  if s.qpServes j.qp d then
    issueReads d 16 ((s.setJob d j).sets (Ix.stw d) (if j.refetch.isNone then
      [(F.stwShardStat.state, shFetching), (F.stwShardStat.status, shsOk), (F.stwShardStat.synd, 0), (F.stwShardStat.landed, 0)] else []))
  else endShard d j shBad shsNetFail 0 [] s

/-- SHARD_FETCH: the command is refused BUSY, WINDOW or IN_USE, or the fetch begins and its address, key and queue pair are
recorded. -/
def shardFetch (d : DieIx) (q : Nat) (s : State) : State :=
  let ix := Ix.stw d
  let lo := s.get F.stwShardLocal.value ix
  let n := s.get F.stwShardLen.value ix
  if s.dieDark d then s
  else if (s.shardJob d).isSome then s.set F.stwShardStat.status ix shsBusy
  else if ¬ s.stackWindow d 5 lo n then s.set F.stwShardStat.status ix shsWindow
  else if (s.namedAreas d).any fun a => rangesMeet lo n a.1 a.2 then s.set F.stwShardStat.status ix shsInUse
  else
    let ra := s.get F.stwShardRaddr.va ix
    let key := s.get F.stwShardRkey.rkey ix
    let s := { s with wts := { s.wts with last := Map.put s.wts.last d.val (ra, key, q) } }
    startFetch d { verify := false, qp := q, raddr := ra, rkey := key, ofs := lo, len := n, expect := s.expected d } s

def execShardFetch (d : DieIx) (q : Fin 256) (s : State) : Host.Outcome State Fault Refusal := done (shardFetch d q s)

/-- SHARD_VERIFY: hash the area at LOCAL without fetching. -/
def shardVerify (d : DieIx) (s : State) : State :=
  let ix := Ix.stw d
  if s.dieDark d then s
  else if (s.shardJob d).isSome then s.set F.stwShardStat.status ix shsBusy
  else
    let lo := s.get F.stwShardLocal.value ix
    let n := s.get F.stwShardLen.value ix
    (s.setJob d { verify := true, ofs := lo, len := n, expect := s.expected d }).sets ix
      [(F.stwShardStat.state, shHashing), (F.stwShardStat.status, shsOk), (F.stwShardStat.synd, 0), (F.stwShardStat.landed, 0)]

def execShardVerify (d : DieIx) (s : State) : Host.Outcome State Fault Refusal := done (shardVerify d s)

/-- An aborted fetch ends once nothing is outstanding. -/
def settleAbort (d : Nat) (s : State) : State :=
  match s.shardJob d with
  | none => s
  | some j => if j.aborting ∧ j.outs.isEmpty then endShard d j shBad shsAborted 0 [] s else s

/-- SHARD_ABORT: a fetch issues no more requests. -/
def shardAbort (d : DieIx) (s : State) : State :=
  match s.shardJob d with
  | none => s
  | some j => if j.verify then s else settleAbort d (s.setJob d { j with aborting := true })

def execShardAbort (d : DieIx) (s : State) : Host.Outcome State Fault Refusal := done (shardAbort d s)

/-- RDMA_READ_RESPONSE: the next bytes of the oldest READ request outstanding land as dynamic stack writes; the first byte of a
fetch takes the area out of VERIFIED; a finished request makes room for another. -/
def rdmaReadResponse (d : DieIx) (data : List Byte) (s : State) : State :=
  match s.shardJob d with
  | none => s
  | some j =>
    match j.outs with
    | [] => s
    | n :: rest =>
      let bs := data.take n
      if bs.isEmpty then s
      else
        let s := s.writeAreas d (j.ofs + j.landed) bs.length
        let s := s.postWrite 129 (fabStack d (j.ofs + j.landed)) bs
        let left := n - bs.length
        let j := { j with landed := j.landed + bs.length, outs := if left = 0 then rest else left :: rest }
        let s := s.setJob d j
        let s := if j.refetch.isNone then s.set F.stwShardStat.landed (Ix.stw d) j.landed else s
        let s := if j.refetch.isNone ∧ j.landed = j.len then s.set F.stwShardStat.state (Ix.stw d) shHashing else s
        settleAbort d (issueReads d 16 (qpProgress j.qp s))

def execRdmaReadResponse (d : DieIx) (data : List Byte) (s : State) : Host.Outcome State Fault Refusal := done (rdmaReadResponse d data s)

/-- MAGIC of a shard header (Table 12.1). -/
def shardMagic : List Byte := [0x54#8, 0x4C#8, 0x57#8, 0x53#8, 0x48#8, 0x52#8, 0x44#8, 0x31#8]

/-- The header meets R384, for a shard of `len` bytes (R388). -/
def shardHeaderOk (h : List Byte) (len : Nat) : Bool :=
  let nimg := leNat h 0x0C 4
  let img := leNat h 0x10 8
  let scl := leNat h 0x18 8
  let sclLen := leNat h 0x20 8
  let dig := leNat h 0x28 8
  decide (h.take 8 = shardMagic) && decide (leNat h 8 2 = 1) && decide (1 ≤ nimg) && decide (nimg ≤ 32768) && decide (img = 0x100) &&
    decide (sclLen % 32 = 0) && decide (scl = img + 8192 * nimg) && decide (dig = (scl + sclLen + 255) / 256 * 256) && decide (dig + 32 * nimg ≤ len) &&
    decide (leNat h 0x30 8 + 256 = len)

/-- SHARD_HASH_DONE: the outcome of the hash of an area that has landed. -/
def shardHashDone (d : DieIx) (s : State) : State :=
  match s.shardJob d with
  | none => s
  | some j =>
    if j.aborting ∨ ¬ (j.verify ∨ (j.landed = j.len ∧ j.outs.isEmpty)) then s
    else
      let a := fabStack d j.ofs
      let s := (s.drainSide a).drainSide (fabStack d (j.ofs + j.len - 1))
      let hdr := s.bytes a 256
      if ¬ shardHeaderOk hdr j.len then endShard d j shBad shsFormat 0 [] s
      else
        let want := (hdr.drop 0x38).take 32
        if sha256 (s.bytes (a + 256) (j.len - 256)) = want ∧ want = j.expect then endShard d j shVerified shsOk 0 want s
        else endShard d j shBad shsDigest 0 [] s

def execShardHashDone (d : DieIx) (s : State) : Host.Outcome State Fault Refusal := done (shardHashDone d s)

/-- Fetches on a queue pair end NET_FAIL. -/
def failFetches (q synd : Nat) (s : State) : State :=
  forAll (s.wts.jobs.filter fun e => !e.2.verify && decide (e.2.qp = q)) (fun e s => endShard e.1 e.2 shBad shsNetFail synd [] s) s

/-- QP_ERROR: a READY queue pair moves to ERROR with its syndrome. -/
def qpError (q : Fin 256) (synd : Nat) (s : State) : State :=
  let ix := Ix.mod q
  if s.get F.hstQp.state ix = 1 then
    failFetches q synd ((s.sets ix [(F.hstQp.state, 2), (F.hstQp.synd, synd)]).inc F.hstRdmaCnt.qperr (Ix.mod))
  else s

def execQpError (q : Fin 256) (synd : Fin 256) (s : State) : Host.Outcome State Fault Refusal := done (qpError q synd s)

/-! ## Streaming reload (R394-R396) -/

/-- RELOAD_LINE_LAND: the oldest line of a reload transfer in the buffer is written to its core's weight-plane port, eight rows, one
a cycle, once the port is free; one for an array of the computing set waits; one that found the buffer full is not written.  [DEDUCED, log 144] -/
def reloadLineLand (id : Nat) (s : State) : State :=
  match s.flight id with
  | none => s
  | some x =>
    match x.dst.bind addrCoreId, x.dst with
    | some c, some a =>
      let pos := x.pos
      let n := min 256 (x.total - pos)
      if ¬ (x.isReload && x.granted && x.status.isNone) ∨ n = 0 ∨ x.data.length < pos + n then s
      else if x.lost.contains pos then
        let y := { x with refused := x.refused + n }
        reloadDone (y.reloadSpan pos y.pos) (settleXfer y s)
      else
        let rows := rowsOf (addrOfs a + pos) ((x.data.drop pos).take n)
        let computing := fun (r : Nat × List Byte) => s.bit F.coreArrstat.streaming c.ix &&
          decide (s.computeSet c = (planeArr r.1).val / 32)
        if rows.any computing ∨ s.now < (s.core c).portFree then s
        else
          let s := s.setCore c { s.core c with portFree := s.now + rows.length }
          let r := rowsWrite c (s.now + 1) rows s
          let y := { x with landed := x.landed + r.1, refused := x.refused + (n - r.1) }
          reloadDone (y.reloadSpan pos y.pos) (settleXfer y r.2)
    | _, _ => s

def execReloadLineLand (id : Nat) (s : State) : Host.Outcome State Fault Refusal := done (reloadLineLand id s)

/-! ## Re-digest of resident weights (R397-R400) -/

def State.dig (s : State) (c : CoreId) : DigCore := Map.getD s.wts.digs c {}
def State.setDig (s : State) (c : CoreId) (k : DigCore) : State := { s with wts := { s.wts with digs := Map.put s.wts.digs c k } }

/-- The image an array is bound to. -/
def State.boundImage (s : State) (c : CoreId) (a : Nat) : Option Nat :=
  if s.bit F.coreWptrArr.valid (c.ix a) then some (s.get F.coreWptrArr.img (c.ix a)) else none

/-- The array whose turn it is in the sweep: bound, at or above NEXT, wrapping.  [DEDUCED, log 222] -/
def State.sweepArray (s : State) (c : CoreId) : Option (Nat × Nat) :=
  let nx := s.get F.coreWptrDigStat.next c.ix
  (((List.range 64).map fun i => (nx + i) % 64).find? fun a => (s.boundImage c a).isSome).bind fun a => (s.boundImage c a).map fun i => (a, i)

/-- Cycle from which an array is IDLE, where its state says so. -/
def State.idleFrom (s : State) (a : ArrId) : Option Nat :=
  let e := s.engine a
  let st := s.arrState a
  if st = aIdle ∨ st = aAccess then some (max s.now e.accessEnd)
  else if st = aCompute then some (max s.now (max e.convEnd e.accessEnd))
  else if st = aCal then ((s.core a.coreId).cal.find? fun r => r.arrays.contains a.arr.val).map fun r => max s.now (16 * r.start + 2400)
  else none

/-- The array a slot reads back, or repairs, and the core's sweep after it: a repair that waits comes first; an array of the sweep is taken
once, whether it is read or skipped. -/
def State.digTarget (s : State) (c : CoreId) : Option ((Nat × Nat) × Bool) :=
  match (s.dig c).repairs with
  | r :: _ => some (r, true)
  | [] => (s.sweepArray c).map fun a => (a, false)

/-- DIGEST_SLOT_START: the group's arrays may be issued on again after the slot; the readback of the next array of the sweep, or the
repair that waits, begins in the first cycle the array is IDLE, or the array is skipped.  [DEDUCED, log 143] -/
def digestSlotStart (c : CoreId) (i : Nat) (s : State) : State :=
  if s.cc ≠ 0 ∨ ¬ s.digStarts c i ∨ ¬ s.regionOn c.cluId ∨ Map.find (s.dig c).slotAt i = some s.stitch then s
  else
    let s := forAll (s.groupArrays c (s.get F.coreWptrDigSlot.group (c.ix i))) (fun a s =>
      s.setEngine a { s.engine a with reissueAt := max (s.engine a).reissueAt (16 * (s.stitch + 56)) }) s
    let k := { s.dig c with slotAt := Map.put (s.dig c).slotAt i s.stitch }
    match s.digTarget c with
    | none => s.setDig c k
    | some ((a, img), fix) =>
      let e := c.arr ⟨a % 64, Nat.mod_lt _ (by decide)⟩
      let s := if fix then s else s.set F.coreWptrDigStat.next c.ix (a + 1)
      match (s.idleFrom e).filter fun t => decide (t < s.now + 32) with
      | none => (s.setDig c k).inc F.coreWptrDigStat.skip c.ix
      | some t =>
        let end_ := t + (if fix then 768 else 512)
        let left := if fix then k.repairs.drop 1 else k.repairs
        let s := s.setDig c { k with reads := k.reads ++ [⟨a, img, fix, t, end_⟩], repairs := left }
        (s.set F.coreWptrDigStat.repair c.ix (boolNat !left.isEmpty)).setEngine e { s.engine e with accessEnd := max (s.engine e).accessEnd end_ }

def execDigestSlotStart (c : CoreId) (i : Fin 4) (s : State) : Host.Outcome State Fault Refusal := done (digestSlotStart c i s)

/-- Offset of the shard of the harness in force on a die. -/
def State.refOfs (s : State) (d : Nat) : Nat := s.get F.stwShardRef.shofs (Ix.stw d)

/-- The bytes an array holds match its image's digest entry. -/
def State.arrayMatches (s : State) (e : ArrId) (img : Nat) : Bool :=
  decide (sha256 (s.bytes (planeAddr e 0) 8192) = s.bytes (s.digestAddr e.die (s.refOfs e.die) img) 32)

/-- Rows of an array that differ from its image in the stacks. -/
def State.rowsOff (s : State) (e : ArrId) (img : Nat) : Nat :=
  rowsDiffer (s.bytes (planeAddr e 0) 8192) (s.bytes (s.imageAddr e.die (s.refOfs e.die) img) 8192)

/-- DIGEST_READBACK_DONE: a sweep readback is compared and counted; a mismatch sets DBAD, KIND 1, and the stack image is hashed next.
A repair has rewritten the array: KIND 2 and DBAD clear on a match, else KIND 3.  The result is dropped where the array's
binding has changed. -/
def digestReadbackDone (c : CoreId) (s : State) : State :=
  match takeFirst (fun (r : DigRead) => decide (r.endAt ≤ s.now)) (s.dig c).reads with
  | none => s
  | some (r, rest) =>
    let e := c.arr ⟨r.arr % 64, Nat.mod_lt _ (by decide)⟩
    let d := c.die.val
    let s := s.setDig c { s.dig c with reads := rest }
    if s.boundImage c r.arr ≠ some r.img then s
    else
      let s := (s.drainSide (fabStack d 0)).drainSide (fabStack d (2 ^ 34))
      if r.fix then
        let s := writeImage e (s.imageAddr d (s.refOfs d) r.img) s
        if s.arrayMatches e r.img then
          weightDigest d c.clu c.core r.arr r.img 2 0 (s.rowsOff e r.img)
            ((s.set F.coreWptrArr.dbad (c.ix r.arr) 0).inc F.stwShardDcnt.repaired (Ix.stw d))
        else weightDigest d c.clu c.core r.arr r.img 3 0 (s.rowsOff e r.img) s
      else
        let s := s.inc F.stwShardDcnt.swept (Ix.stw d)
        if s.arrayMatches e r.img then s
        else
          let s := (s.set F.coreWptrArr.dbad (c.ix r.arr) 1).inc F.stwShardDcnt.mismatch (Ix.stw d)
          weightDigest d c.clu c.core r.arr r.img 1 0 (s.rowsOff e r.img)
            (s.setDig c { s.dig c with hashes := (s.dig c).hashes ++ [(r.arr, r.img)] })

def execDigestReadbackDone (c : CoreId) (s : State) : Host.Outcome State Fault Refusal := done (digestReadbackDone c s)

/-- The whole shard is fetched again for a repair (R400).  [DEDUCED, log 142] -/
def refetchShard (c : CoreId) (a img : Nat) (s : State) : State :=
  let d := c.die.val
  let s := s.inc F.stwShardDcnt.refetch (Ix.stw d)
  match s.shardJob d, Map.find s.wts.last d, s.area d (s.refOfs d) with
  | none, some (ra, key, q), some ar =>
    let want := (List.range 4).flatMap fun j => natToBytes 8 (s.get F.stwShardRefDigest.dig (Ix.stw d j))
    startFetch d { verify := false, refetch := some (c, a, img), qp := q, raddr := ra, rkey := key, ofs := ar.ofs, len := ar.len, expect := want } s
  | some _, _, _ => weightDigest d 0x7F 0 0 0xFFFFFF 6 shsBusy 0 s
  | _, _, _ => weightDigest d 0x7F 0 0 0xFFFFFF 6 shsNetFail 0 s

/-- DIGEST_STACK_HASH_DONE: a stack image that matches its entry schedules the repair; one that does not is KIND 4 and the shard is
fetched again. -/
def digestStackHashDone (c : CoreId) (s : State) : State :=
  let k := s.dig c
  match k.hashes with
  | [] => s
  | (a, img) :: rest =>
    let d := c.die.val
    let s := s.setDig c { k with hashes := rest }
    let src := s.imageAddr d (s.refOfs d) img
    let s := s.drainSide src
    if sha256 (s.bytes src 8192) = s.bytes (s.digestAddr d (s.refOfs d) img) 32 then scheduleRepair c a img s
    else refetchShard c a img (weightDigest d c.clu c.core a img 4 0 0 (s.inc F.stwShardDcnt.mismatch (Ix.stw d)))

def execDigestStackHashDone (c : CoreId) (s : State) : Host.Outcome State Fault Refusal := done (digestStackHashDone c s)

/-- SHARD_SWEEP: every SPER × 256 st of a streaming harness one image of the shard in the stacks is hashed (R401). -/
def shardSweep (d : DieIx) (s : State) : State :=
  let ix := Ix.stw d
  let per := 256 * s.get F.stwShardScfg.sper ix
  let streaming := ((s.partOf d).bind fun p => Map.find s.active p).any fun h => h.streaming
  let from_ := max (s.actStitch d) (Map.getD s.wts.sweepAt d.val 0)
  if per = 0 ∨ ¬ streaming ∨ s.dieDark d ∨ s.stitch < from_ + per then s
  else
    let o := s.refOfs d
    let s := (s.drainSide (fabStack d 0)).drainSide (fabStack d (2 ^ 34))
    let nimg := s.shardNimg d o
    let i := Map.getD s.wts.sweepNext d.val 0
    let i := if nimg ≤ i then 0 else i
    let s := { s with wts := { s.wts with sweepAt := Map.put s.wts.sweepAt d.val s.stitch, sweepNext := Map.put s.wts.sweepNext d.val (i + 1) } }
    let s := s.inc F.stwShardDcnt.swept ix
    if sha256 (s.bytes (s.imageAddr d o i) 8192) = s.bytes (s.digestAddr d o i) 32 then s
    else weightDigest d 0x7F 0 0 i 4 0 0 (s.inc F.stwShardDcnt.mismatch ix)

def execShardSweep (d : DieIx) (s : State) : Host.Outcome State Fault Refusal := done (shardSweep d s)

/-! ## Writes of a channel's check-value unit (R404) -/

/-- CHK_REGISTER_WRITE: CFG or RUN of channel ch; ignored and counted while the channel is BUSY. -/
def chkWrite (c : CluId) (ch : Nat) (run : Bool) (v : Nat) (s : State) : State :=
  let ix := c.ix ch
  if (s.chan c ch).cur.isSome then s.inc F.chkCnt.ignwr ix
  else if run then s.set F.chkRun.reg ix (v % 2 ^ (polyOf (s.get F.chkCfg.poly ix)).width)
  else s.sets ix [(F.chkCfg.poly, v), (F.chkCfg.acc, v / 4), (F.chkCfg.cont, v / 8)]

def execChkRegisterWrite (c : CluId) (ch : Fin 16) (run : Bool) (v : Word64) (s : State) : Host.Outcome State Fault Refusal :=
  done (chkWrite c ch run v.toNat s)

end Sys2Proof.Machine
end

