-- ==== Sys2Proof/Machine/Links.lean ====
section
/-!
DEFINITION. Torus ports (R406-R426, R504): training, frames received, acknowledged and resent, forwarding, delivery of WRITE, COMPL and
SIGNAL frames, timebase alignment, attachments.
-/

namespace Sys2Proof
open Sys2Proof.Machine

/-! ## Frames and ports -/

/-- A header field (Tables 13.2 and 13.3). -/
def Frame.fld (f : Frame) (lo w : Nat) : Nat := bitsOf f.hdr.toNat lo w
/-- Fields of a frame header (Table 13.2). -/
def Frame.ty (f : Frame) : Nat := f.fld 0 4
def Frame.vc (f : Frame) : Nat := f.fld 4 2
def Frame.dl (f : Frame) : Nat := f.fld 6 1
def Frame.last (f : Frame) : Bool := decide (f.fld 7 1 = 1)
def Frame.alive (f : Frame) : Nat := f.fld 8 8
def Frame.dst (f : Frame) : Nat := f.fld 16 16
def Frame.src (f : Frame) : Nat := f.fld 32 16
def Frame.part (f : Frame) : Nat := f.fld 48 3
def Frame.first (f : Frame) : Bool := decide (f.fld 51 1 = 1)
def Frame.xid (f : Frame) : Nat := f.fld 64 16
/-- A type-specific field. -/
def Frame.ext (f : Frame) (lo w : Nat) : Nat := f.fld lo w
/-- Credits a frame takes: 32 B units of header, trailer and payload (R413, R415).  [DEDUCED, log 147] -/
def Frame.units (f : Frame) : Nat := 1 + f.fld 52 8
/-- Its receive buffer: 2 × VC + DL (R415). -/
def Frame.buf (f : Frame) : Nat := 2 * f.vc + f.dl

def Frame.put (f : Frame) (lo w v : Nat) : Frame := { f with hdr := BitVec.ofNat 192 (putBits f.hdr.toNat lo w v) }

/-- Bytes of a 64-bit payload word. -/
def Frame.word (f : Frame) (i : Nat) : Nat := leNat f.data (8 * i) 8

end Sys2Proof

namespace Sys2Proof.Machine
open Sys2Proof

/-- Port states (R412). -/
def lkDown : Nat := 0
def lkTraining : Nat := 1
def lkUp : Nat := 2
def lkMiswired : Nat := 3
def lkFailed : Nat := 4
def lkUnused : Nat := 5

def State.port (s : State) (p : Nat) : Port := Map.getD s.net.ports p {}
def State.setPort (s : State) (p : Nat) (q : Port) : State := { s with net := { s.net with ports := Map.put s.net.ports p q } }
def State.lkState (s : State) (p : Nat) : Nat := s.get F.lnkStat.state (Ix.mod p)
/-- The module's ID (R411). -/
def State.ownId (s : State) : Nat := s.get F.nirTorusId.id (Ix.mod)

/-- Ring size of a dimension (R411). -/
def State.ringSize3 (s : State) (dim : Nat) : Nat :=
  (match dim with
    | 0 => s.get F.nirTorusId.sx_m1 (Ix.mod)
    | 1 => s.get F.nirTorusId.sy_m1 (Ix.mod)
    | _ => s.get F.nirTorusId.sz_m1 (Ix.mod)) + 1

/-- TORUS-LINK (Table 13.5). -/
def torusLink (p kind vc count : Nat) (s : State) : State :=
  s.emit 0x0040 1 31 none [(s.stitch, 64), (p, 3), (kind, 3), (s.lkState p, 3), (vc, 2), (min count 0xFFFF, 16)]

/-- A port changes state: an event, of kind FAILED where it fails. -/
def setLk (p st : Nat) (s : State) : State :=
  if s.lkState p = st then s else torusLink p (if st = lkFailed then 2 else 0) 0 0 (s.set F.lnkStat.state (Ix.mod p) st)

/-! ## Completions at the issuing module (R420) -/

/-- A COMPL reaches the issuing cluster: the first for an XID ends the oldest transfer that awaits one. -/
def complArrive (p xid st landed : Nat) (s : State) : State :=
  match s.flights.find? fun x => x.torus.isSome && x.launched.isSome && x.status.isNone && decide (x.xid = xid) with
  | none => s.inc F.lnkCnt.dupcompl (Ix.mod p)
  | some x => decideXfer { x with landed := landed } st s

/-- Send a COMPL for a transfer's frame to its source module. -/
def sendCompl (p : Nat) (dst xid part st landed : Nat) (s : State) : State :=
  if dst = s.ownId then complArrive p xid st landed s
  else { s with inject := s.inject ++ [(⟨frameHdr 2 1 true true dst s.ownId part 0 xid (st + landed * 2 ^ 4), []⟩ : Frame)] }

/-- A frame that cannot leave through port p: a WRITE is answered LINK_FAIL, SIGNAL and TSYNC are counted (R416, R417). -/
def deadFrame (p : Nat) (f : Frame) (s : State) : State :=
  match f.ty with
  | 1 => sendCompl p f.src f.xid f.part xLinkFail 0 s
  | 2 => s
  | _ => s.inc F.lnkCnt.drop (Ix.mod p)

/-! ## Sending (R414-R416) -/

/-- Units of an input's receive buffer become free. -/
def freeUnits (input buf n : Nat) (s : State) : State :=
  if 6 ≤ input then s
  else
    let q := s.port input
    s.setPort input { q with freed := Map.put q.freed buf (Map.getD q.freed buf 0 + n) }

/-- The port holds the credits for a frame, and its channel has fewer than 64 frames unacknowledged. -/
def Port.canSend (q : Port) (f : Frame) : Bool :=
  decide (Map.getD q.used f.buf 0 + f.units ≤ 1024) && decide ((q.replay.filter fun g => decide (g.vc = f.vc)).length < 64)

/-- The next frame to leave: the oldest of the first channel, in the order VC3, VC1, VC2, VC0, whose oldest frame can be sent. -/
def Port.nextOut (q : Port) : Option OutFrame :=
  [3, 1, 2, 0].findSome? fun v => (q.waiting.find? fun o => decide (o.frame.vc = v)).bind fun o => if q.canSend o.frame then some o else none

/-- Send what can be sent: each frame takes its channel's alive value and is kept until acknowledged. -/
def pump (p : Nat) : Nat → State → State
  | 0, s => s
  | fuel + 1, s =>
    let q := s.port p
    if s.lkState p ≠ lkUp then s
    else match q.nextOut with
      | none => s
      | some o =>
        let ix := Ix.mod p o.frame.vc
        let f := o.frame.put 8 8 (s.get F.lnkChkAlive.tx ix)
        let s := s.incWrap F.lnkChkAlive.tx ix
        let s := s.setPort p { q with waiting := q.waiting.erase o, replay := q.replay ++ [f], used := Map.put q.used f.buf (Map.getD q.used f.buf 0 + f.units) }
        pump p fuel (freeUnits o.input o.buf f.units (s.send (.frame p f)))

/-- Insert by input and then by arrival: of the frames that wait for an output those of a lower input always go first (R417).
[DEDUCED, log 205] -/
def insertOut (o : OutFrame) : List OutFrame → List OutFrame
  | [] => [o]
  | x :: xs => if o.input < x.input then o :: x :: xs else x :: insertOut o xs

/-- A frame comes to output p. -/
def enqueue (p : Nat) (f : Frame) (input buf : Nat) (s : State) : State :=
  if s.lkState p ≠ lkUp then deadFrame p f (freeUnits input buf f.units s)
  else
    let q := s.port p
    pump p 64 (s.setPort p { q with waiting := insertOut ⟨f, input, buf⟩ q.waiting })

/-- Every frame held at a port is discarded. -/
def dropFrames (p : Nat) (s : State) : State :=
  let q := s.port p
  let s := s.setPort p { q with waiting := [], replay := [], used := [], cred := [], tries := 0 }
  let s := forAll q.waiting (fun o s => deadFrame p o.frame (freeUnits o.input o.buf o.frame.units s)) s
  forAll q.replay (deadFrame p) s

/-- The port is FAILED (R416).  [DEDUCED, log 145] -/
def failPort (p : Nat) (s : State) : State := dropFrames p (setLk p lkFailed s)

/-! ## Forwarding (R417) -/

/-- Output and new DL of a frame for another module, from an input. -/
def State.route (s : State) (f : Frame) (input : Nat) : Option (Nat × Nat) :=
  (s.torusPort f.dst).map fun p =>
    let dim := p / 2
    let own := s.ownId / 16 ^ dim % 16
    let wrap : Bool := if p % 2 = 0 then decide (own = s.ringSize3 dim - 1) else decide (own = 0)
    let kept := decide (input < 6 ∧ input / 2 = dim) && decide (f.dl = 1)
    (p, boolNat (wrap || kept))

/-- A frame from an input leaves for another module; one of another system is counted in MISROUTE. -/
def forward (f : Frame) (input : Nat) (s : State) : State :=
  if f.dst / 4096 ≠ s.ownId / 4096 then
    let s := freeUnits input f.buf f.units s
    if input < 6 then s.inc F.lnkCnt.misroute (Ix.mod input) else s
  else match s.route f input with
    | none => freeUnits input f.buf f.units s
    | some (p, dl) => enqueue p (f.put 6 1 dl) input f.buf s

/-! ## Receiving (R406, R407) -/

/-- An LCTL frame (Table 13.3): the alive value of every channel and the units freed. -/
def State.lctl (s : State) (p kind : Nat) : Frame :=
  let ev := fun v => s.get F.lnkChkAlive.exp (Ix.mod p v)
  let vals := [0, 1, 2, 3].foldl (fun t v => t + (if kind = 1 then ev v else (ev v + 255) % 256) * 2 ^ (8 * v)) 0
  let cred := (List.range 8).foldl (fun t b => t + Map.getD (s.port p).freed b 0 % 256 * 2 ^ (8 * b)) 0
  ⟨frameHdr 5 0 false false (s.get F.lnkStat.peer (Ix.mod p)) s.ownId 0 0 0 (kind + vals * 2 ^ 4 + cred * 2 ^ 36), []⟩

/-- Send an LCTL frame. -/
def sendLctl (p kind : Nat) (s : State) : State :=
  let q := s.port p
  (s.setPort p { q with told := q.freed, lctlAt := s.wall }).send (.frame p (s.lctl p kind))

/-- A frame that passed its check: accepted or a repeat (R407). -/
def acceptFrame (p : Nat) (f : Frame) (s : State) : Option State :=
  let ix := Ix.mod p f.vc
  let d := (f.alive + 256 - s.get F.lnkChkAlive.exp ix) % 256
  if d = 0 then some (s.incWrap F.lnkChkAlive.exp ix)
  else if d < 128 then some (torusLink p 1 f.vc d ((s.inc F.lnkChkAlive.loss ix d).set F.lnkChkAlive.exp ix (f.alive + 1)))
  else none

/-- A frame arrives at port p: one for this module is handled, another is forwarded. -/
def receive (p : Nat) (f : Frame) (handle : State → State) (s : State) : State :=
  if s.lkState p ≠ lkUp then s
  else
    let s := s.inc F.lnkChkCnt.checked (Ix.mod p)
    match acceptFrame p f s with
    | none => s.inc F.lnkChkAlive.repeat_ (Ix.mod p f.vc)
    | some s => if f.dst = s.ownId then handle (freeUnits p f.buf f.units s) else forward f p s

/-- LINK_FRAME_CHECK_FAIL: the frame is discarded and NAK sent. -/
def linkFrameCheckFail (p : Nat) (s : State) : State :=
  if s.lkState p ≠ lkUp then s
  else sendLctl p 1 ((s.inc F.lnkChkCnt.checked (Ix.mod p)).inc F.lnkChkCnt.mismatch (Ix.mod p))

def execLinkFrameCheckFail (p : Fin 6) (s : State) : Host.Outcome State Fault Refusal := done (linkFrameCheckFail p s)

/-- BADTYPE_FRAME: an undefined TYPE is discarded and counted. -/
def badtypeFrame (p : Nat) (f : Frame) (s : State) : State :=
  if s.lkState p ≠ lkUp ∨ (1 ≤ f.ty ∧ f.ty ≤ 5) then s
  else
    let s := s.inc F.lnkChkCnt.checked (Ix.mod p)
    match acceptFrame p f s with
    | none => s.inc F.lnkChkAlive.repeat_ (Ix.mod p f.vc)
    | some s => (freeUnits p f.buf f.units s).inc F.lnkCnt.badtype (Ix.mod p)

def execBadtypeFrame (p : Fin 6) (f : Frame) (s : State) : Host.Outcome State Fault Refusal := done (badtypeFrame p f s)

/-- FRAME_FORWARD: a frame for another module received at a port, or the oldest frame of the module's own injection. -/
def frameForward (from_ : Option (Fin 6 × Frame)) (s : State) : State :=
  match from_ with
  | some (p, f) => if f.dst = s.ownId ∨ f.ty = 5 then s else receive p f id s
  | none =>
    match s.inject with
    | [] => s
    | f :: rest => forward f 6 { s with inject := rest }

def execFrameForward (from_ : Option (Fin 6 × Frame)) (s : State) : Host.Outcome State Fault Refusal := done (frameForward from_ s)

/-! ## Acknowledgement and retry (R415, R416) -/

/-- Alive value `a` lies at or before `upTo`, within half the range. -/
def coveredBy (a upTo : Nat) : Bool := decide ((upTo + 256 - a) % 256 < 128)

/-- Release the frames acknowledged up to `upTo v` on each channel, and the credits of CRED. -/
def lctlTake (p : Nat) (f : Frame) (upTo : Nat → Nat) (s : State) : State :=
  let q := s.port p
  let keep := q.replay.filter fun g => !coveredBy g.alive (upTo g.vc)
  let q := { q with replay := keep, tries := if keep.length = q.replay.length then q.tries else 0 }
  let q := (List.range 8).foldl (fun (q : Port) b =>
    let new := f.ext (116 + 8 * b) 8
    let delta := (new + 256 - Map.getD q.cred b 0) % 256
    if delta = 0 then q else { q with cred := Map.put q.cred b new, used := Map.put q.used b (Map.getD q.used b 0 - delta) }) q
  s.setPort p q

/-- LCTL_ACK. -/
def lctlAck (p : Nat) (f : Frame) (s : State) : State :=
  if s.lkState p ≠ lkUp ∨ f.ty ≠ 5 ∨ f.ext 80 4 ≠ 0 then s
  else pump p 256 (lctlTake p f (fun v => f.ext (84 + 8 * v) 8) s)

def execLctlAck (p : Fin 6) (f : Frame) (s : State) : Host.Outcome State Fault Refusal := done (lctlAck p f s)

/-- LCTL_NAK: every unacknowledged frame from EXP on is sent again, in order; after 16 retries in a row the port is FAILED.  [DEDUCED, log 146] -/
def lctlNak (p : Nat) (f : Frame) (s : State) : State :=
  if s.lkState p ≠ lkUp ∨ f.ty ≠ 5 ∨ f.ext 80 4 ≠ 1 then s
  else
    let s := lctlTake p f (fun v => (f.ext (84 + 8 * v) 8 + 255) % 256) s
    let q := s.port p
    if q.replay.isEmpty then pump p 256 s
    else
      let s := (s.inc F.lnkCnt.retry (Ix.mod p) q.replay.length).setPort p { q with tries := q.tries + 1 }
      if 16 ≤ q.tries + 1 then failPort p s
      else pump p 256 (forAll q.replay (fun g s => s.send (.frame p g)) s)

def execLctlNak (p : Fin 6) (f : Frame) (s : State) : Host.Outcome State Fault Refusal := done (lctlNak p f s)

/-- LCTL_SEND: 256 ns after the last LCTL frame, or once 64 units of a buffer are free that were not reported. -/
def lctlSend (p : Nat) (s : State) : State :=
  let q := s.port p
  let many := (List.range 8).any fun b => decide (Map.getD q.told b 0 + 64 ≤ Map.getD q.freed b 0)
  if s.lkState p = lkUp ∧ (many ∨ q.lctlAt + 3168 ≤ s.wall) then sendLctl p 0 s else s

def execLctlSend (p : Fin 6) (s : State) : Host.Outcome State Fault Refusal := done (lctlSend p s)

/-- LANE_LOCK_LOST: for 1 ms. -/
def laneLockLost (p : Nat) (s : State) : State :=
  let st := s.lkState p
  if st = lkTraining ∨ st = lkUp ∨ st = lkMiswired then failPort p s else s

def execLaneLockLost (p : Fin 6) (s : State) : Host.Outcome State Fault Refusal := done (laneLockLost p s)

/-! ## Training (R411, R412) -/

/-- TORUS_ID_WRITE: ignored and counted once stage K5 has begun.  [DEDUCED, log 151] -/
def torusIdWrite (v : Nat) (s : State) : State :=
  if s.kdl.k5 then { s with net := { s.net with idIgnored := s.net.idIgnored + 1 } } else s.writeReg .nirTorusId (Ix.mod) 0 32 v

def execTorusIdWrite (v : Word32) (s : State) : Host.Outcome State Fault Refusal := done (torusIdWrite v.toNat s)

/-- LINK_TRAIN: alive values start at 0; a port of a dimension of size 1 is UNUSED. -/
def linkTrain (p : Nat) (s : State) : State :=
  if s.ringSize3 (p / 2) = 1 then setLk p lkUnused s
  else
    let s := dropFrames p s
    let s := s.setPort p { alternate := (s.port p).alternate }
    let s := forAll [0, 1, 2, 3] (fun v s => (s.set F.lnkChkAlive.tx (Ix.mod p v) 0).set F.lnkChkAlive.exp (Ix.mod p v) 0) s
    setLk p lkTraining s

def execLinkTrain (p : Fin 6) (s : State) : Host.Outcome State Fault Refusal := done (linkTrain p s)

/-- LCTL_IDENT: the neighbour's ID. -/
def lctlIdent (p : Nat) (f : Frame) (s : State) : State :=
  if s.lkState p = lkTraining ∧ f.ty = 5 ∧ f.ext 80 4 = 2 then
    (s.setPort p { s.port p with ident := true }).set F.lnkStat.peer (Ix.mod p) f.src
  else s

def execLctlIdent (p : Fin 6) (f : Frame) (s : State) : Host.Outcome State Fault Refusal := done (lctlIdent p f s)

/-- The neighbour on port p is the one the torus puts there (R412). -/
def State.neighbourOk (s : State) (p : Nat) : Bool :=
  let own := s.ownId
  let peer := s.get F.lnkStat.peer (Ix.mod p)
  decide (peer / 4096 = own / 4096) && [0, 1, 2].all fun dim =>
    let a := own / 16 ^ dim % 16
    let b := peer / 16 ^ dim % 16
    let n := s.ringSize3 dim
    if dim = p / 2 then decide (b < n) && decide ((if p % 2 = 0 then (a + 1) % n else (a + n - 1) % n) = b) else decide (a = b)

/-- LINK_TRAINING_DONE: UP or MISWIRED by the neighbour's ID, or FAILED where a lane did not lock within 100 ms. -/
def linkTrainingDone (p : Nat) (locked : Bool) (s : State) : State :=
  if s.lkState p ≠ lkTraining then s
  else if ¬ locked then failPort p s
  else if ¬ (s.port p).ident then s
  else setLk p (if s.neighbourOk p then lkUp else lkMiswired) s

def execLinkTrainingDone (p : Fin 6) (locked : Bool) (s : State) : Host.Outcome State Fault Refusal := done (linkTrainingDone p locked s)

/-! ## Attachments (Tables 13.1 and 16.8, R504) -/

/-- The port reaches the die fabric. -/
def State.attached (s : State) (p : Nat) : Bool := s.attaches (if (s.port p).alternate then altDie p else attachDie p)

/-! ## Delivery (R419, R420) -/

/-- A granted unit's gate has closed. -/
def State.gateShut (s : State) (a n : Nat) : Bool :=
  s.fences.any fun e => meetsUnit a n e.1 && e.2.closedAt.isSome

/-- Write a frame's payload at a destination address: bytes accepted.  [DESIGN CHOICE, log 204] -/
def landFrame (a : Nat) (bs : List Byte) (s : State) : Nat × State :=
  match addrSpace a with
  | 2 => (bs.length, s.postWrite 129 a bs)
  | 4 =>
    match addrCoreId a with
    | none => (0, s)
    | some c => rowsWrite c (s.now + 1) (rowsOf (addrOfs a) bs) s
  | _ =>
    let s := s.store a bs
    (bs.length, forAll (List.range (if bs.isEmpty then 0 else (a + bs.length - 1) / 256 - a / 256 + 1)) (fun i s => s.markWritten ((a / 256 + i) * 256) false false false) s)

/-- Physical destination address of a WRITE frame, through the tack map of its partition (R419). -/
def State.frameDst (s : State) (f : Frame) : Option Nat :=
  (Map.find s.tack ⟨f.part, f.ext 80 5, f.ext 85 7⟩).map fun c =>
    let sp := f.ext 94 4
    if sp = 2 then fabStack c.die (f.ext 102 39) else fab sp c.die c.clu (if sp = 1 then 0 else f.ext 92 2) (min (f.ext 102 39) (2 ^ 30 - 1))

/-- Checks of the first frame of a transfer (R280, R289). -/
def firstCheck (f : Frame) (a n : Nat) (s : State) : Nat × State :=
  let sp := f.ext 94 4
  if (sp ≠ 0 ∧ sp ≠ 1 ∧ sp ≠ 2 ∧ sp ≠ 4) ∨ ¬ s.addressOk a n then (xAddressFault, s)
  else if s.dieEmber (addrDie a) then (xWindowClosed, countFence F.cluSbufFence.late_lines a s)
  else match (if sp = 4 then planeFault (addrOfs a) n else none) with
    | some st => (st, s)
    | none => arrivalCheck ⟨some 3, f.src⟩ a n (f.ext 98 4) s

/-- An arriving transfer is rejected: one COMPL, and a signal where CSREJ asks for it. -/
def rejectIn (f : Frame) (w : InWrite) (st : Nat) (s : State) : State :=
  let s := s.putInWrite w.src w.xid (if f.last then none else some { w with status := some st })
  let s := if w.csd ∧ w.csrej then signalIn w s else s
  sendCompl w.port w.src w.xid f.part st w.landed s

/-- The payload of an accepted transfer's frame lands; after the last frame one COMPL and the signal. -/
def landIn (f : Frame) (w : InWrite) (s : State) : State :=
  let a := w.dst + w.landed + w.refused
  let bs := f.data.take (w.total - w.landed - w.refused)
  if s.darkAt a ∨ s.dieEmber (addrDie a) ∨ s.gateShut a bs.length then rejectIn f w xWindowClosed (countFence F.cluSbufFence.late_lines a s)
  else
    let r := landFrame a bs s
    let w := { w with landed := w.landed + r.1, refused := w.refused + (bs.length - r.1) }
    if ¬ f.last then r.2.putInWrite w.src w.xid (some w)
    else
      let s := r.2.putInWrite w.src w.xid none
      let ok := decide (w.refused = 0)
      let s := if w.csd ∧ (ok ∨ w.csrej) then signalIn w s else s
      sendCompl w.port w.src w.xid f.part (if ok then xOk else xArrayBusy) w.landed s

/-- A WRITE frame for this module.  [DEDUCED, log 148] -/
def writeDeliver (p : Nat) (f : Frame) (s : State) : State :=
  if f.first then
    match (if s.attached p then s.frameDst f else none) with
    | none => sendCompl p f.src f.xid f.part xAddressFault 0 (s.putInWrite f.src f.xid none)
    | some a =>
      let n := f.ext 141 24
      let w : InWrite := { port := p, src := f.src, xid := f.xid, part := f.part, dst := a, total := n, csd := decide (f.ext 165 1 = 1), csobj := f.ext 166 7
                           csinc := f.ext 173 8, csrej := decide (f.ext 181 1 = 1) }
      let r := firstCheck f a n s
      if r.1 = xOk then landIn f w r.2 else rejectIn f w r.1 r.2
  else match s.inWrite f.src f.xid with
    | none => if s.attached p then s else s.inc F.lnkCnt.drop (Ix.mod p)
    | some w =>
      if w.status.isSome then
        let s := if w.late then forAll (List.range ((f.data.length + 255) / 256)) (fun _ s => countFence F.cluSbufFence.late_lines w.dst s) s else s
        if f.last then s.putInWrite f.src f.xid none else s
      else landIn f w s

/-- WRITE_FRAME. -/
def execWriteFrame (p : Fin 6) (f : Frame) (s : State) : Host.Outcome State Fault Refusal :=
  done (if f.ty = 1 then receive p f (writeDeliver p f) s else s)

/-- A COMPL frame for this module. -/
def complDeliver (p : Nat) (f : Frame) (s : State) : State :=
  if s.attached p then complArrive p f.xid (f.ext 80 4) (f.ext 84 24) s else s.inc F.lnkCnt.drop (Ix.mod p)

/-- COMPL_FRAME. -/
def execComplFrame (p : Fin 6) (f : Frame) (s : State) : Host.Outcome State Fault Refusal :=
  done (if f.ty = 2 then receive p f (complDeliver p f) s else s)

/-- A SIGNAL frame for this module: applied to the bound cluster's object, or discarded and counted. -/
def signalDeliver (p : Nat) (f : Frame) (s : State) : State :=
  match (if s.attached p then Map.find s.tack ⟨f.part, f.ext 80 5, f.ext 85 7⟩ else none) with
  | none => s.inc F.lnkCnt.drop (Ix.mod p)
  | some c =>
    if s.dieDark c.die ∨ s.dieEmber c.die then s.inc F.cluRtrCnt.sigdrop c.ix
    else s.settleSync.addSync ⟨s.now, c, f.ext 92 7, false, f.ext 99 8, 4⟩

/-- SIGNAL_FRAME. -/
def execSignalFrame (p : Fin 6) (f : Frame) (s : State) : Host.Outcome State Fault Refusal :=
  done (if f.ty = 3 then receive p f (signalDeliver p f) s else s)

/-- ATTACHMENT_SWITCH: the attachment die is dark; the port takes its alternate, and granted transfers between the fabric and the
port complete with the bytes landed (R289, R504). -/
def attachmentSwitch (p : Nat) (s : State) : State :=
  let q := s.port p
  if q.alternate ∨ ¬ s.dieDark (attachDie p) then s
  else
    let s := s.setPort p { q with alternate := true }
    let s := forAll (s.net.inWrites.filter fun w => decide (w.port = p) && w.status.isNone) closeIn s
    forAll (s.flights.filter fun (x : Xfer) => x.launched.isSome && x.status.isNone && decide (x.gone < x.total) && decide ((x.torus.bind s.torusPort) = some p))
      (fun x s => decideXfer x xWindowClosed s) s

def execAttachmentSwitch (p : Fin 6) (s : State) : Host.Outcome State Fault Refusal := done (attachmentSwitch p s)

/-! ## Timebase alignment (R421-R425) -/

/-- A two's complement number of n bits. -/
def toSigned (n v : Nat) : Int := if 2 ^ (n - 1) ≤ v % 2 ^ n then (v % 2 ^ n : Int) - 2 ^ n else (v % 2 ^ n : Int)

/-- The lowest n bits of an integer. -/
def ofSigned (n : Nat) (v : Int) : Nat := (v % 2 ^ n).toNat

/-- The port time is taken from: TPARENT; a root that adopts takes its lowest-numbered UP port (R423). -/
def State.timeParent (s : State) : Option Nat :=
  if ¬ s.timeRoot then some (s.get F.nirTorusTcfg.tparent (Ix.mod))
  else if s.bit F.nirTorusTcfg.adopt (Ix.mod) then (List.range 6).find? fun p => decide (s.lkState p = lkUp)
  else none

/-- The timebase is aligned (R424). -/
def State.aligned (s : State) : Bool := s.bit F.nirTorusTstat.aligned (Ix.mod)

/-- Stage K5 of a kindling that may load the counters is running (R423). -/
def State.aligning (s : State) : Bool :=
  !s.aligned && s.kdl.kin.any fun k => decide (k.stage = 5) && (!k.warm || k.scope.isNone)

/-- A TSYNC frame (Table 13.4). -/
def State.tsync (s : State) (dst kind : Nat) (payload : List Byte) : Frame :=
  ⟨frameHdr 4 3 false false dst s.ownId 0 1 0 (kind + s.get F.nirTorusTstat.depth (Ix.mod) * 2 ^ 4 + boolNat s.aligned * 2 ^ 9), payload⟩

/-- TIME_EXCHANGE: a request with send time t1 to the parent, in K5 or 65,536 st after the last exchange. -/
def timeExchange (t1 : Nat) (s : State) : State :=
  match s.timeParent with
  | none => s
  | some p =>
    if s.aligning ∨ (s.aligned ∧ s.net.timeAt + 65536 ≤ s.stitch) then
      let s := { s with net := { s.net with timeReq := some t1, timeAt := s.stitch } }
      enqueue p (s.tsync (s.get F.lnkStat.peer (Ix.mod p)) 0 (natToBytes 8 t1 ++ List.replicate 24 0#8)) 6 0 s
    else s

def execTimeExchange (t1 : Word64) (s : State) : Host.Outcome State Fault Refusal := done (timeExchange t1.toNat s)

/-- A REQ: answered with the receive time t2 and the send time t3. -/
def tsyncReq (p : Nat) (f : Frame) (t2 t3 : Nat) (s : State) : State :=
  if f.ext 80 4 ≠ 0 then s
  else
    let s := s.setPort p { s.port p with child := true }
    let resid := ofSigned 64 (toSigned 32 (s.get F.nirTorusTstat.resid (Ix.mod)))
    enqueue p (s.tsync f.src 1 (natToBytes 8 (f.word 0) ++ natToBytes 8 t2 ++ natToBytes 8 t3 ++ natToBytes 8 resid)) 6 0 s

/-- TSYNC_REQ. -/
def execTsyncReq (p : Fin 6) (f : Frame) (t2 t3 : Word64) (s : State) : Host.Outcome State Fault Refusal :=
  done (if f.ty = 4 then receive p f (tsyncReq p f t2.toNat t3.toNat) s else s)

/-- Alignment is lost: TORUS-LINK of kind TIME. -/
def loseAlignment (p : Nat) (s : State) : State := torusLink p 3 0 0 (s.set F.nirTorusTstat.aligned (Ix.mod) 0)

/-- A RESP, received at t4: the offset from root time in 1/8 cc and the delay; in K5 the counters are loaded, later a departure
beyond 16 cc ends the alignment. -/
def tsyncResp (p : Nat) (f : Frame) (t4 : Nat) (s : State) : State :=
  if f.ext 80 4 ≠ 1 ∨ s.timeParent ≠ some p ∨ s.net.timeReq ≠ some (f.word 0) then s
  else
    let t1 : Int := f.word 0
    let t2 : Int := f.word 1
    let t3 : Int := f.word 2
    let off := ((t1 - t2) + ((t4 : Int) - t3)) / 2 + toSigned 64 (f.word 3)
    let delay := (((t4 : Int) - t1) - (t3 - t2)) / 2
    let s := { s with net := { s.net with timeReq := none } }.set F.lnkStat.delay (Ix.mod p) (ofSigned 32 delay)
    let depth := f.ext 84 5 + 1
    if s.aligning then
      if f.ext 89 1 = 1 ∧ depth ≤ 24 then
        let n := (off + 64) / 128
        let s := s.sets (Ix.mod) [(F.nirTorusTstat.aligned, 1), (F.nirTorusTstat.depth, depth), (F.nirTorusTstat.resid, ofSigned 32 (off - 128 * n))]
        let t := ofSigned 64 ((s.stitch : Int) - n)
        { s with stitch := t, net := { s.net with timeAt := t } }
      else s
    else if s.aligned ∧ (128 < off ∨ off < -128) then loseAlignment p s
    else s

/-- TSYNC_RESP. -/
def execTsyncResp (p : Fin 6) (f : Frame) (t4 : Word64) (s : State) : Host.Outcome State Fault Refusal :=
  done (if f.ty = 4 then receive p f (tsyncResp p f t4.toNat) s else s)

/-- A STEP frame: from the parent, it is passed on to the children and announced here, or ends the alignment where it comes less than
64 st before its stitch; from a child, it is a request for the root (R425). -/
def tsyncStep (p : Nat) (f : Frame) (s : State) : State :=
  let at_ := f.word 0
  let k := min (f.word 1) 5
  if f.ext 80 4 ≠ 2 ∨ ¬ s.lockstep then s
  else if s.timeRoot then requestStep .root k s
  else if s.get F.nirTorusTcfg.tparent (Ix.mod) = p then
    let s := forAll s.childPorts (fun c s => sendStepFrame c at_ k s) s
    if at_ < s.stitch + 64 then loseAlignment p s
    else
      let s := { s with stepReqs := Map.put s.stepReqs .root k }
      if (s.curStep + 1 = k ∨ k + 1 = s.curStep) ∧ s.canAnnounce k then announceStep k at_ s else retune s
  else sendStepFrame (s.get F.nirTorusTcfg.tparent (Ix.mod)) 0 k s

/-- TSYNC_STEP. -/
def execTsyncStep (p : Fin 6) (f : Frame) (s : State) : Host.Outcome State Fault Refusal :=
  done (if f.ty = 4 then receive p f (tsyncStep p f) s else s)

end Sys2Proof.Machine
end

