-- ==== Sys2Proof/Machine/Hosts.lean ====
section
/-!
DEFINITION. Host port, network and management interfaces (R427-R437, R505, R506, R521): the event ring, PCIe function state, BAR2, queue
pairs and RDMA requests, PFC, token datagrams, PMBus and JTAG; and the stitch boundary.
-/

namespace Sys2Proof.Machine
open Sys2Proof

/-! ## Events to the host (R505, R506) -/

/-- Pack payload fields from bit 0 upward. -/
def packFields : Nat → List (Nat × Nat) → Nat
  | _, [] => 0
  | lo, (v, w) :: rest => v % 2 ^ w * 2 ^ lo + packFields (lo + w) rest

/-- The 128 B record of an event (Table 16.9). -/
def Event.record (e : Event) : List Byte :=
  let flags := e.severity + (match e.part with
    | some p => 4 + p % 8 * 8
    | none => 0) + boolNat e.loss * 64
  natToBytes 2 e.code ++ natToBytes 1 flags ++ natToBytes 1 e.die ++ natToBytes 4 e.seq ++ natToBytes 8 e.issue ++ natToBytes 112 (packFields 0 e.payload)

/-- Free entries of the event ring; none while it is disabled or Bus Master Enable is clear. -/
def State.evqRoom (s : State) : Nat :=
  let m := Ix.mod
  if s.bit F.nirEvqCfg.en m ∧ s.bit F.hstPcieStat.bme m then
    2 ^ min (max (s.get F.nirEvqCfg.size_log2 m) 6) 16 - (s.get F.nirEvqProd.count m + 2 ^ 32 - s.get F.nirEvqCons.count m) % 2 ^ 32
  else 0

/-- Write the oldest held event at BASE + 128 × (PROD mod SIZE). -/
def writeEvent (s : State) : State :=
  match s.events with
  | [] => s
  | e :: rest =>
    let m := Ix.mod
    let prod := s.get F.nirEvqProd.count m
    let s := { s with events := rest }.send (.hostWrite (s.get F.nirEvqBase.addr m + 128 * (prod % 2 ^ min (max (s.get F.nirEvqCfg.size_log2 m) 6) 16)) e.record)
    s.sets m [(F.nirEvqProd.count, prod + 1), (F.nirEvqCnt.held, rest.length)]

def writeSome : Nat → State → State
  | 0, s => s
  | n + 1, s => writeSome n (writeEvent s)

/-- EVENT_WRITE: a batch of the held events the ring can take, oldest first, then PROD to PRODADDR and an MSI-X message. -/
def eventWrite (s : State) : State :=
  let n := min s.evqRoom s.events.length
  if n = 0 then s
  else
    let m := Ix.mod
    let s := writeSome n s
    (s.send (.hostWrite (s.get F.nirEvqProdaddr.addr m) (natToBytes 8 (s.get F.nirEvqProd.count m)))).msix (s.get F.nirEvqCfg.vec m)

def execEventWrite (s : State) : Host.Outcome State Fault Refusal := done (eventWrite s)

/-- EVENT_CONS_WRITE. -/
def eventConsWrite (v : Nat) (s : State) : State := eventWrite (s.set F.nirEvqCons.count (Ix.mod) v)

def execEventConsWrite (v : Word32) (s : State) : Host.Outcome State Fault Refusal := done (eventConsWrite v.toNat s)

/-! ## PCIe (R427-R431, R521) -/

/-- Write every waiting record its ring can take. -/
def flushRings (s : State) : State :=
  forAll s.recs (fun q s => match (⟨q.part % 8, Nat.mod_lt _ (by decide)⟩ : PartIx), (⟨q.ring % 16, Nat.mod_lt _ (by decide)⟩ : Fin 16) with
    | p, r => if q.eth then s else ringRecordWrite p r s) s

/-- PCIE_CONFIG_WRITE: dword `ofs` of the function's configuration space; bit 2 of the command register is Bus Master Enable, and
setting it starts the writing of held events and ring records. -/
def pcieConfigWrite (ofs : Fin 1024) (v : Word32) (s : State) : State :=
  if s.net.perst ∨ s.net.answersAt.isNone then s
  else
    let s := { s with net := { s.net with pcieCfg := Map.put s.net.pcieCfg ofs.val v.toNat } }
    if ofs.val = 1 then
      let s := s.set F.hstPcieStat.bme (Ix.mod) (bitsOf v.toNat 2 1)
      if v.toNat.testBit 2 then flushRings (eventWrite s) else s
    else s

def execPcieConfigWrite (ofs : Fin 1024) (v : Word32) (s : State) : Host.Outcome State Fault Refusal := done (pcieConfigWrite ofs v s)

/-- The function's PCIe state, its MSI-X table and Bus Master Enable are cleared (R430). -/
def resetFunction (s : State) : State :=
  let s := s.dropRegs fun k => decide (k.reg = .hstMsix) || decide (k.reg = .hstPba)
  { s with net := { s.net with pcieCfg := [] } }.set F.hstPcieStat.bme (Ix.mod) 0

/-- FUNCTION_LEVEL_RESET. -/
def execFunctionLevelReset (s : State) : Host.Outcome State Fault Refusal := done (resetFunction s)

/-- PERST_ASSERT. -/
def perstAssert (s : State) : State :=
  let s := (resetFunction s).sets (Ix.mod) [(F.hstPcieStat.speed, 0), (F.hstPcieStat.width, 0)]
  { s with net := { s.net with perst := true, answersAt := none } }

def execPerstAssert (s : State) : Host.Outcome State Fault Refusal := done (perstAssert s)

/-- PERST_DEASSERT: with the bus in range, the 80 ms to the first answer begin.  [DEDUCED, log 153] -/
def perstDeassert (s : State) : State :=
  if s.net.perst then
    let s := { s with net := { s.net with perst := false } }
    if 5400 ≤ s.get F.nirPwrStat.vbus (Ix.mod) ∧ s.get F.nirPwrStat.vbus (Ix.mod) ≤ 6300 ∧ ¬ s.shut then
      { s with net := { s.net with answersAt := some s.wall } }.trainPcie else s
  else s

def execPerstDeassert (s : State) : Host.Outcome State Fault Refusal := done (perstDeassert s)

/-- The module answers on PCIe: PERST# is released and the time to the first answer has begun (R427). -/
def State.pcieUp (s : State) : Bool := !s.net.perst && s.net.answersAt.isSome && !s.shut

/-- Count a refused host access (R430). -/
def hostRefused (bar ofs : Nat) (write : Bool) (s : State) : State :=
  let s := if write then s.inc F.hstPcieCnt.refwr (Ix.mod) else s.inc F.hstPcieCnt.refrd (Ix.mod)
  s.sets (Ix.mod) [(F.hstPcieRefaddr.addr, ofs), (F.hstPcieRefaddr.bar, bar)]

/-- A dynamic access of the host or network path to a stack range passes the checks of R280 with a source class.  [DEDUCED, log 152] -/
def State.stackAccess (s : State) (cls d ofs n : Nat) : Bool :=
  decide (d < s.dieCount) && !s.dieDark d && decide (0 < n) && s.stackWindow d cls ofs n && (s.gates (fabStack d ofs) n).isEmpty && s.available (fabStack d ofs) n

/-- BAR2_ACCESS: bit [35] selects the half, bits [34:0] are the stack offset of its die. -/
def bar2Access (ofs : BitVec 36) (w : Option (List Byte)) (n : Nat) (e : ReadEcc) (s : State) : State :=
  if ¬ s.pcieUp then s
  else
  let d := s.before.get F.hstBar2sel.die (Ix.mod (ofs.toNat / 2 ^ 35))
  let o := ofs.toNat % 2 ^ 35
  let a := fabStack d o
  match w with
  | some bs => if s.stackAccess 4 d o bs.length then s.postWrite 129 a bs else hostRefused 1 ofs.toNat true s
  | none =>
    if s.stackAccess 4 d o n then
      let s := countEcc a e (s.drainSide a)
      s.send (if e = .failed then .dynDone a xEccUe [] else .dynDone a xOk (s.bytes a n))
    else (hostRefused 1 ofs.toNat false s).send (.answer 0 false)

def execBar2Access (ofs : BitVec 36) (w : Option (List Byte)) (n : Nat) (e : ReadEcc) (s : State) : Host.Outcome State Fault Refusal :=
  done (bar2Access ofs w n e s)

/-! ## Queue pairs and RDMA (R432-R434) -/

/-- QP_ENABLE_WRITE: setting EN takes the context into effect; clearing it moves the queue pair to RESET. -/
def qpEnableWrite (q : Fin 256) (en : Bool) (s : State) : State :=
  let ix := Ix.mod q
  if en then
    if s.bit F.hstQp.en ix then s
    else
      let s := (s.set F.hstQp.en ix 1).set F.hstQp.state ix 1
      s.setQp q { ctx := s.peekReg .hstQp ix, sPsn := s.get F.hstQp.spsn ix, ePsn := s.get F.hstQp.rpsn ix, retries := s.get F.hstQp.retry ix }
  else
    let s := failFetches q 0 ((s.set F.hstQp.en ix 0).set F.hstQp.state ix 0)
    { s with net := { s.net with qps := Map.del s.net.qps q.val } }

def execQpEnableWrite (q : Fin 256) (en : Bool) (s : State) : Host.Outcome State Fault Refusal := done (qpEnableWrite q en s)

/-- RDMA reply codes. -/
def rdAck : Nat := 0
def rdSequence : Nat := 1
def rdInvalid : Nat := 2
def rdAccess : Nat := 3
/-- A read whose data are uncorrectable (R277).  [PRESUMED, log 190] -/
def rdFailed : Nat := 4

/-- The memory region an R_Key names: the first enabled entry. -/
def State.region (s : State) (rkey : Nat) : Option Nat :=
  (List.range 64).find? fun k => s.bit F.hstMr.en (Ix.mod k) && decide (s.get F.hstMr.rkey (Ix.mod k) = rkey)

/-- The die of an accepted request (R434). -/
def State.rdmaDie (s : State) (q : Nat) (write : Bool) (rkey va n : Nat) : Option Nat :=
  match s.region rkey with
  | none => none
  | some k =>
    let ix := Ix.mod k
    let d := s.get F.hstMr.die ix
    let base := s.get F.hstMr.base ix
    let ok := s.bit (if write then F.hstMr.wr else F.hstMr.rd) ix && decide (base ≤ va) && decide (va + n ≤ base + s.get F.hstMr.size ix) &&
      decide (s.qpField q 1 1 = some 1) && decide (s.partOf d = s.qpField q 8 8) && decide (s.partOf d ≠ none) && s.stackAccess 5 d va n
    if ok then some d else none

/-- A CNP for an ECN-marked arrival, at most one in 50 µs. -/
def sendCnp (q : Nat) (s : State) : State :=
  let k := s.qp q
  if k.cnpAt.any fun t => decide (s.wall < t + 618750) then s
  else ((s.setQp q { k with cnpAt := some s.wall }).send (.cnp q)).inc F.hstRdmaCnt.cnp_tx (Ix.mod)

/-- An incoming request on a READY queue pair: in sequence it is carried out or refused, a repeat is acknowledged, one ahead of the
expected PSN is answered with a sequence NAK.  [PRESUMED, log 50] -/
def rdmaRequest (q : Fin 256) (write : Bool) (psn rkey va : Nat) (data : List Byte) (n : Nat) (ecn : Bool) (e : ReadEcc) (s : State) : State :=
  if s.get F.hstQp.state (Ix.mod q) ≠ 1 then s
  else
    let s := if ecn then sendCnp q s else s
    let k := s.qp q
    let ahead := (psn + 2 ^ 24 - k.ePsn) % 2 ^ 24
    if ahead ≠ 0 ∧ write ∧ 2 ^ 23 ≤ ahead then s.send (.rdmaReply q rdAck [])
    else if ahead ≠ 0 ∧ ahead < 2 ^ 23 then s.send (.rdmaReply q rdSequence [])
    else match s.rdmaDie q write rkey va n with
      | none => (s.inc F.hstRdmaCnt.accerr (Ix.mod)).send (.rdmaReply q rdAccess [])
      | some d =>
        let s := if ahead = 0 then s.setQp q { k with ePsn := (psn + psnCount (bitsOf k.ctx 4 3) n) % 2 ^ 24 } else s
        let a := fabStack d va
        if write then (s.postWrite 129 a data).send (.rdmaReply q rdAck [])
        else
          let s := countEcc a e (s.drainSide a)
          s.send (if e = .failed then .rdmaReply q rdFailed [] else .rdmaReply q rdAck (s.bytes a n))

/-- RDMA_WRITE_REQUEST. -/
def execRdmaWriteRequest (q : Fin 256) (psn : BitVec 24) (rkey : Word32) (va : Word64) (data : List Byte) (ecn : Bool) (s : State) :
    Host.Outcome State Fault Refusal := done (rdmaRequest q true psn.toNat rkey.toNat va.toNat data data.length ecn .clean s)

/-- RDMA_READ_REQUEST. -/
def execRdmaReadRequest (q : Fin 256) (psn : BitVec 24) (rkey : Word32) (va : Word64) (n : Nat) (ecn : Bool) (e : ReadEcc) (s : State) :
    Host.Outcome State Fault Refusal := done (rdmaRequest q false psn.toNat rkey.toNat va.toNat [] n ecn e s)

/-- RDMA_INVALID_REQUEST: a SEND, Write with Immediate or atomic. -/
def rdmaInvalidRequest (q : Fin 256) (s : State) : State :=
  if s.get F.hstQp.state (Ix.mod q) = 1 then (s.inc F.hstRdmaCnt.invreq (Ix.mod)).send (.rdmaReply q rdInvalid []) else s

def execRdmaInvalidRequest (q : Fin 256) (s : State) : Host.Outcome State Fault Refusal := done (rdmaInvalidRequest q s)

/-- A queue pair's send rate now: 5 % of line rate is regained every 55 µs. -/
def State.sendRate (s : State) (q : Nat) : Rat :=
  let k := s.qp q
  min 1 (k.rate + ((s.wall - k.rateAt) / 680625 : Nat) / 20)

/-- CNP_RECEIVE: the send rate is halved. -/
def cnpReceive (q : Fin 256) (s : State) : State :=
  if s.get F.hstQp.state (Ix.mod q) = 1 then s.setQp q { s.qp q with rate := s.sendRate q / 2, rateAt := s.wall } else s

def execCnpReceive (q : Fin 256) (s : State) : Host.Outcome State Fault Refusal := done (cnpReceive q s)

/-- QP_RETRY_TIMEOUT: with retries left, the requests outstanding are sent again from the oldest. -/
def qpRetryTimeout (q : Fin 256) (s : State) : State :=
  let k := s.qp q
  if s.get F.hstQp.state (Ix.mod q) ≠ 1 ∨ k.retries = 0 then s
  else
    let s := s.setQp q { k with retries := k.retries - 1 }
    forAll (s.wts.jobs.filter fun e => decide (e.2.qp = q.val)) (fun e s =>
      let mtu := bitsOf k.ctx 4 3
      let back := e.2.outs.foldl (fun t n => t + psnCount mtu n) 0
      (e.2.outs.foldl (fun (t : Nat × Nat × State) n => (t.1 + n, (t.2.1 + psnCount mtu n) % 2 ^ 24, t.2.2.send (.rdmaRead q t.2.1 t.1 e.2.rkey n)))
        (e.2.raddr + e.2.landed, (k.sPsn + 2 ^ 24 - back) % 2 ^ 24, s)).2.2) s

def execQpRetryTimeout (q : Fin 256) (s : State) : Host.Outcome State Fault Refusal := done (qpRetryTimeout q s)

/-- Fetches go on issuing requests where nothing holds them. -/
def resumeFetches (s : State) : State := forAll (s.wts.jobs.map fun e => e.1) (fun d s => issueReads d 16 s) s

/-- PFC_FRAME: a pause of `quanta` × 512 bit times at 400 Gb/s on a priority of port n, or its release. -/
def pfcFrame (n : Fin 4) (prio : Fin 8) (quanta : Fin 65536) (s : State) : State :=
  if quanta.val = 0 then resumeFetches { s with net := { s.net with pfc := Map.del s.net.pfc (n.val, prio.val) } }
  else { s with net := { s.net with pfc := Map.put s.net.pfc (n.val, prio.val) (s.wall + (quanta * 1584 + 99) / 100) } }

def execPfcFrame (n : Fin 4) (prio : Fin 8) (quanta : Fin 65536) (s : State) : Host.Outcome State Fault Refusal := done (pfcFrame n prio quanta s)

/-! ## Token datagrams (R435) -/

/-- The flow's priority is paused. -/
def State.flowPaused (s : State) (ix : Ix) : Bool :=
  (Map.find s.net.pfc (s.get F.hstTflow.port ix, s.get F.hstTflow.prio ix % 8)).any fun t => decide (s.wall < t)

/-- TOKEN_DATAGRAM_SEND: flow r sends its waiting records, at most 255, after MOD_N records or MOD_ST stitches. -/
def tokenDatagramSend (p : PartIx) (r : Fin 16) (s : State) : State :=
  let ix := Ix.mod p r
  let mine := fun (q : RingRec) => decide (q.part = p.val) && decide (q.ring = r.val) && q.eth
  match s.recs.filter mine with
  | [] => s
  | q :: rest =>
    let due := decide (min (s.get F.srvRingCfg.mod_n ix) 255 ≤ rest.length + 1) || decide (q.entered + s.get F.srvRingCfg.mod_st ix ≤ s.stitch)
    if ¬ s.bit F.hstTflow.en ix ∨ s.flowPaused ix ∨ ¬ due then s
    else
      let now_ := (q :: rest).take 255
      let seq := Map.getD s.net.flowSeq (p.val, r.val) 0
      let bytes := natToBytes 1 1 ++ natToBytes 1 p ++ natToBytes 1 r ++ natToBytes 1 now_.length ++ natToBytes 4 seq ++ natToBytes 8 s.stitch ++
        now_.flatMap fun x => x.data
      let s := { s with recs := s.recs.filter (fun x => !mine x) ++ (q :: rest).drop 255
                        net := { s.net with flowSeq := Map.put s.net.flowSeq (p.val, r.val) ((seq + 1) % 2 ^ 32) } }
      resumeRings p (s.send (.datagram (s.get F.hstTflow.port ix) bytes))

def execTokenDatagramSend (p : PartIx) (r : Fin 16) (s : State) : Host.Outcome State Fault Refusal := done (tokenDatagramSend p r s)

/-! ## SMBus and PMBus (R436) -/

/-- Nirdo answers a PMBus read with its coding of a reading. -/
def pmbusAnswer (cmd reading : Nat) (s : State) : State := if s.shut then s else s.send (.answer (Config.pmbusCode cmd reading) true)

/-- READ_VIN: the bus voltage. -/
def execReadVin (s : State) : Host.Outcome State Fault Refusal := done (pmbusAnswer 0x88 (s.get F.nirPwrStat.vbus (Ix.mod)) s)

/-- READ_IIN: the input current, input power over bus voltage, in 10 mA. -/
def execReadIin (s : State) : Host.Outcome State Fault Refusal :=
  done (pmbusAnswer 0x89 (s.get F.nirPwrPin.p1ms (Ix.mod) * 10000 / s.get F.nirPwrStat.vbus (Ix.mod)) s)

/-- READ_PIN: the input power. -/
def execReadPin (s : State) : Host.Outcome State Fault Refusal := done (pmbusAnswer 0x97 (s.get F.nirPwrPin.p1ms (Ix.mod)) s)

/-- READ_TEMPERATURE_1: the coolant inlet. -/
def execReadTemperature1 (s : State) : Host.Outcome State Fault Refusal := done (pmbusAnswer 0x8D (s.get F.nirCoolMeas.tin (Ix.mod)) s)

/-- READ_TEMPERATURE_2: the hottest die. -/
def execReadTemperature2 (s : State) : Host.Outcome State Fault Refusal := done (pmbusAnswer 0x8E (s.get F.nirThmStat.thot (Ix.mod)) s)

/-- STATUS_WORD. -/
def execStatusWord (s : State) : Host.Outcome State Fault Refusal := done (if s.shut then s else s.send (.answer s.net.pmStatus true))

/-- CLEAR_FAULTS: the status bits clear, and SMBALERT# with them. -/
def clearFaults (s : State) : State := if s.shut then s else { s with net := { s.net with pmStatus := 0 } }

def execClearFaults (s : State) : Host.Outcome State Fault Refusal := done (clearFaults s)

/-- PMBUS_REVISION: 1.3. -/
def execPmbusRevision (s : State) : Host.Outcome State Fault Refusal := done (pmbusAnswer 0x98 13 s)

/-- MFR_ID. -/
def execMfrId (s : State) : Host.Outcome State Fault Refusal := done (pmbusAnswer 0x99 0 s)

/-- MFR_MODEL: by the grade and temperature grade of the identity area. -/
def execMfrModel (s : State) : Host.Outcome State Fault Refusal := done (pmbusAnswer 0x9A (s.peekReg .nirIdInfo (Ix.mod)) s)

/-- MFR_SERIAL. -/
def execMfrSerial (s : State) : Host.Outcome State Fault Refusal := done (pmbusAnswer 0x9E (s.get F.nirIdSerial.serial (Ix.mod)) s)

/-- SMBUS_UNKNOWN_COMMAND: NACK. -/
def execSmbusUnknownCommand (s : State) : Host.Outcome State Fault Refusal := done (if s.shut then s else s.send .nack)

/-- SMBALERT# is asserted while STATUS_WORD has a bit set.  [PRESUMED, log 52] -/
def State.smbAlert (s : State) : Bool := decide (s.net.pmStatus ≠ 0)

/-! ## JTAG (R436, R325) -/

/-- The JTAG instruction, and whether the boundary cells drive the pins (R436). -/
def State.jtag (s : State) (instr : Nat) (drive : Bool) : State := { s with net := { s.net with jtagInstr := instr, jtagDrive := drive } }

/-- JTAG_BYPASS: the one-bit bypass register captures 0. -/
def execJtagBypass (s : State) : Host.Outcome State Fault Refusal := done ((s.jtag 1 false).send (.answer 0 true))

/-- JTAG_IDCODE. -/
def execJtagIdcode (s : State) : Host.Outcome State Fault Refusal := done ((s.jtag 2 false).send (.answer Config.jtagId true))

/-- JTAG_SAMPLE_PRELOAD: the back-connector pins are sampled and the values to drive are preloaded. -/
def jtagSamplePreload (pins preload : Nat) (s : State) : State :=
  { s.jtag 3 false with net := { (s.jtag 3 false).net with jtagScan := preload } }.send (.answer pins true)

def execJtagSamplePreload (pins preload : Nat) (s : State) : Host.Outcome State Fault Refusal := done (jtagSamplePreload pins preload s)

/-- JTAG_EXTEST: the preloaded values drive the back-connector signals, and their inputs are captured. -/
def execJtagExtest (pins : Nat) (s : State) : Host.Outcome State Fault Refusal := done ((s.jtag 4 true).send (.answer pins true))

/-- JTAG_KEY_PROGRAM: an operator slot, refused once the manufacture lock is set. -/
def jtagKeyProgram (slot : Fin 4) (x y : BitVec 384) (s : State) : State :=
  if s.net.mfgLock then s.send (.answer 0 false) else ((s.jtag 5 false).setKey slot (x.toNat, y.toNat)).send (.answer 0 true)

def execJtagKeyProgram (slot : Fin 4) (x y : BitVec 384) (s : State) : Host.Outcome State Fault Refusal := done (jtagKeyProgram slot x y s)

/-! ## The stitch boundary -/

/-- STITCH_BOUNDARY: the counters advance; halt lines of lost dies are asserted; what is due in the stitch that begins happens: regions start to power on, cleared
shared-buffer units are ready, the serving units accept their request commands, shard fetches go on after a pause. -/
def execStitchBoundary (s : State) : Host.Outcome State Fault Refusal :=
  done (if s.running then resumeFetches (serveBoundary (settleUnits (startPreps (settleOwed (stitchBoundary s))))) else s)

end Sys2Proof.Machine
end

