-- ==== Sys2Proof/Machine/Kindle.lean ====
section
/-!
DEFINITION. Kindling (R492-R501), dies that go dark (R494, R509), resumption after a halt (R508-R512) and ember mode (R513-R516).
-/

namespace Sys2Proof.Machine
open Sys2Proof

/-! ## Lost dies (R494, R509) -/

/-- Both billets of a die are turned off by Nirdo: they stay accepted and carry no limit.  [DEDUCED, log 170] -/
def billetsOff (d : Nat) (s : State) : State :=
  setCapacity d (forAll (dieSockets d) (fun b s => s.set F.nirBilStat.ilim (Ix.mod b) 0) s)

/-- The stack converters of a die turn off: contents, requests and clears are gone, and no group is ready (R513). -/
def stacksOff (d : Nat) (s : State) : State :=
  let lo := fabStack d 0
  let s := match s.shardJob d with
    | some j => endShard d j shEmptyArea shsAborted 0 [] s
    | none => s
  let s := s.loseRange lo (lo + 0x800000000)
  let s := { s with stackReads := s.stackReads.filter fun r => decide (r.clu.die.val ≠ d)
                    stackWrites := s.stackWrites.filter fun w => decide (addrDie w.addr ≠ d)
                    zeroing := s.zeroing.filter fun z => decide (z.1.1 ≠ d)
                    areas := s.areas.filter fun a => decide (a.die ≠ d)
                    clearing := Map.del s.clearing d }
  let s := forAll [0, 1] (fun sd s => (s.set F.stkStat.grp_ready (Ix.stw d sd) 0).set F.stkStat.clearing (Ix.stw d sd) 0) s
  (s.sets (Ix.mod d) [(F.nirFpDie.stk0, 2), (F.nirFpDie.stk1, 2), (F.nirFpDie.grp, 0)]).fpChange

/-- Fields of bridge edge e in a die record (Table 16.6). -/
def fpEdgeOut : Nat → Fld
  | 0 => F.nirFpDie.out0
  | 1 => F.nirFpDie.out1
  | 2 => F.nirFpDie.out2
  | _ => F.nirFpDie.out3

def fpEdgeIn : Nat → Fld
  | 0 => F.nirFpDie.in0
  | 1 => F.nirFpDie.in1
  | 2 => F.nirFpDie.in2
  | _ => F.nirFpDie.in3

def fpSlice : Nat → Fld
  | 0 => F.nirFpDie.slice0
  | 1 => F.nirFpDie.slice1
  | 2 => F.nirFpDie.slice2
  | _ => F.nirFpDie.slice3

/-- STK_RTN[side][step] of a die record, by 6 × side + step. -/
def fpRtn : Nat → Fld
  | 0 => F.nirFpDie.rtn0
  | 1 => F.nirFpDie.rtn1
  | 2 => F.nirFpDie.rtn2
  | 3 => F.nirFpDie.rtn3
  | 4 => F.nirFpDie.rtn4
  | 5 => F.nirFpDie.rtn5
  | 6 => F.nirFpDie.rtn6
  | 7 => F.nirFpDie.rtn7
  | 8 => F.nirFpDie.rtn8
  | 9 => F.nirFpDie.rtn9
  | 10 => F.nirFpDie.rtn10
  | _ => F.nirFpDie.rtn11

/-- The die site across edge e: 0 N, 1 E, 2 S, 3 W; none off the grid or on a dummy site (R22, R23). -/
def State.facing (s : State) (d e : Nat) : Option Nat :=
  let t : Option Nat := match e with
    | 0 => if 4 ≤ d then some (d - 4) else none
    | 1 => if d % 4 < 3 then some (d + 1) else none
    | 2 => some (d + 4)
    | _ => if 0 < d % 4 then some (d - 1) else none
  t.filter fun x => decide (x < s.dieCount)

/-- Clusters on edge e of a die, by slice. -/
def edgeClus (d e : Nat) : List CluId :=
  match e with
  | 0 => (List.range 16).filterMap fun k => cluAt? d k
  | 1 => (List.range 8).filterMap fun k => cluAt? d (16 * k + 15)
  | 2 => (List.range 16).filterMap fun k => cluAt? d (112 + k)
  | _ => (List.range 8).filterMap fun k => cluAt? d (16 * k)

/-- The floor plan shows which slices of a die's edges are FAILED, and its clusters' links. -/
def showSlices (d : Nat) (s : State) : State :=
  let s := forAll (dieClus d) (fun c s => s.set F.nirFpClu.links (Ix.mod c.die c.clu) (s.get F.cluRtrLink.state c.ix)) s
  forAll [0, 1, 2, 3] (fun e s =>
    s.set (fpSlice e) (Ix.mod d) ((edgeClus d e).zipIdx.foldl (fun m q => if s.hopFailed q.1 e ∧ (s.facing d e).isSome then m + 2 ^ q.2 else m) 0)) s

/-- Every bridge slice of a die to a populated site is FAILED. -/
def failEdges (d : Nat) (s : State) : State :=
  let s := forAll [0, 1, 2, 3] (fun e s =>
    if (s.facing d e).isNone then s
    else forAll (edgeClus d e) (fun c s => match cluNext c e with
      | some t => s.failLink c t e
      | none => s) s) s
  forAll (d :: [0, 1, 2, 3].filterMap fun e => s.facing d e) showSlices s

/-- A die becomes dark: billets and stack converters off, its regions and what they held lost, its bridge slices FAILED, transfers
into it end WINDOW_CLOSED, shown in the floor plan with its cause. -/
def darken (d cause : Nat) (s : State) : State :=
  let s := s.sets (Ix.mod d) [(F.nirFpDie.state, 2), (F.nirFpDie.dark_cause, cause)]
  let s := forAll ((dieClus d).filter fun c => decide (s.regionState c ≠ rOff) && decide (s.regionState c ≠ rDead)) (fun c s => regionIsOff c rOff s) s
  let s := forAll (s.flights.filter fun x => x.launched.isSome && x.dst.any fun a => decide (addrDie a = d)) (fun x s => decideXfer x xWindowClosed s) s
  let s := stacksOff d (billetsOff d s)
  let s := { s with dying := Map.del s.dying d, tlm := Map.del s.tlm d, stwQ := s.stwQ.filter fun q => decide (q.1 ≠ d)
                    flights := s.flights.filter fun x => decide (x.core.die.val ≠ d) }
  (failEdges d s).fpChange

/-- DIE_DARK: what was lost in service is shown; Nirdo halts the die's partition in the stitch after, or in the stitch after the
effect of a committed swap whose harness binds the die (R516), and the grace begins.  [DEDUCED, log 174] -/
def dieGoesDark (d : Nat) (s : State) : State :=
  match Map.find s.dying d with
  | none => s
  | some cause =>
    let p := s.partOf d
    let s := darken d cause s
    match p with
    | none => dieDarkEvent d cause none (s.attachMoves d) s
    | some p =>
      let swap := (Map.find s.swaps p).filter fun w => w.committed
      let binds := (Map.find s.shadowHrn p).any fun h => h.bindings.any fun b => decide (b.2.die.val = d)
      let at_ : Option Nat := match swap with
        | some w => if binds then some w.at_ else none
        | none => some s.stitch
      let byCore := (Map.find s.halts p).any fun h => h.byCore
      let s := if byCore ∨ at_.isNone then dieDarkEvent d cause (some p) (s.attachMoves d) s else s
      match at_ with
      | none => s
      | some t =>
        let g := s.get F.nirEmberCfg.grace (Ix.mod)
        let s := { s with kdl := { s.kdl with owed := s.kdl.owed ++ [(d, t)], grace := Map.put s.kdl.grace p (s.wall + 12375000 * g) }
                          servHalt := match Map.find s.servHalt p with
                            | some h => Map.put s.servHalt p { h with dieLoss := true }
                            | none => s.servHalt }
        if g = 0 then emberDecide (some p) 3 s else s

def execDieDark (d : DieIx) (s : State) : Host.Outcome State Fault Refusal := done (dieGoesDark d s)

/-- STEWARD_POLL_TIMEOUT: die d's steward has not answered Nirdo's 1 ms poll for 10 ms. -/
def stewardPollTimeout (d : Nat) (s : State) : State :=
  if s.running ∧ s.get F.nirFpDie.state (Ix.mod d) = 1 ∧ ¬ s.dieDark d then { s with dying := Map.put s.dying d 1 } else s

def execStewardPollTimeout (d : DieIx) (s : State) : Host.Outcome State Fault Refusal := done (stewardPollTimeout d s)

/-- GRACE_EXPIRY: the grace has passed without a swap that would have ended it. -/
def graceExpiry (p : PartIx) (s : State) : State :=
  match Map.find s.kdl.grace p.val with
  | none => s
  | some t =>
    if s.wall < t then s
    else emberDecide (some p.val) 3 { s with kdl := { s.kdl with grace := Map.del s.kdl.grace p.val } }

def execGraceExpiry (p : PartIx) (s : State) : Host.Outcome State Fault Refusal := done (graceExpiry p s)

/-! ## Resumption (R510, R511) -/

/-- A lane's entry of an active seat at a resumption: LEN and own blocks are trimmed to n positions; an entry of a core newly bound
becomes active and empty. -/
def trimLane (σ n : Nat) (l : Lane) (s : State) : State :=
  let ix := l.ix σ
  if s.bit F.coreKvfRoleSeat.active ix then
    let keep := idxBelow (s.laneNa l) (s.laneIdx l) ((n + 63) / 64) - s.get F.coreKvfRoleSeat.pn ix
    let own := s.ownSlots l σ
    let s := forAll (own.drop keep) (fun k s => s.dropSlot l k) s
    s.sets ix [(F.coreKvfRoleSeat.len, n), (F.coreKvfRoleSeat.on, min keep own.length)]
  else (s.zeroSeat l σ 1).set F.coreKvfRoleSeat.len ix n

/-- A context marked for rebuild returns to QUEUED, keeps what it has produced and is promoted; its seat is freed. -/
def markRebuild (p : Nat) (e : Nat × ReqCtx) (s : State) : State :=
  let ix := Ix.mod p e.1
  let s := (kvSubmit true p kvSeatFree (s.ctxSeat p e.1) 0 0 0 0 s).2
  let fresh := !e.2.rebuild
  let s := (s.setCtxState p e.1 cQueued).set F.srvCtx.promoted ix 1
  let s := s.setCtx p e.1 { e.2 with admitted := false, granted := false, booked := 0, len := 0, replay := max e.2.replay e.2.len, rebuild := true
                                     promoted := some (e.2.promoted.getD s.stitch) }
  if fresh then s.set F.srvFaultCnt.pending (Ix.mod p) (s.get F.srvFaultCnt.pending (Ix.mod p) + 1) else s

/-- A context must be rebuilt: its seat lost a block, or a die was lost. -/
def State.mustRebuild (s : State) (p : Nat) (h : ServHalt) (e : Nat × ReqCtx) : Bool :=
  e.2.admitted && (h.dieLoss || (s.bit F.srvKvLen.broken (Ix.mod p (s.ctxSeat p e.1)) &&
    (Map.find s.brokeWhy (p, s.ctxSeat p e.1)).any fun r => decide (r.1 = kvLost)))

/-- The end of a pause: GENERATE contexts are placed in the new frame (R342, R364). -/
def pauseEnds (p : Nat) (s : State) : State :=
  match Map.find s.pauseUntil p with
  | none => s
  | some t =>
    if s.stitch < t ∨ ¬ s.serving p then s
    else (placeStreams p { s with pauseUntil := Map.del s.pauseUntil p })

/-- The stitch at which a halted partition resumes, if it is there. -/
def State.resumeDue (s : State) (p : Nat) : Option ServHalt :=
  (Map.find s.servHalt p).bind fun h => if h.resumed then none else h.resumeAt.bind fun t => if s.stitch < t then none else some h

/-- SERVING_RESUME: at the resume stitch every seat is trimmed to its committed length and contexts are kept or marked; after a pause
without a halt contexts are only placed again. -/
def servingResume (p : PartIx) (s : State) : State :=
  match s.resumeDue p with
  | none => pauseEnds p s
  | some h =>
    let live := (s.partCtxs p).filter fun e => decide (s.ctxState p e.1 ≠ cClosing)
    let seated := live.filter fun e => e.2.admitted && s.bit F.srvKvLen.active (Ix.mod p (s.ctxSeat p e.1))
    let s := forAll seated (fun e s =>
      let σ := s.ctxSeat p e.1
      (forAll (s.lanes p) (trimLane σ e.2.len) s).set F.srvKvLen.len (Ix.mod p σ) e.2.len) s
    let marked := live.filter (s.mustRebuild p h)
    let s := forAll marked (markRebuild p) s
    let s := { s with servHalt := Map.put s.servHalt p.val { h with resumed := true, kept := live.length - marked.length } }
    (checkResume p (placeStreams p s))

def execServingResume (p : PartIx) (s : State) : Host.Outcome State Fault Refusal := done (servingResume p s)

/-! ## Stages (R492-R499) -/

/-- NIR.KINDLE.STAT.STATE, and the floor plan's copy. -/
def setKindle (st : Nat) (s : State) : State := (s.set F.nirKindleStat.state (Ix.mod) st).set F.nirFpHead.state (Ix.mod) st

/-- Mask of the dies that satisfy a condition. -/
def dieMask (f : Nat → Bool) : Nat := (List.range 24).foldl (fun m d => if f d then m + 2 ^ d else m) 0

/-- The stage report (Table 16.3): one KINDLE-STAGE event, kept in NIR.KINDLE.REP. -/
def stageReport (k : Kindling) (us result cause n1 n2 n3 : Nat) (s : State) : State :=
  let lit := dieMask fun d => s.litDies.contains d
  let dark := dieMask fun d => s.dieDark d
  let ix := Ix.mod k.stage
  let s := s.sets ix [(F.nirKindleRep.stage, k.stage), (F.nirKindleRep.result, result), (F.nirKindleRep.warm, boolNat k.warm), (F.nirKindleRep.cause, cause),
    (F.nirKindleRep.start_us, k.us), (F.nirKindleRep.end_us, k.us + us), (F.nirKindleRep.lit, lit), (F.nirKindleRep.dark, dark),
    (F.nirKindleRep.n1, n1), (F.nirKindleRep.n2, n2), (F.nirKindleRep.n3, n3)]
  s.emit 0x0001 (if result = 2 then 2 else 0) 31 none [(k.stage, 3), (result, 2), (boolNat k.warm, 1), (cause, 3), (k.us, 32), (k.us + us, 32),
    (lit, 24), (dark, 24), (n1, 32), (n2, 32), (n3, 32)]

/-- Wall time of a stage before the stitch counters run: microseconds in units of 8/99 ns. -/
def passWall (us : Nat) (s : State) : State := if s.running then s else { s with wall := s.wall + 12375 * us }

/-- A stage ends and the next begins. -/
def stageEnds (k : Kindling) (us : Nat) (defects : Bool) (n1 n2 n3 : Nat) (s : State) : State :=
  let s := stageReport k us (if defects then 1 else 0) 0 n1 n2 n3 (passWall us s)
  { s with kdl := { s.kdl with kin := some { k with stage := k.stage + 1, us := k.us + us, begun := false, since := s.wall } } }.set
    F.nirKindleStat.stage (Ix.mod) (k.stage + 1)

/-- A module-level failure (R495): everything but Nirdo, host access and management is off, FAULT# is low. -/
def moduleFails (k : Kindling) (us cause n1 n2 n3 : Nat) (s : State) : State :=
  let s := stageReport k us 2 cause n1 n2 n3 (passWall us s)
  let s := forAll s.litDies (fun d s => stacksOff d (billetsOff d s)) s
  let s := setKindle 4 { s with kdl := { s.kdl with kin := none }, faultPin := true, running := false }
  s.set F.nirKindleStat.cause (Ix.mod) cause

/-- The kindling, if a stage of it is running. -/
def State.kindling (s : State) (stage : Nat) : Option Kindling := s.kdl.kin.filter fun k => decide (k.stage = stage)

/-- Lit dies of a kindling. -/
def State.kinDies (s : State) (k : Kindling) : List Nat := k.dies.filter s.litDies.contains

/-- The dies lose power: what is not Nirdo's, its flash's or outside is gone, and registers of the dies read their reset values. -/
def dieReset (s : State) : State :=
  let nirdo := fun (k : FKey) => match (Reg.place k.reg).cls with
    | .nir => !([Reg.nirFpDie, .nirFpClu, .nirKindleRep, .nirTorusTstat, .nirEmberStat, .lnkStat, .lnkChkAlive, .nirTimeStep].contains k.reg) ||
        (decide (k.reg = .nirTimeStep) && decide (k.lo = 8))
    | .srv => !([Reg.srvCtx, .srvKvLen, .srvFaultHalt].contains k.reg)
    | _ => false
  { State.reset with
    pending := s.pending, draws := s.draws, out := s.out, wall := s.wall, flashAges := s.flashAges, flashWear := s.flashWear, billets := s.billets
    ident := s.ident, keys := s.keys, sdRecs := s.sdRecs, events := s.events, eventSeq := s.eventSeq, eventLost := s.eventLost, recs := s.recs
    ringSig := s.ringSig, stalled := s.stalled, descAt := s.descAt, kvSeq := s.kvSeq, kvLast := s.kvLast, mon := s.mon, coolSince := s.coolSince
    ignored := s.ignored.filter fun e => decide ((Reg.place e.1.1).cls = .nir ∨ (Reg.place e.1.1).cls = .srv)
    mustClear := (List.range 8).filter fun p => decide (s.get F.hrnPart.dies (Ix.mod p) ≠ 0)
    net := { s.net with ports := [], inWrites := [], timeReq := none, timeAt := 0 }
    kdl := { clean := s.kdl.clean }
    regs := s.regs.filter fun e => nirdo e.1 }

/-- The identity area is loaded into NIR.ID, and PLIM takes the grade's limit (R528, R532). -/
def loadIdentity (s : State) : State :=
  let m := Ix.mod
  let f := fun o n => leNat s.ident o n
  s.sets m [(F.nirIdInfo.grade, f 8 1), (F.nirIdInfo.tgrade, f 9 1), (F.nirIdInfo.devid, f 0xA 2), (F.nirIdSerial.serial, f 0x10 8),
    (F.nirIdMac.macbase, f 0x18 6), (F.nirIdLimits.psus, f 0x20 4), (F.nirIdLimits.ppeak, f 0x24 4), (F.nirIdSites.pop, f 0x28 4)]

/-- The identity area's CRC-32C is valid. -/
def State.identOk (s : State) : Bool :=
  decide (s.ident.length = 4096) &&
    decide (leNat s.ident 0xFFC 4 = chkFinal (polyOf 0) (chkBytes (polyOf 0) (polyOf 0).init (s.ident.take 0xFFC)))

/-- A full kindling begins with stage K0.  [DEDUCED, log 168] -/
def startFull (s : State) : State :=
  let m := Ix.mod
  let s := loadIdentity (dieReset s)
  let k : Kindling := { dies := List.range s.dieCount, since := s.wall }
  let s := { s with kdl := { s.kdl with kin := some k } }
  let s := (setKindle 1 s).sets m [(F.nirKindleStat.stage, 0), (F.nirKindleStat.warm, 0), (F.nirKindleStat.cause, 0), (F.nirPwrStat.mode, 0),
    (F.nirFpHead.grade, s.get F.nirIdInfo.grade m), (F.nirFpHead.warm, 0), (F.nirTimeStep.cur_step, 5), (F.nirTimeStep.next_step, 5)]
  let s := s.fpChange
  if s.identOk then s else moduleFails k 0 7 0 0 0 s

/-- BUS_POWER_ON: the bus rises into range after at least 1 s off.  `ident`: the identity area; `lock`: the manufacture lock is set;
`sockets`: what changed in the sockets while the bus was off.  [DEDUCED, log 166] -/
def busPowerOn (v : Nat) (ident : List Byte) (lock : Bool) (sockets : List (Fin 48 × Option (List Byte))) (s : State) : State :=
  if 5400 ≤ v ∧ v ≤ 6300 ∧ (s.shut ∨ (s.get F.nirKindleStat.state (Ix.mod) = 0 ∧ s.kdl.kin.isNone)) then
    let billets := sockets.foldl (fun m e => match e.2 with
      | some mem => Map.put m e.1.val { mem := mem }
      | none => Map.del m e.1.val) s.billets
    let s := { s with billets := billets, ident := ident
                      net := { s.net with mfgLock := s.net.mfgLock || lock, answersAt := if s.net.perst then none else some s.wall } }
    let s := setBus 0 v (startFull s)
    let s := if s.net.perst then s else s.trainPcie
    s.set F.nirPwrGov.plim (Ix.mod) (s.get F.nirIdLimits.psus (Ix.mod))
  else s

def execBusPowerOn (v : Fin 65536) (ident : List Byte) (lock : Bool) (sockets : List (Fin 48 × Option (List Byte))) (s : State) :
    Host.Outcome State Fault Refusal := done (busPowerOn v ident lock sockets s)

/-- KINDLE_FULL: through an ember entry of the module, then 1 s with every billet off; where the module is in ember mode, has failed or
no counter runs yet, the billets turn off at once. -/
def kindleFull (s : State) : State :=
  if s.shut ∨ s.get F.nirKindleStat.state (Ix.mod) = 0 then s
  else if s.bit F.nirEmberStat.module (Ix.mod) ∨ ¬ s.running then startFull (billetWearSave (ageSave { s with kdl := { s.kdl with clean := true } }))
  else { emberDecide none 0 s with kdl := { (emberDecide none 0 s).kdl with fullAsked := true } }

def execKindleFull (s : State) : Host.Outcome State Fault Refusal := done (kindleFull s)

/-- STAGE_TIME_LIMIT: the running stage has passed its limit: the dies that have not finished it fail. -/
def stageTimeLimit (unfinished : BitVec 24) (s : State) : State :=
  match s.kdl.kin with
  | none => s
  | some k => forAll (k.dies.filter fun d => unfinished.getLsbD d && !s.dieDark d) (fun d s => darken d 4 s) s

def execStageTimeLimit (unfinished : BitVec 24) (s : State) : Host.Outcome State Fault Refusal := done (stageTimeLimit unfinished s)

/-! ## K0 (R443, R447, R459) -/

/-- Why a billet is refused at K0, if it is (Table 14.14): 0 identity, 1 model or rating, 2 wear. -/
def Billet.refusal (b : Billet) (answers : Bool) : Option Nat :=
  let crc := chkFinal (polyOf 0) (chkBytes (polyOf 0) (polyOf 0).init (b.mem.take 0x5C))
  if ¬ answers ∨ b.mem.length < 0xA0 ∨ leNat b.mem 0x5C 4 ≠ crc then some 0
  else if leNat b.mem 0 4 ≠ 0x00010450 ∨ leNat b.mem 0x24 2 ≠ 450 ∨ leNat b.mem 0x1C 4 = 0 ∨ leNat b.mem 0x20 4 = 0 then some 1
  else if (currentCopy b.mem).isNone ∨ b.wear.refuse ∨ 1100 ≤ b.wear1000 then some 2
  else none

/-- The larger of two wear accounts, field by field. -/
def Wear.larger (a b : Wear) : Wear :=
  { eqh := max a.eqh b.eqh, cyc := max a.cyc b.cyc, warned := a.warned || b.warned, derated := a.derated || b.derated, refuse := a.refuse || b.refuse }

/-- The wear account a billet begins with: the current copy's, and what flash holds under its SERIAL. -/
def State.wearOf (s : State) (b : Billet) : Wear :=
  Wear.larger (((currentCopy b.mem).map fun (c : Nat × Nat × Wear) => c.2.2).getD {}) ((Map.find s.flashWear b.serial).getD {})

/-- One socket at K0. -/
def kindleSocket (mute : BitVec 48) (b : Nat) (s : State) : State :=
  let ix := Ix.mod b
  let empty := fun (st : Nat) (s : State) => s.sets ix [(F.nirBilStat.state, st), (F.nirBilStat.ilim, 0), (F.nirBilSerial.value, 0), (F.nirBilLot.value, 0)]
  if s.dieCount ≤ b / 2 then empty 5 s
  else match Map.find s.billets b with
    | none => empty 0 s
    | some x =>
      if ¬ x.fitted then empty 0 s
      else
        let answers := !mute.getLsbD b
        let x : Billet := { mem := x.mem, wear := s.wearOf x }
        let s := showWear b { s with billets := Map.put s.billets b x }
        let s := s.sets ix [(F.nirBilSerial.value, if answers then x.serial else 0), (F.nirBilLot.value, if answers then leNat x.mem 0x10 8 else 0)]
        match x.refusal answers with
        | some why => billetEvent b 2 why (s.sets ix [(F.nirBilStat.state, 1), (F.nirBilStat.cause, why), (F.nirBilStat.ilim, 0)])
        | none => if x.wear.derated ∨ 1000 ≤ x.wear1000 then s.sets ix [(F.nirBilStat.state, 3), (F.nirBilStat.ilim, 315)]
            else s.sets ix [(F.nirBilStat.state, 2), (F.nirBilStat.ilim, 450)]

/-- A die at K0: lit where it has capacity and its rail comes into regulation. -/
def kindleDie (railBad : BitVec 24) (d : Nat) (s : State) : State :=
  let s := setCapacity d s
  if s.dieDark d then s
  else if s.capacity d = 0 then darken d 0 s
  else if railBad.getLsbD d then darken d 3 s
  else s.set F.nirFpDie.state (Ix.mod d) 1

/-- Sockets in a state. -/
def State.socketsIn (s : State) (st : Nat) : Nat := ((List.range 48).filter fun b => decide (s.bilState b = st)).length

/-- KINDLE_STAGE_K0.  [DESIGN CHOICE, log 40] -/
def kindleK0 (us : Nat) (supply coolant : Bool) (mute : BitVec 48) (railBad : BitVec 24) (s : State) : State :=
  match s.kindling 0 with
  | none => s
  | some k =>
    if ¬ supply then moduleFails k us 1 0 0 0 s
    else if ¬ coolant then moduleFails k us 2 0 0 0 s
    else
      let s := forAll (List.range 48) (kindleSocket mute) s
      let s := forAll k.dies (kindleDie railBad) s
      let n1 := s.socketsIn 2 + s.socketsIn 3
      if (s.kinDies k).isEmpty then moduleFails k us 3 n1 (s.socketsIn 1) (s.socketsIn 3) s
      else stageEnds k us (decide (s.socketsIn 1 ≠ 0) || decide ((s.kinDies k).length < k.dies.length)) n1 (s.socketsIn 1) (s.socketsIn 3) s

/-- Durations in µs; `mute`: sockets whose identity memory does not answer; `railBad`: dies whose rail is not in regulation in 2 ms. -/
def execKindleStageK0 (us : Word32) (supply coolant : Bool) (mute : BitVec 48) (railBad : BitVec 24) (s : State) : Host.Outcome State Fault Refusal :=
  done (kindleK0 us.toNat supply coolant mute railBad s)

/-! ## K1 and K2 -/

/-- Dies of a kindling that a mask names go dark with a cause. -/
def darkenMask (k : Kindling) (m : BitVec 24) (cause : Nat) (s : State) : State :=
  forAll ((s.kinDies k).filter fun d => m.getLsbD d) (fun d s => darken d cause s) s

/-- KINDLE_STAGE_K1: at its end every stitch counter is zero and runs. -/
def kindleK1 (us : Nat) (ref : Bool) (unlocked : BitVec 24) (s : State) : State :=
  match s.kindling 1 with
  | none => s
  | some k =>
    let src := s.get F.nirTorusTcfg.refsrc (Ix.mod)
    if ¬ ref then moduleFails k us 4 0 0 src s
    else
      let before := (s.kinDies k).length
      let s := darkenMask k unlocked 2 s
      let n := (s.kinDies k).length
      let s := s.sets (Ix.mod) [(F.nirTimeStep.cur_step, 5), (F.nirTimeStep.next_step, 5), (F.nirTimeStep.pending, 0), (F.nirTimeStep.standby_locked, 1)]
      let s := passWall us s
      stageEnds k us (decide (n < before)) n (before - n) src
        { s with running := true, stitch := 0, cc := 0, cycleRegs := some s.regs, standby := 5, pllLock := s.litDies, committed := false, stepReqs := [], lastStep := none }

def execKindleStageK1 (us : Word32) (ref : Bool) (unlocked : BitVec 24) (s : State) : Host.Outcome State Fault Refusal :=
  done (kindleK1 us.toNat ref unlocked s)

/-- KINDLE_STAGE_K2: stewards whose firmware digest or self-test fails lose their dies; the main references are on, and settled where
`mainOk` says so. -/
def kindleK2 (us : Nat) (failed mainOk : BitVec 24) (s : State) : State :=
  match s.kindling 2 with
  | none => s
  | some k =>
    let before := (s.kinDies k).length
    let s := darkenMask k failed 4 s
    let n := (s.kinDies k).length
    let s := forAll (s.kinDies k) (fun d s =>
      let s := mainRefEnable d true s
      if mainOk.getLsbD d then mainRefSettled d s else s) s
    stageEnds k us (decide (n < before)) n (before - n) ((s.kinDies k).filter fun d => s.bit F.tlmRef.main_ok (Ix.stw d)).length s

def execKindleStageK2 (us : Word32) (failed mainOk : BitVec 24) (s : State) : Host.Outcome State Fault Refusal := done (kindleK2 us.toNat failed mainOk s)

/-! ## K3 and K4 -/

/-- A measured stack return latency, in the steward's register and the floor plan. -/
def setRtn (d n lat : Nat) (s : State) : State :=
  (s.sets (Ix.stw d n) [(F.stwXingStkRtn.lat_cc, lat), (F.stwXingStkRtn.valid, 1)]).set (fpRtn n) (Ix.mod d) lat

/-- A stack side is OK with every group zeroed and ready, or FAILED. -/
def setSide (d sd : Nat) (ok : Bool) (s : State) : State :=
  let s := s.set F.stkStat.grp_ready (Ix.stw d sd) (if ok then 15 else 0)
  let s := s.set (if sd = 0 then F.nirFpDie.stk0 else F.nirFpDie.stk1) (Ix.mod d) (if ok then 0 else 1)
  s.set F.nirFpDie.grp (Ix.mod d) (putBits (s.get F.nirFpDie.grp (Ix.mod d)) (4 * sd) 4 (if ok then 15 else 0))

/-- A partition's exit keeps the clock step in force (R515). -/
def Kindling.keepsClock (k : Kindling) : Bool := k.warm && k.scope.isSome

/-- KINDLE_STAGE_K3: a side without a test that trained is FAILED. -/
def kindleK3 (us : Nat) (tests : List SideTest) (s : State) : State :=
  match s.kindling 3 with
  | none => s
  | some k =>
    let ds := s.kinDies k
    let side := fun (d sd : Nat) => tests.find? fun t => decide (t.die.val = d) && decide (t.side.val = sd) && t.trained
    let sides := ds.flatMap fun d => [(d, 0), (d, 1)]
    let s := s.dropRegs fun r => decide (r.reg = .stkCfg) && ds.contains r.ix.die
    let s := forAll sides (fun q s =>
      let lo := fabStack q.1 (q.2 * 0x400000000)
      let s := s.loseRange lo (lo + 0x400000000)
      match side q.1 q.2 with
      | none => setSide q.1 q.2 false s
      | some t => if k.keepsClock then setSide q.1 q.2 true s else setRtn q.1 (6 * q.2 + 5) t.rtn (setSide q.1 q.2 true s)) s
    let good := sides.filterMap fun q => side q.1 q.2
    stageEnds k us (decide (good.length < sides.length)) good.length (sides.length - good.length) (good.foldl (fun n t => n + t.lanes) 0) s.fpChange

def execKindleStageK3 (us : Word32) (tests : List SideTest) (s : State) : Host.Outcome State Fault Refusal := done (kindleK3 us.toNat tests s)

/-- State of one hop's link after its pattern test: UNUSED towards an empty or dummy site, FAILED towards a dark die or where the test
failed, else OK.  [DEDUCED, log 169] -/
def testHop (failed : List (CluId × Fin 7)) (c : CluId) (dir : Nat) (s : State) : State :=
  match cluNext c dir with
  | none => if s.dieCount = 0 then s else s.setLink c (hopPort c dir) 1
  | some e =>
    if s.dieCount ≤ e.die then s.setLink c (hopPort c dir) 1
    else if s.dieDark e.die ∨ (failed.any fun f => (decide (f.1 = c) && decide (f.2.val = hopPort c dir)) || (decide (f.1 = e) && decide (f.2.val = enterPort c e dir)))
    then s.failLink c e dir
    else (s.setLink c (hopPort c dir) 0).setLink e (enterPort c e dir) 0

/-- Links that a kindling's dies have part in, each once: a cluster and the direction east or south. -/
def State.kinLinks (s : State) (k : Kindling) : List (CluId × Nat) :=
  (List.range s.dieCount).flatMap fun d => (dieClus d).flatMap fun c => [1, 2].filterMap fun dir =>
    match cluNext c dir with
    | some e => if e.die.val < s.dieCount ∧ (k.dies.contains c.die.val ∨ k.dies.contains e.die.val) then some (c, dir) else none
    | none => none

/-- Bridge latencies of a die's edges: measured to each lit facing die, within 40-60 cc; none to a dark one; UNUSED elsewhere. -/
def showBridges (t : LinkTests) (d : Nat) (s : State) : State :=
  forAll [0, 1, 2, 3] (fun e s =>
    let ix := Ix.stw d e
    match s.facing d e with
    | none => s.sets ix [(F.stwXingBridge.valid, 0), (F.stwXingBridge.unused, 1)]
    | some f =>
      match s.dieDark f, t.bridge.find? fun b => decide (b.1.val = d) && decide (b.2.1.val = e) with
      | false, some b => s.sets ix [(F.stwXingBridge.lat_cc, max 40 (min 60 b.2.2.val)), (F.stwXingBridge.valid, 1), (F.stwXingBridge.unused, 0)]
      | _, _ => s.sets ix [(F.stwXingBridge.valid, 0), (F.stwXingBridge.unused, 0)]) s

/-- The die record's latencies of each edge, out and in. -/
def fpBridges (d : Nat) (s : State) : State :=
  forAll [0, 1, 2, 3] (fun e s =>
    let s := s.set (fpEdgeOut e) (Ix.mod d) (s.bridgeLat d e)
    match s.facing d e with
    | some f => s.set (fpEdgeIn e) (Ix.mod d) (s.bridgeLat f ((e + 2) % 4))
    | none => s) s

/-- The clock has been at every step and is at the effective ceiling (R45). -/
def clockToCeiling (s : State) : State :=
  let m := Ix.mod
  let top := s.effCeil
  let s := (s.inc F.nirTimeStepCount.up m s.curStep).inc F.nirTimeStepCount.down m top
  let s := { s.sets m [(F.nirTimeStep.cur_step, top), (F.nirTimeStep.next_step, top), (F.nirTimeStep.pending, 0), (F.nirTimeStep.standby_locked, 1),
    (F.nirTimeStepAt.stitch, s.stitch)] with committed := false, stepReqs := [], lastStep := some s.stitch, pllLock := s.litDies }
  { s with standby := s.standbyStep }

/-- KINDLE_STAGE_K4. -/
def kindleK4 (us : Nat) (t : LinkTests) (s : State) : State :=
  match s.kindling 4 with
  | none => s
  | some k =>
    let ds := s.kinDies k
    let s := forAll (ds.flatMap dieClus) (fun c s => forAll [0, 1, 2, 3] (testHop t.failed c) s) s
    let near := (ds ++ ds.flatMap fun d => [0, 1, 2, 3].filterMap fun e => s.facing d e).eraseDups
    let s := forAll near showSlices s
    let s := forAll ds (showBridges t) s
    let s := forAll near fpBridges s
    let s := forAll (t.halt.filter fun h => ds.contains h.1.val) (fun h s =>
      (s.sets (Ix.stw h.1) [(F.stwSchedHaltlat.lat_cc, min 24 h.2.val), (F.stwSchedHaltlat.valid, 1)]).set F.nirFpDie.haltlat (Ix.mod h.1) (min 24 h.2.val)) s
    let rtn := t.rtn.filter fun r => ds.contains r.1.val
    let s := if k.keepsClock then
        forAll (rtn.filter fun r => decide (r.2.2.1.val = s.curStep)) (fun r s =>
          if s.get (fpRtn (6 * r.2.1 + r.2.2.1)) (Ix.mod r.1) = r.2.2.2.val then s else setSide r.1 r.2.1 false s) s
      else clockToCeiling (forAll rtn (fun r s => setRtn r.1 (6 * r.2.1 + r.2.2.1) r.2.2.2 s) s)
    let links := s.kinLinks k
    let good := (links.filter fun l => s.hopOk l.1 l.2).length
    let longest := ds.foldl (fun n d => [0, 1, 2, 3].foldl (fun n e => if s.bit F.stwXingBridge.valid (Ix.stw d e) then max n (s.bridgeLat d e) else n) n) 0
    stageEnds k us (decide (good < links.length)) good (links.length - good) longest s.fpChange

def execKindleStageK4 (us : Word32) (t : LinkTests) (s : State) : Host.Outcome State Fault Refusal := done (kindleK4 us.toNat t s)

/-! ## K5 (R411, R412, R423, R498, R503) -/

/-- Ports whose dimension has more than one module. -/
def State.ringPorts (s : State) : List Nat := (List.range 6).filter fun p => decide (s.ringSize3 (p / 2) ≠ 1)

/-- The topology agrees with the expected one (R498). -/
def State.topologyAgrees (s : State) : Bool :=
  let ds := List.range s.dieCount
  ds.all s.litDies.contains &&
    (ds.all fun d => (dieClus d).all fun c => [0, 1, 2, 3].all fun dir => match cluNext c dir with
      | some e => decide (s.dieCount ≤ e.die) || s.hopOk c dir
      | none => true) &&
    s.ringPorts.all fun p => decide (s.lkState p = lkUp)

/-- A parent is waited for. -/
def State.awaitsParent (s : State) : Bool := s.aligning && s.timeParent.isSome

/-- KINDLE_STAGE_K5: first the ports train; the stage ends once none is training and the module is aligned, has no parent to align to,
or has waited TALIGN.  The time root is aligned at depth 0. -/
def kindleK5 (us : Nat) (s : State) : State :=
  match s.kindling 5 with
  | none => s
  | some k =>
    if ¬ k.begun ∧ ¬ k.keepsClock then
      let s := { s with kdl := { s.kdl with kin := some { k with begun := true, since := s.wall }, k5 := true } }
      forAll (List.range 6) linkTrain s
    else if ¬ k.keepsClock ∧ ((List.range 6).any (fun p => decide (s.lkState p = lkTraining)) ∨
        (s.awaitsParent ∧ s.wall < k.since + 1237500000 * s.get F.nirKindleCfg.talign (Ix.mod))) then s
    else
      let m := Ix.mod
      let s := if s.aligning ∧ s.timeParent.isNone then s.sets m [(F.nirTorusTstat.aligned, 1), (F.nirTorusTstat.depth, 0), (F.nirTorusTstat.resid, 0)] else s
      let s := forAll ((s.kinDies k).filterMap dieIx?) routeTableRewrite s
      let up := ((List.range 6).filter fun p => decide (s.lkState p = lkUp)).length
      let down := (s.ringPorts.filter fun p => decide (s.lkState p ≠ lkUp)).length
      stageEnds k us (decide (0 < down)) up down (boolNat s.aligned + 2 * boolNat s.topologyAgrees) s

def execKindleStageK5 (us : Word32) (s : State) : Host.Outcome State Fault Refusal := done (kindleK5 us.toNat s)

/-! ## K6 and K7 (R496, R497) -/

/-- An array fails its known-answer run. -/
def mapOutArray (a : ArrId) (s : State) : State :=
  if s.mapOut.contains a then s
  else
    let s := ({ s with mapOut := s.mapOut ++ [a] }.setArrState a aMappedOut).set F.arrCfg.enable a.ix 0
    let s := (s.inc F.nirFpClu.naout (Ix.mod a.die a.clu)).inc F.nirFpDie.naout (Ix.mod a.die)
    s.inc F.coreArrstat.mapped_out a.coreId.ix

/-- A core fails: all its arrays are mapped out with it (R95). -/
def mapOutCore (c : CoreId) (s : State) : State :=
  if s.coreMappedOut c.die c.clu c.core then s
  else
    let ix := Ix.mod c.die c.clu
    let s := s.set F.nirFpClu.flags ix (putBits (s.get F.nirFpClu.flags ix) c.core 1 1)
    let s := s.inc F.nirFpDie.ncoreout (Ix.mod c.die)
    fpSpare c.cluId (forAll ((List.finRange 64).map c.arr) mapOutArray s)

/-- A shared-buffer unit fails: it stays OFF. -/
def failUnit (c : CluId) (u : Fin 8) (s : State) : State :=
  let ix := Ix.mod c.die c.clu
  (s.set F.nirFpClu.sbuf ix (putBits (s.get F.nirFpClu.sbuf ix) u 1 1)).setSbufState c u 2

/-- A cluster whose loop-back tests fail: its region goes off and is reported unpowerable. -/
def unpowerable (c : CluId) (s : State) : State := fpRegionIs c 8 (regionIsOff c rOff s)

/-- The calibration sequence of the known-answer run on an array, once more where it meets a retirement condition: trims and a record, or
mapped out (R124, R496).  A mapped-out or retired array stays as it is.  [DEDUCED, log 167] -/
def kindleCal (a : ArrId) (s : State) : State :=
  if s.mapOut.contains a ∨ s.arrState a = aRetired then s
  else
  let run := fun (s : State) => calRecord a s.stitch (s.cluTemp a.coreId.cluId) (s.cluBlind a.coreId.cluId) s
  let r := run s
  if r.1.isNone then r.2
  else
    let q := run r.2
    if q.1.isNone then q.2 else mapOutArray a q.2

/-- The phases of a region that failed before are tried again by the PREP of the kindling (R454).  [DESIGN CHOICE, log 216] -/
def healPhases (c : CluId) (s : State) : State :=
  if (s.seq c).failed = 0 then s
  else setCap c ((((s.setSeq c { s.seq c with failed := 0 }).sets c.ix [(F.cluPwrStat.nfail, 0), (F.cluPwrStat.spare_in, 0)])).set
    F.nirFpClu.nfail (Ix.mod c.die c.clu) 0)

/-- Regions of a kindling that can be powered. -/
def State.kinRegions (s : State) (k : Kindling) : List CluId :=
  ((s.kinDies k).flatMap dieClus).filter fun c => decide (s.fpRegion c ≠ rDead) && decide (s.fpRegion c ≠ 8)

/-- KINDLE_STAGE_K6: first ages are restored and the regions scheduled, row y of each die 512 y st from now; the stage ends once every
region is ON, DEAD or found unpowerable. -/
def kindleK6 (us : Nat) (r : KnownAnswers) (s : State) : State :=
  match s.kindling 6 with
  | none => s
  | some k =>
    if ¬ k.begun then
      let s := if k.warm then s else restoreAges s.kdl.clean s
      let s := { s with kdl := { s.kdl with kin := some { k with begun := true, since := s.wall } } }
      forAll (s.kinRegions k) (fun c s => (healPhases c s).setSeq c { (healPhases c s).seq c with onAt := some (s.stitch + 512 * (c.clu.val / 16)) }) s
    else if (s.kinRegions k).any fun c => decide (s.regionState c ≠ rOn) && !r.unpowerable.contains c then s
    else
      let ds := s.kinDies k
      let mine := fun (c : CluId) => ds.contains c.die.val
      let s := forAll (r.unpowerable.filter mine) unpowerable s
      let up := ((s.kinRegions k).filter fun c => !r.unpowerable.contains c).flatMap cluCores
      let s := forAll (up.flatMap fun c => (List.finRange 64).map c.arr) kindleCal s
      let s := forAll (r.arrays.filter fun a => mine a.coreId.cluId) mapOutArray s
      let s := forAll (r.cores.filter fun c => mine c.cluId) mapOutCore s
      let s := forAll (r.sbufs.filter fun u => mine u.1) (fun u s => failUnit u.1 u.2 s) s
      let s := forAll (ds.flatMap dieClus) fpSpare s
      let n1 := (s.mapOut.filter fun a => ds.contains a.die.val).length
      let n2 := ds.foldl (fun n d => n + s.get F.nirFpDie.ncoreout (Ix.mod d)) 0
      let n3 := ds.foldl (fun n d => n + s.get F.nirFpDie.ndead (Ix.mod d)) 0
      stageEnds { k with known := r.complete } us (decide (n1 + n2 + n3 ≠ 0)) n1 n2 n3 s.fpChange

def execKindleStageK6 (us : Word32) (r : KnownAnswers) (s : State) : Host.Outcome State Fault Refusal := done (kindleK6 us.toNat r s)

/-- Arrays of a cluster that can be used. -/
def State.usableIn (s : State) (c : CluId) : Nat :=
  if s.fpBad c then 0
  else 256 - (s.mapOut.filter fun a => decide (a.coreId.cluId = c)).length - s.get F.nirFpClu.naret (Ix.mod c.die c.clu)

/-- EMBER (Table 16.11). -/
def emberEvent (kind part cause gate nabort : Nat) (s : State) : State :=
  s.emit 0x0013 3 31 (if kind < 2 then none else some part) [(s.stitch, 64), (kind, 2), (part, 3), (cause, 3), (gate, 64), (nabort, 13)]

/-- Why Ready is withheld, 0 where it is not (R497): 3 no die lit, 6 incomplete known-answer, 5 topology. -/
def State.withheldCause (s : State) (k : Kindling) : Nat :=
  if s.litDies.isEmpty then 3
  else if ¬ k.known then 6
  else if s.dieCount ≠ 24 ∧ ¬ s.topologyAgrees then 5
  else 0

/-- KINDLE_STAGE_K7: the floor plan is final; READY is set or withheld, and only a full kindling gives it once it has been withheld.  [DEDUCED, log 167] -/
def kindleK7 (us : Nat) (s : State) : State :=
  match s.kindling 7 with
  | none => s
  | some k =>
    let m := Ix.mod
    let cause := s.withheldCause k
    let ok := decide (cause = 0) && (!k.warm || s.kdl.ready)
    let n1 := s.litDies.foldl (fun n d => (dieClus d).foldl (fun n c => n + s.usableIn c) n) 0
    let n2 := (s.litDies.map fun d => s.get F.nirFpDie.nspare (Ix.mod d)).foldl min 128
    let s := stageReport k us (if ok then 0 else 1) cause n1 (if s.litDies.isEmpty then 0 else n2) (boolNat ok) s
    let s := setKindle (if ok then 2 else 3) { s with kdl := { s.kdl with kin := none, ready := ok } }
    let s := (s.sets m [(F.nirKindleStat.cause, cause), (F.nirFpHead.ready_at, s.stitch)]).fpChange
    let s := if k.keepsClock then s else s.set F.nirPwrStat.mode m 1
    if ¬ k.warm then s
    else match k.scope with
      | none => emberEvent 1 0 0 s.stitch 0 (s.sets m [(F.nirEmberStat.module, 0), (F.nirEmberStat.parts, 0)])
      | some p => emberEvent 3 p 0 s.stitch 0 (s.set F.nirEmberStat.parts m (putBits (s.get F.nirEmberStat.parts m) p 1 0))

def execKindleStageK7 (us : Word32) (s : State) : Host.Outcome State Fault Refusal := done (kindleK7 us.toNat s)

/-! ## Ember mode (R513-R515) -/

/-- Regions of lit dies power down from stitch g and their stack converters turn off. -/
def powerDownDies (ds : List Nat) (g : Nat) (s : State) : State :=
  forAll (ds.filter s.litDies.contains) (fun d s =>
    stacksOff d (forAll ((dieClus d).filter fun c => decide (s.regionState c ≠ rOff)) (fun c s => schedulePowerDown c g false s) s)) s

/-- Contexts of a partition that an ember entry ends. -/
def State.liveCtxs (s : State) (p : Nat) : List (Nat × ReqCtx) := (s.partCtxs p).filter fun e => decide (s.ctxState p e.1 ≠ cClosing)

/-- Ember entry of a partition at gate stitch g: contexts end ABORTED, the active harness is invalid, the shadow EMPTY, a waiting swap
ends HALTED, and the partition's regions and stacks go off.  [DEDUCED, log 172] -/
def emberPart (g p : Nat) (s : State) : State :=
  let live := s.liveCtxs p
  let s := forAll live (fun e s => finishCtx p e.1 7 1 g true s) { s with passes := s.passes.filter fun q => decide (q.part ≠ p) }
  let s := if (Map.find s.swaps p).isSome then swapDone p swHalted s else s
  let s := if (Map.find s.halts p).isSome then endHalt p s else s
  let s := { s with active := Map.del s.active p, shadowHrn := Map.del s.shadowHrn p, pauseUntil := Map.del s.pauseUntil p, servHalt := Map.del s.servHalt p
                    mustClear := (p :: s.mustClear).eraseDups
                    kdl := { s.kdl with grace := Map.del s.kdl.grace p, owed := s.kdl.owed.filter fun o => decide (s.partOf o.1 ≠ some p) } }
  let s := (s.set F.hrnStat.active_valid (Ix.mod p) 0).showShadow p shEmpty
  (powerDownDies (s.diesOf p) g s)

/-- EMBER_GATE: the gate stitch of a decision; a module entry waits for the end of a full kindling, and leads to one that was asked for. -/
def emberGate (scope : Option PartIx) (s : State) : State :=
  let sc := scope.map fun p => p.val
  match Map.find s.embers sc with
  | none => s
  | some (g, cause) =>
    if s.stitch < g ∨ s.kdl.kin.any (fun k => !k.warm) then s
    else
      let m := Ix.mod
      let s := { s with embers := Map.del s.embers sc }.set F.nirEmberStat.cause m cause
      match sc with
      | some p =>
        let n := (s.liveCtxs p).length
        emberEvent 2 p cause g n ((emberPart g p s).set F.nirEmberStat.parts m (putBits (s.get F.nirEmberStat.parts m) p 1 1))
      | none =>
        let ps := (List.range 8).filter fun p => decide (s.get F.hrnPart.dies (Ix.mod p) ≠ 0)
        let n := ps.foldl (fun n p => n + (s.liveCtxs p).length) 0
        let s := powerDownDies s.litDies g (forAll ps (emberPart g) { s with embers := [] })
        let s := (setKindle 5 s).sets m [(F.nirEmberStat.module, 1), (F.nirPwrStat.mode, 2)]
        let s := forAll s.litDies (fun d s => s.set F.stwPwrRail.set (Ix.stw d) 0) s
        let s := emberEvent 0 0 cause g (min n 8191) (requestStep .ember 5 s)
        if s.kdl.fullAsked then startFull (billetWearSave (ageSave { s with kdl := { s.kdl with clean := true } })) else s

def execEmberGate (scope : Option PartIx) (s : State) : Host.Outcome State Fault Refusal := done (emberGate scope s)

/-- EMBER result codes. -/
def emOk : Nat := 0
def emNotClear : Nat := 1
def emState : Nat := 2
def emBusy : Nat := 3

def emberResult (r : Nat) (s : State) : State := s.set F.nirEmberStat.result (Ix.mod) r

/-- The scope, or the module with it, is in ember mode. -/
def State.inEmber (s : State) (scope : Option Nat) : Bool :=
  match scope with
  | none => s.bit F.nirEmberStat.module (Ix.mod)
  | some p => s.bit F.nirEmberStat.module (Ix.mod) || (s.get F.nirEmberStat.parts (Ix.mod)).testBit p

/-- A kindling for the scope that an ember decision may stop is in progress. -/
def State.leaving (s : State) (scope : Option Nat) : Bool := s.kdl.kin.any fun k => k.warm && decide (k.scope = scope)

/-- EMBER_ENTER: the command is an ember decision.  [DEDUCED, log 173] -/
def emberEnter (scope : Option PartIx) (s : State) : State :=
  let sc := scope.map fun p => p.val
  let st := s.get F.nirKindleStat.state (Ix.mod)
  if s.shut then s
  else if (Map.find s.embers sc).isSome ∨ (Map.find s.embers none).isSome ∨ s.kdl.kin.any (fun k => !k.warm) then emberResult emBusy s
  else if st = 0 ∨ st = 4 ∨ (s.inEmber sc ∧ ¬ s.leaving sc) ∨ (sc.any fun p => decide (s.get F.hrnPart.dies (Ix.mod p) = 0)) then emberResult emState s
  else emberResult emOk (emberDecide sc 0 s)

def execEmberEnter (scope : Option PartIx) (s : State) : Host.Outcome State Fault Refusal := done (emberEnter scope s)

/-- The conditions of R514: the bus in range for 1 s, three evaluations (2 s) with the flow that PLIM requires, the inlet in the
grade's range, no hard limit. -/
def State.emberClear (s : State) : Bool :=
  let m := Ix.mod
  let tin := s.get F.nirCoolMeas.tin m
  s.mon.busSince.any (fun w => decide (w + 12375000000 ≤ s.wall)) && decide (3 ≤ s.mon.clearRun) &&
    decide (s.inletRange.1 ≤ tin ∧ tin ≤ s.inletRange.2) &&
    s.litDies.all fun d => decide (s.unitTemp (d, 0) < 600) && decide (s.unitTemp (d, 1) < 540) && decide (s.unitTemp (d, 2) < 540)

/-- A warm kindling of the lit dies in its scope begins with stage K3. -/
def startWarm (scope : Option Nat) (s : State) : State :=
  let m := Ix.mod
  let ds := match scope with
    | none => s.litDies
    | some p => (s.diesOf p).filter s.litDies.contains
  let s := s.dropRegs fun k => decide (k.reg = .nirKindleRep)
  let s := { s with kdl := { s.kdl with kin := some { stage := 3, warm := true, scope := scope, dies := ds, since := s.wall } } }
  (setKindle 1 s).sets m [(F.nirKindleStat.stage, 3), (F.nirKindleStat.warm, 1), (F.nirKindleStat.cause, 0), (F.nirFpHead.warm, 1)]

/-- EMBER_EXIT. -/
def emberExit (scope : Option PartIx) (s : State) : State :=
  let sc := scope.map fun p => p.val
  let inScope : Bool := match sc with
    | none => s.bit F.nirEmberStat.module (Ix.mod)
    | some p => !s.bit F.nirEmberStat.module (Ix.mod) && (s.get F.nirEmberStat.parts (Ix.mod)).testBit p
  if s.shut then s
  else if (Map.find s.embers sc).isSome ∨ (Map.find s.embers none).isSome ∨ s.kdl.kin.isSome then emberResult emBusy s
  else if ¬ inScope then emberResult emState s
  else if ¬ s.emberClear then emberResult emNotClear s
  else startWarm sc (emberResult emOk s)

def execEmberExit (scope : Option PartIx) (s : State) : Host.Outcome State Fault Refusal := done (emberExit scope s)

end Sys2Proof.Machine
end

