-- ==== Sys2Proof/Machine/Access.lean ====
section
/-!
DEFINITION. Register accesses (R13-R16, R315, R428-R430, R436, R437): direct writes with the registers that submit a command, reads
with the views that are not stored, the BAR0 map, management Ethernet and the console.
-/

namespace Sys2Proof.Machine
open Sys2Proof

/-! ## Where a register can be reached (R26, R302, R303, R468) -/

/-- Registers of the router, the sync unit and CLU.PWR stay reachable while their region is off. -/
def Reg.transit : Reg → Bool
  | .cluRtrRoute => true
  | .cluRtrRlat => true
  | .cluRtrLink => true
  | .cluRtrCnt => true
  | .cluRtrErr => true
  | .cluRtrErrstitch => true
  | .cluSynObj => true
  | .cluSynHsig => true
  | .cluSynStat => true
  | .cluPwrStat => true
  | .cluPwrMeas => true
  | .cluPwrCnt => true
  | _ => false

/-- The die is populated and its steward runs. -/
def State.dieUp (s : State) (d : Nat) : Bool := decide (d < s.dieCount) && decide (d < 24) && !s.dieDark d

/-- The instance exists on the module and its unit can be reached.  [DEDUCED, log 109] -/
def State.unitUp (s : State) (r : Reg) (ix : Ix) : Bool :=
  let p := Reg.place r
  match p.cls with
  | .nir => decide (ix.die = 0 ∧ ix.clu = 0 ∧ ix.core = 0) && decide (ix.n < max 1 p.countN) && decide (ix.m < max 1 p.countM)
  | .srv => decide (ix.die = 0 ∧ ix.clu = 0 ∧ ix.core = 0) && decide (ix.n < 8) && decide (ix.m < max 1 p.countM)
  | .stw => s.dieUp ix.die && decide (ix.clu = 0 ∧ ix.core = 0) && decide (ix.n < max 1 p.countN) && decide (ix.m < max 1 p.countM)
  | .clu =>
    s.dieUp ix.die && (cluAt? ix.die ix.clu).any (fun c => Reg.transit r || s.regionOn c) && decide (ix.core = 0) &&
      decide (ix.n < max 1 p.countN) && decide (ix.m < max 1 p.countM)
  | .core =>
    s.dieUp ix.die && (cluAt? ix.die ix.clu).any s.regionOn && decide (ix.core < 4) && decide (ix.n < max 1 p.countN) &&
      decide (ix.m < max 1 p.countM)
  | .arr =>
    s.dieUp ix.die && (cluAt? ix.die ix.clu).any s.regionOn && decide (ix.core < 4) && decide (ix.n < max 1 p.countN) &&
      decide (ix.m < max 1 p.countM)

/-! ## Writes (R14) -/

def dieIxOf (n : Nat) : DieIx := ⟨n % 24, Nat.mod_lt _ (by decide)⟩
def partIxOf (n : Nat) : PartIx := ⟨n % 8, Nat.mod_lt _ (by decide)⟩
def cluIdOf (ix : Ix) : CluId := ⟨dieIxOf ix.die, ⟨ix.clu % 128, Nat.mod_lt _ (by decide)⟩⟩

/-- PLIM as it is stored: from 3,000 W to the grade's limit.  [DESIGN CHOICE, log 64] -/
def State.clampPlim (s : State) : State :=
  let m := Ix.mod
  s.set F.nirPwrGov.plim m (min (max (s.get F.nirPwrGov.plim m) 3000) s.gradeLimit)

/-- A steward's power command, submitted with its stitch (R462). -/
def powerSubmit (d t : Nat) (s : State) : State :=
  let c : CluId := ⟨dieIxOf d, ⟨s.get F.stwPwrSeqCmd.cluster (Ix.stw d) % 128, Nat.mod_lt _ (by decide)⟩⟩
  match s.get F.stwPwrSeqCmd.op (Ix.stw d) with
  | 1 => regionOnCmd c t s
  | 2 => regionOffCmd c t s
  | _ => s

/-- A write of STW.SHARD.CMD. -/
def shardSubmit (d : DieIx) (v : Nat) (s : State) : State :=
  match bitsOf v 0 2 with
  | 1 => shardFetch d (bitsOf v 2 8) s
  | 2 => shardVerify d s
  | 3 => shardAbort d s
  | _ => s

/-- A write of NIR.EMBER.CMD. -/
def emberSubmit (v : Nat) (s : State) : State :=
  let scope := if v.testBit 2 then some (partIxOf (bitsOf v 3 3)) else none
  match bitsOf v 0 2 with
  | 1 => emberEnter scope s
  | 2 => emberExit scope s
  | _ => s

/-- A write of HST.QP[q]: the context is stored, and EN acts as QP_ENABLE_WRITE. -/
def qpWrite (q : Fin 256) (lo n v : Nat) (s : State) : State :=
  let t := s.writeReg .hstQp (Ix.mod q) lo n v
  qpEnableWrite q (t.bit F.hstQp.en (Ix.mod q)) (t.set F.hstQp.en (Ix.mod q) (s.get F.hstQp.en (Ix.mod q)))

/-- A direct write of bits [lo + n - 1 : lo] of a register.  A register that submits a command does so when the write takes its last
bit; the registers with an effect of their own act as their rows say.  [DEDUCED, log 110] -/
def regWrite (r : Reg) (ix : Ix) (lo n v : Nat) (s : State) : State :=
  if (Reg.place r).bits ≤ lo then s else
  let t := s.writeReg r ix lo n v
  let last := decide ((Reg.place r).bits ≤ lo + n)
  match r with
  | .nirTimeStep => ceilStepWrite (bitsOf v 8 3) s
  | .srvKvAt =>
    let op := t.get F.srvKvCmd.op ix
    if last ∧ 1 ≤ op ∧ op ≤ 5 then
      kvRequest ix.n op (t.get F.srvKvCmd.seat ix) (t.get F.srvKvCmd.seat2 ix) (t.get F.srvKvCmd.arg0 ix) (t.get F.srvKvCmd.arg1 ix) (t.get F.srvKvAt.stitch ix) t
    else t
  | .cluSbufInval => if v.testBit 0 then cacheInvalidateAll (cluIdOf ix) s else s
  | .stwWincmdAt => if last then windowCommand (dieIxOf ix.die) (t.get F.stwWincmdAt.stitch ix) t else t
  | .cluSynHsig => hsigWrite (cluIdOf ix) (bitsOf v 0 7) (bitsOf v 7 8) (v.testBit 15) s
  | .nirCinchAt => if last then cinchRequest (t.get F.nirCinchAt.stitch ix) t else t
  | .hrnPart => partitionWrite (partIxOf ix.n) (BitVec.ofNat 24 v) s
  | .hrnLoadGo => if v.testBit 0 then harnessLoadGo (partIxOf ix.n) s else s
  | .hrnSwapAt => if last then swapRequest (partIxOf ix.n) (t.get F.hrnSwapAt.stitch ix) t else t
  | .hrnLaunch => if last then hrnLaunch (partIxOf ix.n) (t.get F.hrnLaunch.stitch ix) t else t
  | .srvSubqTail => subqTailWrite (partIxOf ix.n) (v % 2 ^ 32) s
  | .srvReqCmd =>
    let op := bitsOf v 12 2
    if op = 1 ∨ op = 2 then requestCommand ix.n (bitsOf v 0 12) op s else t
  | .srvRingCons => ringConsWrite (partIxOf ix.n) ⟨ix.m % 16, Nat.mod_lt _ (by decide)⟩ (v % 2 ^ 32) s
  | .stwShardCmd => shardSubmit (dieIxOf ix.die) v t
  | .chkCfg => chkWrite (cluIdOf ix) (ix.n % 16) false (v % 16) s
  | .chkRun => chkWrite (cluIdOf ix) (ix.n % 16) true (t.get F.chkRun.reg ix) s
  | .nirTorusId => torusIdWrite (v % 2 ^ 32) s
  | .lnkCtl => if v.testBit 0 then linkTrain ix.n s else s
  | .nirPwrGov => t.clampPlim
  | .stwPwrSeqAt => if last then powerSubmit ix.die (t.get F.stwPwrSeqAt.stitch ix) t else t
  | .tlmRef => fallbackSelect ix.die (bitsOf v 2 2) (mainRefEnable ix.die (v.testBit 0) s)
  | .tlmUrg => tlmUrgWrite ix.die (bitsOf v 0 9) s
  | .tlmAccRange => if v.testBit 31 then accClear ix.die ix.n s else s
  | .nirKindleCmd => if bitsOf v 0 2 = 1 then kindleFull s else s
  | .nirEvqCfg => eventWrite t
  | .nirEvqCons => eventConsWrite (v % 2 ^ 32) s
  | .nirEmberCmd => emberSubmit v s
  | .hstQp => qpWrite ⟨ix.n % 256, Nat.mod_lt _ (by decide)⟩ lo n v s
  | .hstMsix =>
    -- A vector unmasked while its message is pending sends it.
    let w := ix.n
    if ¬ t.bit F.hstMsix.mask ix ∧ (t.get F.hstPba.pend (Ix.mod (w / 64))).testBit (w % 64) then
      (t.set F.hstPba.pend (Ix.mod (w / 64)) (putBits (t.get F.hstPba.pend (Ix.mod (w / 64))) (w % 64) 1 0)).msix w
    else t
  | _ => t

/-- REGISTER_WRITE: 32 or 64 bits at word `w` of a register that can be reached. -/
def registerWrite (r : Reg) (ix : Ix) (w : Fin 16) (wide : Bool) (v : Nat) (s : State) : State :=
  if s.unitUp r ix then regWrite r ix (32 * w.val) (if wide then 64 else 32) (if wide then v else v % 2 ^ 32) s else s

def execRegisterWrite (r : Reg) (ix : Ix) (w : Fin 16) (wide : Bool) (v : Word64) (s : State) : Host.Outcome State Fault Refusal :=
  done (registerWrite r ix w wide v.toNat s)

/-! ## Reads (R14, R16, R33, R315) -/

/-- The shadow of a register: its counter fields as the last cinch copied them, every other bit 0. -/
def State.shadowReg (s : State) (r : Reg) (ix : Ix) : Nat :=
  (Reg.fields r).foldl (fun acc f => if isCounter r f.lo then acc + Map.getD s.shadow ⟨r, f.lo, ix⟩ 0 * 2 ^ f.lo else acc) 0

/-- The shadow of 32 bits at an offset of a steward's or Nirdo's range. -/
def State.shadowHalf (s : State) (cls : UnitClass) (die ofs : Nat) : Nat :=
  match locate cls ofs with
  | none => 0
  | some x => bitsOf (s.shadowReg x.1 ⟨die, 0, 0, x.2.1, x.2.2.1⟩) (8 * x.2.2.2) 32

def State.shadowWord (s : State) (cls : UnitClass) (die w : Nat) : Nat :=
  s.shadowHalf cls die (8 * w) + s.shadowHalf cls die (8 * w + 4) * 2 ^ 32

/-- What a register reads, with the views of state that is kept elsewhere: the stitch counter, the generation of a cluster's copies,
an array's state during this cycle, the computing set, the counts of a core's arrays, array tallies, the shadow ports and whether a steward leads its partition. -/
def State.viewReg (s : State) (r : Reg) (ix : Ix) : Nat :=
  match r with
  | .nirTimeStitchLo => s.stitch % 2 ^ 32
  | .coreTallyGen => s.get F.cluTallyGen.gen ⟨ix.die, ix.clu, 0, 0, 0⟩
  | .arrTallyGen => s.get F.cluTallyGen.gen ⟨ix.die, ix.clu, 0, 0, 0⟩
  | .arrTallyOps => s.shadowReg .arrOps ix
  | .arrTallyClip => s.shadowReg .arrClip ix
  | .stwTallyData => s.shadowWord .stw ix.die (s.get F.stwTallyAddr.word ix)
  | .nirTallyData => s.shadowWord .nir 0 (s.get F.nirTallyAddr.word ix)
  | .arrState =>
    match arrOfIx ix with
    | some a => (if s.inAccess a then aAccess else s.arrState a) + 8 * boolNat (s.loading a)
    | none => 0
  | .coreArrstat =>
    match coreOfIx ix with
    | some c => putBits (s.peekReg r ix) F.coreArrstat.compute_set.lo 1 (s.computeSet c)
    | none => s.peekReg r ix
  | .coreCalStat =>
    match coreOfIx ix with
    | some c => putBits (putBits (s.peekReg r ix) F.coreCalStat.stale_cnt.lo F.coreCalStat.stale_cnt.width (s.staleCount c))
        F.coreCalStat.nocal_cnt.lo F.coreCalStat.nocal_cnt.width (s.nocalCount c)
    | none => s.peekReg r ix
  | .nirKeyStat => s.peekReg r ix / 4 * 4 + s.peekReg r ix % 2 + 2 * boolNat (decide (ix.n < 4))
  | .tlmQ => s.queueFront ix.die
  | .srvStat => s.serveStat ix.n (s.peekReg r ix)
  | .srvCtx => if s.ctxState ix.n ix.m = cQueued then putBits (s.peekReg r ix) F.srvCtx.seat.lo F.srvCtx.seat.width 0 else s.peekReg r ix
  | .stwPrecStat => s.peekReg r ix / 2 * 2 + boolNat (s.isLead ix.die)
  | r => s.peekReg r ix

/-- A read of bits [lo + n - 1 : lo] of a register: the value, and the state after its side effect. -/
def readReg (r : Reg) (ix : Ix) (lo n : Nat) (s : State) : Nat × State :=
  let v := bitsOf (s.viewReg r ix) lo n
  match r with
  | .nirTimeStitchLo => (v, s.set F.nirTimeStitchHi.count_hi (Ix.mod) (s.stitch / 2 ^ 32))
  | .tlmQ => (v, if 64 ≤ lo + n then queuePop ix.die s else s)
  | r => (v, s.clearRc r ix lo n)

/-- RC_COUNTER_READ: a read of the RC field at `lo`, alone or in the cycle of a hardware increment (R16). -/
def rcCounterRead (r : Reg) (ix : Ix) (lo : Nat) (inc : Bool) (s : State) : State :=
  match (Reg.fields r).find? fun f => decide (f.lo = lo) && decide (f.ty = .rc) with
  | none => s
  | some f =>
    if ¬ s.unitUp r ix then s
    else
      let q := readReg r ix f.lo f.width s
      (if inc && isCounter r f.lo then q.2.inc ⟨r, f.lo, f.width⟩ ix else q.2).send (.answer q.1 true)

def execRcCounterRead (r : Reg) (ix : Ix) (lo : Fin 512) (inc : Bool) (s : State) : Host.Outcome State Fault Refusal :=
  done (rcCounterRead r ix lo inc s)

/-! ## The BAR0 map (R315, R428-R430) -/

/-- What 32 bits of BAR0 reach: a register, its shadow, a read-only word of memory or of a table, nothing, or a refusal. -/
inductive BarPlace where
  | reg (r : Reg) (ix : Ix) (byte : Nat)
  | shadow (r : Reg) (ix : Ix) (byte : Nat)
  | bundle (c : CoreId) (addr : Nat)
  | word (val : Nat)
  | reserved
  | refused
  deriving DecidableEq, Repr

/-- An offset of space 0x3 of a cluster or core: core and array registers, at 0x1000_0000 above them their shadows, at 0x2000_0000
the cluster's registers and at 0x3000_0000 their shadows.  [DEDUCED, log 111] -/
def State.unitPlace (s : State) (c : CluId) (core o : Nat) : BarPlace :=
  let on := s.regionOn c
  let up := decide (o / 2 ^ 28 % 2 = 1)
  if o < 0x20000000 then
    if ¬ on then .refused
    else match (locate .core (o % 2 ^ 28)).orElse fun _ => locate .arr (o % 2 ^ 28) with
      | some x =>
        let ix : Ix := ⟨c.die, c.clu, core, x.2.1, x.2.2.1⟩
        if up then .shadow x.1 ix x.2.2.2 else .reg x.1 ix x.2.2.2
      | none => if 0xC8000 ≤ o ∧ o < 0xD0000 then .bundle ⟨c.die, c.clu, ⟨core % 4, Nat.mod_lt _ (by decide)⟩⟩ (fab 3 c.die c.clu core o) else .reserved
  else
    match (if core = 0 then locate .clu (0x20000000 + o % 2 ^ 28) else none) with
    | some x =>
      if on || Reg.transit x.1 then
        let ix : Ix := ⟨c.die, c.clu, 0, x.2.1, x.2.2.1⟩
        if up then .shadow x.1 ix x.2.2.2 else .reg x.1 ix x.2.2.2
      else .refused
    | none => .reserved

/-- An offset of a die window: the steward block, then the apertures, bound as they were before this cycle (R429). -/
def State.diePlace (s : State) (d o : Nat) : BarPlace :=
  if ¬ s.dieUp d then .refused
  else if o < 0x10000 then
    match locate .stw o with
    | some x => .reg x.1 (Ix.stw d x.2.1 x.2.2.1) x.2.2.2
    | none => .reserved
  else
    let j := Ix.stw d (o / 0x10000 - 1)
    let old := s.before
    match cluAt? d (old.get F.stwHwin.cluster j) with
    | none => .refused
    | some c => s.unitPlace c (old.get F.stwHwin.core j) (old.get F.stwHwin.page j * 2 ^ 16 + o % 2 ^ 16)

/-- An entry of the active tack map (R333). -/
def State.tackWord (s : State) (p i : Nat) : Nat :=
  match Map.find s.tack (⟨p, i / 128, i % 128⟩ : VClu) with
  | some c => if (Map.find s.active p).isSome then c.die.val + c.clu.val * 2 ^ 5 + 2 ^ 12 else 0
  | none => 0

/-- The 32 B of a clamp report entry (Table 10.7). -/
def ClampEntry.bytes (e : ClampEntry) : List Byte :=
  natToBytes 2 e.sec ++ natToBytes 2 e.reason ++ natToBytes 4 e.rcd ++ natToBytes 4 e.word ++ natToBytes 1 e.lsb ++ natToBytes 1 e.width ++
    natToBytes 2 e.tsrc ++ natToBytes 8 e.orig ++ natToBytes 8 e.new

def State.reportWord (s : State) (p o : Nat) : Nat :=
  match (Map.getD s.report p [])[o / 32]? with
  | some e => bytesToNat ((e.bytes.drop (o % 32)).take 4)
  | none => 0

/-- Code of an array in the floor plan's array map (R500).  [DEDUCED, log 114] -/
def State.arrayCode (s : State) (c : CluId) (core a : Nat) : Nat :=
  let region := s.get F.nirFpClu.region (Ix.mod c.die c.clu)
  let aid : ArrId := ⟨c.die, c.clu, ⟨core % 4, Nat.mod_lt _ (by decide)⟩, ⟨a % 64, Nat.mod_lt _ (by decide)⟩⟩
  if ¬ s.dieUp c.die ∨ region = 7 ∨ region = 8 ∨ s.coreMappedOut c.die c.clu core then 3
  else if s.mapOut.contains aid then 2
  else if s.get F.arrState.state aid.ix = aRetired ∨ s.get F.coreCalrecStat.retire_why aid.ix ≠ 0 then 1
  else 0

/-- 32 bits of the array map: sixteen arrays. -/
def State.arrayWord (s : State) (o : Nat) : Nat :=
  match cluAt? (o / 0x2000) (o / 0x40 % 128) with
  | none => 0
  | some c => (List.range 16).foldl (fun v i => v + s.arrayCode c (o / 0x10 % 4) (o / 4 % 4 * 16 + i) * 4 ^ i) 0

/-- An offset of Nirdo's range. -/
def State.nirPlace (s : State) (o : Nat) : BarPlace :=
  match locate .nir o with
  | some x => .reg x.1 (Ix.mod x.2.1 x.2.2.1) x.2.2.2
  | none =>
    if 0x100000 ≤ o ∧ o < 0x300000 then
      let p := (o - 0x100000) / 0x40000
      let q := (o - 0x100000) % 0x40000
      if 0x10000 ≤ q ∧ q < 0x10000 + 4 * 24 * 128 then .word (s.tackWord p ((q - 0x10000) / 4))
      else if 0x20000 ≤ q then .word (s.reportWord p (q - 0x20000))
      else .reserved
    else if 0x610000 ≤ o ∧ o < 0x640000 then .word (s.arrayWord (o - 0x610000))
    else .reserved

/-- What the 32 bits at a BAR0 offset reach (Table 13.7). -/
def State.barPlace (s : State) (o : Nat) : BarPlace :=
  if o < 0x1000000 then s.nirPlace o
  else if o < 0xD000000 then s.diePlace ((o - 0x1000000) / 0x800000) ((o - 0x1000000) % 0x800000)
  else if o < 0xD800000 then
    match locate .srv ((o - 0xD000000) % 0x100000) with
    | some x => .reg x.1 (Ix.mod ((o - 0xD000000) / 0x100000) x.2.2.1) x.2.2.2
    | none => .reserved
  else if o < 0x10000000 then .reserved
  else .refused

/-- An aligned 4 B or 8 B access whose parts are not refused.  [DEDUCED, log 112] -/
def State.barOk (s : State) (o n : Nat) : Bool :=
  (decide (n = 4) && decide (o % 4 = 0) || decide (n = 8) && decide (o % 8 = 0)) &&
    decide (s.barPlace o ≠ .refused) && (decide (n = 4) || decide (s.barPlace (o + 4) ≠ .refused))

/-- The second half of an 8 B access lies in the same register as the first. -/
def State.barWide (s : State) (o : Nat) : Bool :=
  match s.barPlace o, s.barPlace (o + 4) with
  | .reg r ix _, .reg r' ix' _ => decide (r = r') && decide (ix = ix')
  | _, _ => false

/-- Read n bytes at a place. -/
def readPlace (p : BarPlace) (n : Nat) (s : State) : Nat × State :=
  match p with
  | .reg r ix b => readReg r ix (8 * b) (8 * n) s
  | .shadow r ix b => (bitsOf (s.shadowReg r ix) (8 * b) (8 * n), s)
  | .bundle _ a => (bytesToNat (s.bytes a n), s)
  | .word v => (v, s)
  | .reserved => (0, s)
  | .refused => (0, s)

/-- Write n bytes at a place: only registers take a write; one of a bundle store is counted (R14, R169). -/
def writePlace (p : BarPlace) (n v : Nat) (s : State) : State :=
  match p with
  | .reg r ix b => regWrite r ix (8 * b) (8 * n) v s
  | .bundle c _ => { s with ignoredStore := Map.put s.ignoredStore c (Map.getD s.ignoredStore c 0 + 1) }
  | _ => s

/-- A read of BAR0 that is carried out: 8 B as one access where they lie in one register, else low half first. -/
def barRead (o n : Nat) (s : State) : Nat × State :=
  if n = 8 ∧ ¬ s.barWide o then
    let lo := readPlace (s.barPlace o) 4 s
    let hi := readPlace (s.barPlace (o + 4)) 4 lo.2
    (lo.1 + hi.1 * 2 ^ 32, hi.2)
  else readPlace (s.barPlace o) n s

/-- A write of BAR0 that is carried out. -/
def barWrite (o n v : Nat) (s : State) : State :=
  if n = 8 ∧ ¬ s.barWide o then
    let hi := s.barPlace (o + 4)
    writePlace hi 4 (v / 2 ^ 32) (writePlace (s.barPlace o) 4 (v % 2 ^ 32) s)
  else writePlace (s.barPlace o) n (v % 2 ^ (8 * n)) s

/-- BAR0_ACCESS: a host write, or a read of n bytes: carried out, or refused and counted. -/
def bar0Access (o : Nat) (w : Option Nat) (n : Nat) (s : State) : State :=
  if ¬ s.pcieUp then s
  else if s.barOk o n then
    match w with
    | some v => barWrite o n v s
    | none =>
      let q := barRead o n s
      q.2.send (.answer q.1 true)
  else match w with
    | some _ => hostRefused 0 o true s
    | none => (hostRefused 0 o false s).send (.answer 0 false)

def execBar0Access (ofs : BitVec 28) (w : Option Word64) (n : Nat) (s : State) : Host.Outcome State Fault Refusal :=
  done (bar0Access ofs.toNat (w.map fun v => v.toNat) n s)

/-! ## Management Ethernet (R436, R437) -/

/-- A request is accepted from an enabled peer address while management Ethernet is enabled. -/
def State.mgmtFrom (s : State) (src : BitVec 128) : Bool :=
  !s.shut && s.bit F.nirMgmtCfg.en (Ix.mod) &&
    (List.range 4).any fun i => (s.get F.nirMgmtCfg.peer_en (Ix.mod)).testBit i && decide (s.get F.nirMgmtPeer.addr (Ix.mod i) = src.toNat)

/-- A read request and its answer: status 0 and the value, or 1 where refused. -/
def mgmtRead (op n : Nat) (src : BitVec 128) (tag : Byte) (o : Nat) (s : State) : State :=
  if ¬ s.mgmtFrom src then s
  else if s.barOk o n then
    let q := barRead o n s
    q.2.send (.mgmt op tag.toNat 0 q.1)
  else s.send (.mgmt op tag.toNat 1 0)

/-- A write request and its answer. -/
def mgmtWrite (op n : Nat) (src : BitVec 128) (tag : Byte) (o v : Nat) (s : State) : State :=
  if ¬ s.mgmtFrom src then s
  else if s.barOk o n then (barWrite o n v s).send (.mgmt op tag.toNat 0 0)
  else s.send (.mgmt op tag.toNat 1 0)

def execMgmtRead32 (src : BitVec 128) (tag : Byte) (ofs : Word32) (s : State) : Host.Outcome State Fault Refusal :=
  done (mgmtRead 1 4 src tag ofs.toNat s)

def execMgmtWrite32 (src : BitVec 128) (tag : Byte) (ofs : Word32) (v : Word64) (s : State) : Host.Outcome State Fault Refusal :=
  done (mgmtWrite 2 4 src tag ofs.toNat v.toNat s)

def execMgmtRead64 (src : BitVec 128) (tag : Byte) (ofs : Word32) (s : State) : Host.Outcome State Fault Refusal :=
  done (mgmtRead 3 8 src tag ofs.toNat s)

def execMgmtWrite64 (src : BitVec 128) (tag : Byte) (ofs : Word32) (v : Word64) (s : State) : Host.Outcome State Fault Refusal :=
  done (mgmtWrite 4 8 src tag ofs.toNat v.toNat s)

/-- MGMT_CONSOLE_BYTES: up to 256 bytes pass to the console; the commands they spell come as console commands.  [DESIGN CHOICE, log 113] -/
def mgmtConsoleBytes (src : BitVec 128) (tag : Byte) (bs : List Byte) (s : State) : State :=
  if ¬ s.mgmtFrom src then s
  else { s with net := { s.net with conIn := s.net.conIn ++ bs.take 256 } }.send (.mgmt 5 tag.toNat 0 0)

def execMgmtConsoleBytes (src : BitVec 128) (tag : Byte) (bs : List Byte) (s : State) : Host.Outcome State Fault Refusal :=
  done (mgmtConsoleBytes src tag bs s)

/-- MGMT_BAD_OP: an OP other than 1 to 5. -/
def mgmtBadOp (src : BitVec 128) (op tag : Byte) (s : State) : State :=
  if ¬ s.mgmtFrom src ∨ (1 ≤ op.toNat ∧ op.toNat ≤ 5) then s else s.send (.mgmt op.toNat tag.toNat 2 0)

def execMgmtBadOp (src : BitVec 128) (op tag : Byte) (s : State) : Host.Outcome State Fault Refusal := done (mgmtBadOp src op tag s)

/-! ## Console (R436) -/

/-- CONSOLE_REGISTER_READ: the value is printed, or a refusal. -/
def consoleRead (o : Nat) (wide : Bool) (s : State) : State :=
  let n := if wide then 8 else 4
  if s.shut then s
  else if s.barOk o n then
    let q := barRead o n s
    q.2.send (.answer q.1 true)
  else s.send (.answer 0 false)

def execConsoleRegisterRead (ofs : Word32) (wide : Bool) (s : State) : Host.Outcome State Fault Refusal := done (consoleRead ofs.toNat wide s)

/-- CONSOLE_REGISTER_WRITE: carried out, or a refusal is printed. -/
def consoleWrite (o : Nat) (wide : Bool) (v : Nat) (s : State) : State :=
  let n := if wide then 8 else 4
  if s.shut then s
  else if s.barOk o n then barWrite o n v s
  else s.send (.answer 0 false)

def execConsoleRegisterWrite (ofs : Word32) (wide : Bool) (v : Word64) (s : State) : Host.Outcome State Fault Refusal :=
  done (consoleWrite ofs.toNat wide v.toNat s)

/-- Number of a kindling command in the console's list: 0 full, 1 ember entry, 2 ember exit. -/
def ConsoleKindle.code : ConsoleKindle → Nat
  | .full => 0
  | .enter _ => 1
  | .leave _ => 2

/-- CONSOLE_KINDLING_COMMAND: a command that the help command lists acts as the register command of its name. -/
def consoleKindling (k : ConsoleKindle) (s : State) : State :=
  if s.shut ∨ ¬ Config.consoleLists (ConsoleKindle.code k) then s
  else match k with
    | .full => kindleFull s
    | .enter sc => emberEnter sc s
    | .leave sc => emberExit sc s

def execConsoleKindlingCommand (k : ConsoleKindle) (s : State) : Host.Outcome State Fault Refusal := done (consoleKindling k s)

end Sys2Proof.Machine
end

