-- ==== Sys2Proof/Machine/Dispatch.lean ====
section
/-!
DEFINITION. The meaning of every command: one arm per constructor, each one direct call.
-/

namespace Sys2Proof.Machine
open Sys2Proof

def exec (i : Instr) (s : State) : Host.Outcome State Fault Refusal :=
  match i with
  | .registerWrite r ix w wide v => Sys2Proof.Machine.execRegisterWrite r ix w wide v s
  | .rcCounterRead r ix lo inc => Sys2Proof.Machine.execRcCounterRead r ix lo inc s
  | .stewardCommand d => Sys2Proof.Machine.execStewardCommand d s
  | .hostStitchRequest c on t => Sys2Proof.Machine.execHostStitchRequest c on t s
  | .clockStepRequest src => Sys2Proof.Machine.execClockStepRequest src s
  | .clockStepAnnounce at_ => Sys2Proof.Machine.execClockStepAnnounce at_ s
  | .standbyPllLockLoss d => Sys2Proof.Machine.execStandbyPllLockLoss d s
  | .pllRelock d => Sys2Proof.Machine.execPllRelock d s
  | .ceilStepWrite v => Sys2Proof.Machine.execCeilStepWrite v s
  | .setExchange c => Sys2Proof.Machine.execSetExchange c s
  | .bundleIssue c => Sys2Proof.Machine.execBundleIssue c s
  | .stitchLaunch c => Sys2Proof.Machine.execStitchLaunch c s
  | .syncLaunch c => Sys2Proof.Machine.execSyncLaunch c s
  | .syncTimeout c => Sys2Proof.Machine.execSyncTimeout c s
  | .partitionHalt p => Sys2Proof.Machine.execPartitionHalt p s
  | .scheduleFaultEvent p => Sys2Proof.Machine.execScheduleFaultEvent p s
  | .taskLaunch c => Sys2Proof.Machine.execTaskLaunch c s
  | .creditCapChange c => Sys2Proof.Machine.execCreditCapChange c s
  | .capEnforceStart c => Sys2Proof.Machine.execCapEnforceStart c s
  | .amv c grp lat dst => Sys2Proof.Machine.execAmv c grp lat dst s
  | .amvw c grp lat dst => Sys2Proof.Machine.execAmvw c grp lat dst s
  | .arrayOpComplete a => Sys2Proof.Machine.execArrayOpComplete a s
  | .resultLineWrite c => Sys2Proof.Machine.execResultLineWrite c s
  | .ldl c lat fmt src => Sys2Proof.Machine.execLdl c lat fmt src s
  | .latchLanding c => Sys2Proof.Machine.execLatchLanding c s
  | .xset c idx => Sys2Proof.Machine.execXset c idx s
  | .vadd c f => Sys2Proof.Machine.execVadd c f s
  | .vsub c f => Sys2Proof.Machine.execVsub c f s
  | .vmul c f => Sys2Proof.Machine.execVmul c f s
  | .vfma c f => Sys2Proof.Machine.execVfma c f s
  | .vmax c f => Sys2Proof.Machine.execVmax c f s
  | .vmin c f => Sys2Proof.Machine.execVmin c f s
  | .vcmp c f => Sys2Proof.Machine.execVcmp c f s
  | .vsel c f => Sys2Proof.Machine.execVsel c f s
  | .vmov c f => Sys2Proof.Machine.execVmov c f s
  | .vmovs c f => Sys2Proof.Machine.execVmovs c f s
  | .vcvt c f => Sys2Proof.Machine.execVcvt c f s
  | .vswp c f => Sys2Proof.Machine.execVswp c f s
  | .vrsum c f => Sys2Proof.Machine.execVrsum c f s
  | .vrmax c f => Sys2Proof.Machine.execVrmax c f s
  | .vexp c f => Sys2Proof.Machine.execVexp c f s
  | .vrcp c f => Sys2Proof.Machine.execVrcp c f s
  | .vrsq c f => Sys2Proof.Machine.execVrsq c f s
  | .vsmx c d src m n first => Sys2Proof.Machine.execVsmx c d src m n first s
  | .vld c d ofs ty ind z => Sys2Proof.Machine.execVld c d ofs ty ind z s
  | .vst c src ofs ty ind z => Sys2Proof.Machine.execVst c src ofs ty ind z s
  | .vlds c d sz ofs ind z => Sys2Proof.Machine.execVlds c d sz ofs ind z s
  | .vsts c src sz ofs ind z => Sys2Proof.Machine.execVsts c src sz ofs ind z s
  | .vectorResultWriteback c => Sys2Proof.Machine.execVectorResultWriteback c s
  | .qsc c src kind fmt tsi z k => Sys2Proof.Machine.execQsc c src kind fmt tsi z k s
  | .qnt c d src fmt kind pur k blk sub z => Sys2Proof.Machine.execQnt c d src fmt kind pur k blk sub z s
  | .vpsc c a line ws z wf wid md li first k => Sys2Proof.Machine.execVpsc c a line ws z wf wid md li first k s
  | .vdq c d src fmt grp z k => Sys2Proof.Machine.execVdq c d src fmt grp z k s
  | .vqkt c d x tile sv ss fmt h first k => Sys2Proof.Machine.execVqkt c d x tile sv ss fmt h first k s
  | .vpvt c d x tile sv ss fmt h first k => Sys2Proof.Machine.execVpvt c d x tile sv ss fmt h first k s
  | .vctx c ks ps xs layer => Sys2Proof.Machine.execVctx c ks ps xs layer s
  | .end_ c => Sys2Proof.Machine.execEnd c s
  | .jmp c tgt => Sys2Proof.Machine.execJmp c tgt s
  | .loop_ c nM1 => Sys2Proof.Machine.execLoop c nM1 s
  | .elp c => Sys2Proof.Machine.execElp c s
  | .stld c idx mode j imm => Sys2Proof.Machine.execStld c idx mode j imm s
  | .xfer c d => Sys2Proof.Machine.execXfer c d s
  | .sig c d => Sys2Proof.Machine.execSig c d s
  | .sigl c obj inc => Sys2Proof.Machine.execSigl c obj inc s
  | .srst c obj => Sys2Proof.Machine.execSrst c obj s
  | .sli c z imm => Sys2Proof.Machine.execSli c z imm s
  | .slh c z imm => Sys2Proof.Machine.execSlh c z imm s
  | .sadd c z a imm => Sys2Proof.Machine.execSadd c z a imm s
  | .rowWrite c ofs data => Sys2Proof.Machine.execRowWrite c ofs data s
  | .rowReadback c ofs n => Sys2Proof.Machine.execRowReadback c ofs n s
  | .arrayClearDone a => Sys2Proof.Machine.execArrayClearDone a s
  | .ageUpdate c => Sys2Proof.Machine.execAgeUpdate c s
  | .calSlotStart c idx => Sys2Proof.Machine.execCalSlotStart c idx s
  | .calSlotEnd c idx => Sys2Proof.Machine.execCalSlotEnd c idx s
  | .precisionWindowEnd die => Sys2Proof.Machine.execPrecisionWindowEnd die s
  | .precisionFlagNotice die => Sys2Proof.Machine.execPrecisionFlagNotice die s
  | .precisionLeadEvaluate p => Sys2Proof.Machine.execPrecisionLeadEvaluate p s
  | .kvAppend c r => Sys2Proof.Machine.execKvAppend c r s
  | .kvStaging c r k => Sys2Proof.Machine.execKvStaging c r k s
  | .seatOpen p seat t => Sys2Proof.Machine.execSeatOpen p seat t s
  | .seatFree p seat t => Sys2Proof.Machine.execSeatFree p seat t s
  | .fork p src dst npos t => Sys2Proof.Machine.execFork p src dst npos t s
  | .spill p seat i0 n t => Sys2Proof.Machine.execSpill p seat i0 n t s
  | .recall p seat i0 n t => Sys2Proof.Machine.execRecall p seat i0 n t s
  | .kvCommandEffect p => Sys2Proof.Machine.execKvCommandEffect p s
  | .kvCopyDone idx e => Sys2Proof.Machine.execKvCopyDone idx e s
  | .passNotice c r k seat => Sys2Proof.Machine.execPassNotice c r k seat s
  | .rwQueueRequest port a w n => Sys2Proof.Machine.execRwQueueRequest port a w n s
  | .rwAccess b => Sys2Proof.Machine.execRwAccess b s
  | .eccWriteback b => Sys2Proof.Machine.execEccWriteback b s
  | .scrubLine b flip => Sys2Proof.Machine.execScrubLine b flip s
  | .cacheInvalidateAll c => Sys2Proof.Machine.execCacheInvalidateAll c s
  | .stackLineRequest c ch => Sys2Proof.Machine.execStackLineRequest c ch s
  | .stackReadReturn idx e => Sys2Proof.Machine.execStackReadReturn idx e s
  | .stackWrite die side => Sys2Proof.Machine.execStackWrite die side s
  | .transferLaunch c ch => Sys2Proof.Machine.execTransferLaunch c ch s
  | .transferSourceRead c ch => Sys2Proof.Machine.execTransferSourceRead c ch s
  | .transferArrival id => Sys2Proof.Machine.execTransferArrival id s
  | .transferLineLand id => Sys2Proof.Machine.execTransferLineLand id s
  | .transferCompletion id => Sys2Proof.Machine.execTransferCompletion id s
  | .windowCommand die at_ => Sys2Proof.Machine.execWindowCommand die at_ s
  | .windowCommandEffect die => Sys2Proof.Machine.execWindowCommandEffect die s
  | .tenantClear p => Sys2Proof.Machine.execTenantClear p s
  | .stackClearDone d => Sys2Proof.Machine.execStackClearDone d s
  | .fenceDrainEnd u => Sys2Proof.Machine.execFenceDrainEnd u s
  | .unitPowerOff u => Sys2Proof.Machine.execUnitPowerOff u s
  | .groupZeroDone d sd g => Sys2Proof.Machine.execGroupZeroDone d sd g s
  | .dynamicFlitHop idx ok => Sys2Proof.Machine.execDynamicFlitHop idx ok s
  | .staticLaneError c port lane => Sys2Proof.Machine.execStaticLaneError c port lane s
  | .signalMessage idx => Sys2Proof.Machine.execSignalMessage idx s
  | .hsigWrite c obj inc rst => Sys2Proof.Machine.execHsigWrite c obj inc rst s
  | .cinchRequest t => Sys2Proof.Machine.execCinchRequest t s
  | .cinchBroadcast d => Sys2Proof.Machine.execCinchBroadcast d s
  | .cinchCopy d => Sys2Proof.Machine.execCinchCopy d s
  | .cinchReport d => Sys2Proof.Machine.execCinchReport d s
  | .partitionWrite p m => Sys2Proof.Machine.execPartitionWrite p m s
  | .harnessLoadGo p => Sys2Proof.Machine.execHarnessLoadGo p s
  | .harnessLoadDone p => Sys2Proof.Machine.execHarnessLoadDone p s
  | .keyRecord slot x y signer sig => Sys2Proof.Machine.execKeyRecord slot x y signer sig s
  | .swapRequest p t => Sys2Proof.Machine.execSwapRequest p t s
  | .pauseStart p => Sys2Proof.Machine.execPauseStart p s
  | .swapCommit p => Sys2Proof.Machine.execSwapCommit p s
  | .swapActivation p => Sys2Proof.Machine.execSwapActivation p s
  | .hrnLaunch p t => Sys2Proof.Machine.execHrnLaunch p t s
  | .actArrayWriteDone idx => Sys2Proof.Machine.execActArrayWriteDone idx s
  | .subqTailWrite p v => Sys2Proof.Machine.execSubqTailWrite p v s
  | .descriptorRead p raw => Sys2Proof.Machine.execDescriptorRead p raw s
  | .promptCopyDone p status ids => Sys2Proof.Machine.execPromptCopyDone p status ids s
  | .seatAdmission p => Sys2Proof.Machine.execSeatAdmission p s
  | .prefillBooking p => Sys2Proof.Machine.execPrefillBooking p s
  | .passStart id => Sys2Proof.Machine.execPassStart id s
  | .streamAdmission p => Sys2Proof.Machine.execStreamAdmission p s
  | .prefillPromotion p x => Sys2Proof.Machine.execPrefillPromotion p x s
  | .samplerSample id cands => Sys2Proof.Machine.execSamplerSample id cands s
  | .passEmit p => Sys2Proof.Machine.execPassEmit p s
  | .passComplete p => Sys2Proof.Machine.execPassComplete p s
  | .latencyGoalInterval p => Sys2Proof.Machine.execLatencyGoalInterval p s
  | .cancel p x => Sys2Proof.Machine.execCancel p x s
  | .release p x => Sys2Proof.Machine.execRelease p x s
  | .ringRecordWrite p r => Sys2Proof.Machine.execRingRecordWrite p r s
  | .ringConsWrite p r v => Sys2Proof.Machine.execRingConsWrite p r v s
  | .ringMsix p r => Sys2Proof.Machine.execRingMsix p r s
  | .shardFetch d q => Sys2Proof.Machine.execShardFetch d q s
  | .shardVerify d => Sys2Proof.Machine.execShardVerify d s
  | .shardAbort d => Sys2Proof.Machine.execShardAbort d s
  | .rdmaReadResponse d data => Sys2Proof.Machine.execRdmaReadResponse d data s
  | .shardHashDone d => Sys2Proof.Machine.execShardHashDone d s
  | .qpError q synd => Sys2Proof.Machine.execQpError q synd s
  | .reloadLineLand id => Sys2Proof.Machine.execReloadLineLand id s
  | .digestSlotStart c idx => Sys2Proof.Machine.execDigestSlotStart c idx s
  | .digestReadbackDone c => Sys2Proof.Machine.execDigestReadbackDone c s
  | .digestStackHashDone c => Sys2Proof.Machine.execDigestStackHashDone c s
  | .shardSweep d => Sys2Proof.Machine.execShardSweep d s
  | .chkRegisterWrite c ch run v => Sys2Proof.Machine.execChkRegisterWrite c ch run v s
  | .torusIdWrite v => Sys2Proof.Machine.execTorusIdWrite v s
  | .linkTrain p => Sys2Proof.Machine.execLinkTrain p s
  | .linkTrainingDone p locked => Sys2Proof.Machine.execLinkTrainingDone p locked s
  | .linkFrameCheckFail p => Sys2Proof.Machine.execLinkFrameCheckFail p s
  | .writeFrame p f => Sys2Proof.Machine.execWriteFrame p f s
  | .complFrame p f => Sys2Proof.Machine.execComplFrame p f s
  | .signalFrame p f => Sys2Proof.Machine.execSignalFrame p f s
  | .tsyncReq p f t2 t3 => Sys2Proof.Machine.execTsyncReq p f t2 t3 s
  | .tsyncResp p f t4 => Sys2Proof.Machine.execTsyncResp p f t4 s
  | .tsyncStep p f => Sys2Proof.Machine.execTsyncStep p f s
  | .lctlAck p f => Sys2Proof.Machine.execLctlAck p f s
  | .lctlNak p f => Sys2Proof.Machine.execLctlNak p f s
  | .lctlIdent p f => Sys2Proof.Machine.execLctlIdent p f s
  | .lctlSend p => Sys2Proof.Machine.execLctlSend p s
  | .frameForward from_ => Sys2Proof.Machine.execFrameForward from_ s
  | .laneLockLost p => Sys2Proof.Machine.execLaneLockLost p s
  | .timeExchange t1 => Sys2Proof.Machine.execTimeExchange t1 s
  | .attachmentSwitch p => Sys2Proof.Machine.execAttachmentSwitch p s
  | .bar0Access ofs w n => Sys2Proof.Machine.execBar0Access ofs w n s
  | .bar2Access ofs w n e => Sys2Proof.Machine.execBar2Access ofs w n e s
  | .qpEnableWrite q en => Sys2Proof.Machine.execQpEnableWrite q en s
  | .rdmaWriteRequest q psn rkey va data ecn => Sys2Proof.Machine.execRdmaWriteRequest q psn rkey va data ecn s
  | .rdmaReadRequest q psn rkey va n ecn e => Sys2Proof.Machine.execRdmaReadRequest q psn rkey va n ecn e s
  | .rdmaInvalidRequest q => Sys2Proof.Machine.execRdmaInvalidRequest q s
  | .cnpReceive q => Sys2Proof.Machine.execCnpReceive q s
  | .tokenDatagramSend p r => Sys2Proof.Machine.execTokenDatagramSend p r s
  | .mgmtRead32 src tag ofs => Sys2Proof.Machine.execMgmtRead32 src tag ofs s
  | .mgmtWrite32 src tag ofs v => Sys2Proof.Machine.execMgmtWrite32 src tag ofs v s
  | .mgmtRead64 src tag ofs => Sys2Proof.Machine.execMgmtRead64 src tag ofs s
  | .mgmtWrite64 src tag ofs v => Sys2Proof.Machine.execMgmtWrite64 src tag ofs v s
  | .mgmtConsoleBytes src tag bs => Sys2Proof.Machine.execMgmtConsoleBytes src tag bs s
  | .mgmtBadOp src op tag => Sys2Proof.Machine.execMgmtBadOp src op tag s
  | .jtagSamplePreload pins preload => Sys2Proof.Machine.execJtagSamplePreload pins preload s
  | .jtagExtest pins => Sys2Proof.Machine.execJtagExtest pins s
  | .jtagKeyProgram slot x y => Sys2Proof.Machine.execJtagKeyProgram slot x y s
  | .consoleRegisterRead ofs wide => Sys2Proof.Machine.execConsoleRegisterRead ofs wide s
  | .consoleRegisterWrite ofs wide v => Sys2Proof.Machine.execConsoleRegisterWrite ofs wide v s
  | .consoleKindlingCommand k => Sys2Proof.Machine.execConsoleKindlingCommand k s
  | .busLow v => Sys2Proof.Machine.execBusLow v s
  | .busEmberRange v => Sys2Proof.Machine.execBusEmberRange v s
  | .busUndervoltage v holdup => Sys2Proof.Machine.execBusUndervoltage v holdup s
  | .busHigh v => Sys2Proof.Machine.execBusHigh v s
  | .busOvervoltage v holdup => Sys2Proof.Machine.execBusOvervoltage v holdup s
  | .busRestored v => Sys2Proof.Machine.execBusRestored v s
  | .busPowerOn v ident lock sockets => Sys2Proof.Machine.execBusPowerOn v ident lock sockets s
  | .billetReport b iout iin tbp => Sys2Proof.Machine.execBilletReport b iout iin tbp s
  | .billetTrip b cause => Sys2Proof.Machine.execBilletTrip b cause s
  | .billetWithdrawn b => Sys2Proof.Machine.execBilletWithdrawn b s
  | .regionCurrentReport d idx cur droop => Sys2Proof.Machine.execRegionCurrentReport d idx cur droop s
  | .phaseFailure c idx => Sys2Proof.Machine.execPhaseFailure c idx s
  | .regionOn c t => Sys2Proof.Machine.execRegionOn c t s
  | .regionOff c t => Sys2Proof.Machine.execRegionOff c t s
  | .regionPrepEnd c failing => Sys2Proof.Machine.execRegionPrepEnd c failing s
  | .regionHeaderStage c => Sys2Proof.Machine.execRegionHeaderStage c s
  | .regionWaitRecheck c => Sys2Proof.Machine.execRegionWaitRecheck c s
  | .regionSlowLadder c => Sys2Proof.Machine.execRegionSlowLadder c s
  | .regionClearingEnd c => Sys2Proof.Machine.execRegionClearingEnd c s
  | .regionPowerDown c => Sys2Proof.Machine.execRegionPowerDown c s
  | .regionHeaderOpen c => Sys2Proof.Machine.execRegionHeaderOpen c s
  | .regionShort c => Sys2Proof.Machine.execRegionShort c s
  | .governorInputCheck peak => Sys2Proof.Machine.execGovernorInputCheck peak s
  | .conversionSlot d k code temp => Sys2Proof.Machine.execConversionSlot d k code temp s
  | .telemetryFrameEnd d r0 r1 => Sys2Proof.Machine.execTelemetryFrameEnd d r0 r1 s
  | .channelTrigger d ch => Sys2Proof.Machine.execChannelTrigger d ch s
  | .urgentConversion d k code => Sys2Proof.Machine.execUrgentConversion d k code s
  | .tlmUrgWrite d ch => Sys2Proof.Machine.execTlmUrgWrite d ch s
  | .accClear d k => Sys2Proof.Machine.execAccClear d k s
  | .queueRead d => Sys2Proof.Machine.execQueueRead d s
  | .mainRefEnable d en => Sys2Proof.Machine.execMainRefEnable d en s
  | .mainRefSettled d => Sys2Proof.Machine.execMainRefSettled d s
  | .fallbackSelect d v => Sys2Proof.Machine.execFallbackSelect d v s
  | .fallbackSettled d => Sys2Proof.Machine.execFallbackSettled d s
  | .thermalReport d holdup => Sys2Proof.Machine.execThermalReport d holdup s
  | .nirdoSample v idx temps => Sys2Proof.Machine.execNirdoSample v idx temps s
  | .flowPulse ns => Sys2Proof.Machine.execFlowPulse ns s
  | .kindleStageK0 us supply coolant mute railBad => Sys2Proof.Machine.execKindleStageK0 us supply coolant mute railBad s
  | .kindleStageK1 us ref unlocked => Sys2Proof.Machine.execKindleStageK1 us ref unlocked s
  | .kindleStageK2 us failed mainOk => Sys2Proof.Machine.execKindleStageK2 us failed mainOk s
  | .kindleStageK3 us tests => Sys2Proof.Machine.execKindleStageK3 us tests s
  | .kindleStageK4 us t => Sys2Proof.Machine.execKindleStageK4 us t s
  | .kindleStageK5 us => Sys2Proof.Machine.execKindleStageK5 us s
  | .kindleStageK6 us r => Sys2Proof.Machine.execKindleStageK6 us r s
  | .kindleStageK7 us => Sys2Proof.Machine.execKindleStageK7 us s
  | .stageTimeLimit unfinished => Sys2Proof.Machine.execStageTimeLimit unfinished s
  | .routeTableRewrite die => Sys2Proof.Machine.execRouteTableRewrite die s
  | .eventConsWrite v => Sys2Proof.Machine.execEventConsWrite v s
  | .stewardPollTimeout d => Sys2Proof.Machine.execStewardPollTimeout d s
  | .dieDark d => Sys2Proof.Machine.execDieDark d s
  | .graceExpiry p => Sys2Proof.Machine.execGraceExpiry p s
  | .servingResume p => Sys2Proof.Machine.execServingResume p s
  | .emberEnter scope => Sys2Proof.Machine.execEmberEnter scope s
  | .emberExit scope => Sys2Proof.Machine.execEmberExit scope s
  | .emberGate scope => Sys2Proof.Machine.execEmberGate scope s
  | .pcieConfigWrite ofs v => Sys2Proof.Machine.execPcieConfigWrite ofs v s
  | .billetInserted b mem => Sys2Proof.Machine.execBilletInserted b mem s
  | .badtypeFrame p f => Sys2Proof.Machine.execBadtypeFrame p f s
  | .pfcFrame n prio quanta => Sys2Proof.Machine.execPfcFrame n prio quanta s
  | .qpRetryTimeout q => Sys2Proof.Machine.execQpRetryTimeout q s
  | .stitchBoundary => Sys2Proof.Machine.execStitchBoundary s
  | .stitchLoRead => Sys2Proof.Machine.execStitchLoRead s
  | .stepCommit => Sys2Proof.Machine.execStepCommit s
  | .clockStepEffect => Sys2Proof.Machine.execClockStepEffect s
  | .nop => Sys2Proof.Machine.execNop s
  | .creditWindowStart => Sys2Proof.Machine.execCreditWindowStart s
  | .ageSave => Sys2Proof.Machine.execAgeSave s
  | .functionLevelReset => Sys2Proof.Machine.execFunctionLevelReset s
  | .perstAssert => Sys2Proof.Machine.execPerstAssert s
  | .readVin => Sys2Proof.Machine.execReadVin s
  | .readIin => Sys2Proof.Machine.execReadIin s
  | .readPin => Sys2Proof.Machine.execReadPin s
  | .readTemperature1 => Sys2Proof.Machine.execReadTemperature1 s
  | .readTemperature2 => Sys2Proof.Machine.execReadTemperature2 s
  | .statusWord => Sys2Proof.Machine.execStatusWord s
  | .clearFaults => Sys2Proof.Machine.execClearFaults s
  | .pmbusRevision => Sys2Proof.Machine.execPmbusRevision s
  | .mfrId => Sys2Proof.Machine.execMfrId s
  | .mfrModel => Sys2Proof.Machine.execMfrModel s
  | .mfrSerial => Sys2Proof.Machine.execMfrSerial s
  | .smbusUnknownCommand => Sys2Proof.Machine.execSmbusUnknownCommand s
  | .jtagBypass => Sys2Proof.Machine.execJtagBypass s
  | .jtagIdcode => Sys2Proof.Machine.execJtagIdcode s
  | .busLowRepeat => Sys2Proof.Machine.execBusLowRepeat s
  | .billetWearUpdate => Sys2Proof.Machine.execBilletWearUpdate s
  | .billetWearSave => Sys2Proof.Machine.execBilletWearSave s
  | .governorRelease => Sys2Proof.Machine.execGovernorRelease s
  | .thermalRaiseRepeat => Sys2Proof.Machine.execThermalRaiseRepeat s
  | .thermalRelease => Sys2Proof.Machine.execThermalRelease s
  | .flowEvaluate => Sys2Proof.Machine.execFlowEvaluate s
  | .flowLoss => Sys2Proof.Machine.execFlowLoss s
  | .marginEstimate => Sys2Proof.Machine.execMarginEstimate s
  | .inletEvaluate => Sys2Proof.Machine.execInletEvaluate s
  | .kindleFull => Sys2Proof.Machine.execKindleFull s
  | .eventWrite => Sys2Proof.Machine.execEventWrite s
  | .perstDeassert => Sys2Proof.Machine.execPerstDeassert s

end Sys2Proof.Machine
end

