-- ==== Sys2Proof/Machine/Step.lean ====
section
/-!
DEFINITION. One step: the command at the front of the queue runs on the state with the rest of the queue; on an empty queue
one core cycle passes within the stitch.
-/

namespace Sys2Proof.Machine
open Sys2Proof

/-- The command at the front of the queue, or one core cycle; the stitch's boundary is the command STITCH_BOUNDARY (R30).  [DESIGN CHOICE, log 1] -/
def step (s : State) : Host.Outcome State Fault Refusal :=
  match s.pending with
  | [] => .next s.nextCycle
  | c :: rest => exec c { s with pending := rest }

/-- The state with the command that a table word spells put at the front of its queue. -/
def State.withFetchWord (s : State) (nbits w : Nat) : State :=
  match decodeTableWord nbits w with
  | some c => { s with pending := c :: s.pending }
  | none => s

end Sys2Proof.Machine
end

