-- ==== Sys2Proof/WellFormed.lean ====
section
/-!
DEFINITION. The commands whose operands a sender can form: lengths that a rule fixes, values that belong to another command.
-/

namespace Sys2Proof

/-- The payload of a link frame is whole 32 B units, at most 4,096 B (R413). -/
def frameData (f : Frame) : Bool := decide (f.data.length % 32 = 0 ∧ f.data.length ≤ 4096)

/-- The operands of a command fit together. -/
def Instr.wellFormed : Instr → Bool
  | .registerWrite _ _ w wide _ => !wide || decide (w.val % 2 = 0)
  | .rcCounterRead _ _ _ _ => true
  | .stewardCommand _ => true
  | .hostStitchRequest _ _ _ => true
  | .clockStepRequest _ => true
  | .clockStepAnnounce _ => true
  | .standbyPllLockLoss _ => true
  | .pllRelock _ => true
  | .ceilStepWrite _ => true
  | .setExchange _ => true
  | .bundleIssue _ => true
  | .stitchLaunch _ => true
  | .syncLaunch _ => true
  | .syncTimeout _ => true
  | .partitionHalt _ => true
  | .scheduleFaultEvent _ => true
  | .taskLaunch _ => true
  | .creditCapChange _ => true
  | .capEnforceStart _ => true
  | .amv _ _ _ _ => true
  | .amvw _ _ _ _ => true
  | .arrayOpComplete _ => true
  | .resultLineWrite _ => true
  | .ldl _ _ _ _ => true
  | .latchLanding _ => true
  | .xset _ _ => true
  | .vadd _ _ => true
  | .vsub _ _ => true
  | .vmul _ _ => true
  | .vfma _ _ => true
  | .vmax _ _ => true
  | .vmin _ _ => true
  | .vcmp _ _ => true
  | .vsel _ _ => true
  | .vmov _ _ => true
  | .vmovs _ _ => true
  | .vcvt _ _ => true
  | .vswp _ _ => true
  | .vrsum _ _ => true
  | .vrmax _ _ => true
  | .vexp _ _ => true
  | .vrcp _ _ => true
  | .vrsq _ _ => true
  | .vsmx _ _ _ _ _ _ => true
  | .vld _ _ _ _ _ _ => true
  | .vst _ _ _ _ _ _ => true
  | .vlds _ _ _ _ _ _ => true
  | .vsts _ _ _ _ _ _ => true
  | .vectorResultWriteback _ => true
  | .qsc _ _ _ _ _ _ _ => true
  | .qnt _ _ _ _ _ _ _ _ _ _ => true
  | .vpsc _ _ _ _ _ _ _ _ _ _ _ => true
  | .vdq _ _ _ _ _ _ _ => true
  | .vqkt _ _ _ _ _ _ _ _ _ _ => true
  | .vpvt _ _ _ _ _ _ _ _ _ _ => true
  | .vctx _ _ _ _ _ => true
  | .end_ _ => true
  | .jmp _ _ => true
  | .loop_ _ _ => true
  | .elp _ => true
  | .stld _ _ _ _ _ => true
  | .xfer _ _ => true
  | .sig _ _ => true
  | .sigl _ _ _ => true
  | .srst _ _ => true
  | .sli _ _ _ => true
  | .slh _ _ _ => true
  | .sadd _ _ _ _ => true
  | .rowWrite _ _ data => decide (0 < data.length ∧ data.length % 32 = 0)
  | .rowReadback _ _ n => decide (0 < n ∧ n % 32 = 0)
  | .arrayClearDone _ => true
  | .ageUpdate _ => true
  | .calSlotStart _ _ => true
  | .calSlotEnd _ _ => true
  | .precisionWindowEnd _ => true
  | .precisionFlagNotice _ => true
  | .precisionLeadEvaluate _ => true
  | .kvAppend _ _ => true
  | .kvStaging _ _ _ => true
  | .seatOpen _ _ _ => true
  | .seatFree _ _ _ => true
  | .fork _ _ _ _ _ => true
  | .spill _ _ _ _ _ => true
  | .recall _ _ _ _ _ => true
  | .kvCommandEffect _ => true
  | .kvCopyDone _ _ => true
  | .passNotice _ _ _ _ => true
  | .rwQueueRequest _ a w n =>
    match w with
    | some bs => decide (0 < bs.length ∧ a.toNat % 256 + bs.length ≤ 256)
    | none => decide (0 < n ∧ a.toNat % 256 + n ≤ 256)
  | .rwAccess _ => true
  | .eccWriteback _ => true
  | .scrubLine _ _ => true
  | .cacheInvalidateAll _ => true
  | .stackLineRequest _ _ => true
  | .stackReadReturn _ _ => true
  | .stackWrite _ _ => true
  | .transferLaunch _ _ => true
  | .transferSourceRead _ _ => true
  | .transferArrival _ => true
  | .transferLineLand _ => true
  | .transferCompletion _ => true
  | .windowCommand _ _ => true
  | .windowCommandEffect _ => true
  | .tenantClear _ => true
  | .stackClearDone _ => true
  | .fenceDrainEnd _ => true
  | .unitPowerOff _ => true
  | .groupZeroDone _ _ _ => true
  | .dynamicFlitHop _ _ => true
  | .staticLaneError _ _ _ => true
  | .signalMessage _ => true
  | .hsigWrite _ _ _ _ => true
  | .cinchRequest _ => true
  | .cinchBroadcast _ => true
  | .cinchCopy _ => true
  | .cinchReport _ => true
  | .partitionWrite _ _ => true
  | .harnessLoadGo _ => true
  | .harnessLoadDone _ => true
  | .keyRecord _ _ _ _ sg => decide (sg.length = 96)
  | .swapRequest _ _ => true
  | .pauseStart _ => true
  | .swapCommit _ => true
  | .swapActivation _ => true
  | .hrnLaunch _ _ => true
  | .actArrayWriteDone _ => true
  | .subqTailWrite _ _ => true
  | .descriptorRead _ raw => decide (raw.length = 0 ∨ raw.length = 512)
  | .promptCopyDone _ _ _ => true
  | .seatAdmission _ => true
  | .prefillBooking _ => true
  | .passStart _ => true
  | .streamAdmission _ => true
  | .prefillPromotion _ _ => true
  | .samplerSample _ cands => decide (cands.length = 512)
  | .passEmit _ => true
  | .passComplete _ => true
  | .latencyGoalInterval _ => true
  | .cancel _ _ => true
  | .release _ _ => true
  | .ringRecordWrite _ _ => true
  | .ringConsWrite _ _ _ => true
  | .ringMsix _ _ => true
  | .shardFetch _ _ => true
  | .shardVerify _ => true
  | .shardAbort _ => true
  | .rdmaReadResponse _ _ => true
  | .shardHashDone _ => true
  | .qpError _ _ => true
  | .reloadLineLand _ => true
  | .digestSlotStart _ _ => true
  | .digestReadbackDone _ => true
  | .digestStackHashDone _ => true
  | .shardSweep _ => true
  | .chkRegisterWrite _ _ _ _ => true
  | .torusIdWrite _ => true
  | .linkTrain _ => true
  | .linkTrainingDone _ _ => true
  | .linkFrameCheckFail _ => true
  | .writeFrame _ f => frameData f
  | .complFrame _ f => frameData f
  | .signalFrame _ f => frameData f
  | .tsyncReq _ f _ _ => frameData f
  | .tsyncResp _ f _ => frameData f
  | .tsyncStep _ f => frameData f
  | .lctlAck _ f => frameData f
  | .lctlNak _ f => frameData f
  | .lctlIdent _ f => frameData f
  | .lctlSend _ => true
  | .frameForward src =>
    match src with
    | some (_, f) => frameData f
    | none => true
  | .laneLockLost _ => true
  | .timeExchange _ => true
  | .attachmentSwitch _ => true
  | .bar0Access _ _ _ => true
  | .bar2Access _ w n _ =>
    match w with
    | some bs => decide (0 < bs.length)
    | none => decide (0 < n)
  | .qpEnableWrite _ _ => true
  | .rdmaWriteRequest _ _ _ _ _ _ => true
  | .rdmaReadRequest _ _ _ _ _ _ _ => true
  | .rdmaInvalidRequest _ => true
  | .cnpReceive _ => true
  | .tokenDatagramSend _ _ => true
  | .mgmtRead32 _ _ _ => true
  | .mgmtWrite32 _ _ _ _ => true
  | .mgmtRead64 _ _ _ => true
  | .mgmtWrite64 _ _ _ _ => true
  | .mgmtConsoleBytes _ _ bs => decide (bs.length ≤ 256)
  | .mgmtBadOp _ op _ => decide (op.toNat = 0 ∨ 5 < op.toNat)
  | .jtagSamplePreload _ _ => true
  | .jtagExtest _ => true
  | .jtagKeyProgram _ _ _ => true
  | .consoleRegisterRead _ _ => true
  | .consoleRegisterWrite _ _ _ => true
  | .consoleKindlingCommand _ => true
  | .busLow _ => true
  | .busEmberRange _ => true
  | .busUndervoltage _ _ => true
  | .busHigh _ => true
  | .busOvervoltage _ _ => true
  | .busRestored _ => true
  | .busPowerOn _ ident _ _ => decide (ident.length = 4096)
  | .billetReport _ _ _ _ => true
  | .billetTrip _ _ => true
  | .billetWithdrawn _ => true
  | .regionCurrentReport _ i _ droop => decide (droop.length = (if i.isSome then 8 else 0))
  | .phaseFailure _ _ => true
  | .regionOn _ _ => true
  | .regionOff _ _ => true
  | .regionPrepEnd _ _ => true
  | .regionHeaderStage _ => true
  | .regionWaitRecheck _ => true
  | .regionSlowLadder _ => true
  | .regionClearingEnd _ => true
  | .regionPowerDown _ => true
  | .regionHeaderOpen _ => true
  | .regionShort _ => true
  | .governorInputCheck _ => true
  | .conversionSlot _ _ _ _ => true
  | .telemetryFrameEnd _ _ _ => true
  | .channelTrigger _ _ => true
  | .urgentConversion _ _ _ => true
  | .tlmUrgWrite _ _ => true
  | .accClear _ _ => true
  | .queueRead _ => true
  | .mainRefEnable _ _ => true
  | .mainRefSettled _ => true
  | .fallbackSelect _ _ => true
  | .fallbackSettled _ => true
  | .thermalReport _ _ => true
  | .nirdoSample _ _ _ => true
  | .flowPulse _ => true
  | .kindleStageK0 _ _ _ _ _ => true
  | .kindleStageK1 _ _ _ => true
  | .kindleStageK2 _ _ _ => true
  | .kindleStageK3 _ _ => true
  | .kindleStageK4 _ _ => true
  | .kindleStageK5 _ => true
  | .kindleStageK6 _ _ => true
  | .kindleStageK7 _ => true
  | .stageTimeLimit _ => true
  | .routeTableRewrite _ => true
  | .eventConsWrite _ => true
  | .stewardPollTimeout _ => true
  | .dieDark _ => true
  | .graceExpiry _ => true
  | .servingResume _ => true
  | .emberEnter _ => true
  | .emberExit _ => true
  | .emberGate _ => true
  | .pcieConfigWrite _ _ => true
  | .billetInserted _ _ => true
  | .badtypeFrame _ f => frameData f
  | .pfcFrame _ _ _ => true
  | .qpRetryTimeout _ => true
  | .stitchBoundary => true
  | .stitchLoRead => true
  | .stepCommit => true
  | .clockStepEffect => true
  | .nop => true
  | .creditWindowStart => true
  | .ageSave => true
  | .functionLevelReset => true
  | .perstAssert => true
  | .readVin => true
  | .readIin => true
  | .readPin => true
  | .readTemperature1 => true
  | .readTemperature2 => true
  | .statusWord => true
  | .clearFaults => true
  | .pmbusRevision => true
  | .mfrId => true
  | .mfrModel => true
  | .mfrSerial => true
  | .smbusUnknownCommand => true
  | .jtagBypass => true
  | .jtagIdcode => true
  | .busLowRepeat => true
  | .billetWearUpdate => true
  | .billetWearSave => true
  | .governorRelease => true
  | .thermalRaiseRepeat => true
  | .thermalRelease => true
  | .flowEvaluate => true
  | .flowLoss => true
  | .marginEstimate => true
  | .inletEvaluate => true
  | .kindleFull => true
  | .eventWrite => true
  | .perstDeassert => true

end Sys2Proof
end

