-- ==== Sys2Proof/Safety.lean ====
section
/-!
DEFINITION. What the statements mean by a sound state, a command that leaves time and memory alone, and a command that changes only
some fields of the register file.
-/

namespace Sys2Proof
open Sys2Proof.Machine

/-- The state's canonical forms: byte memory sorted with no blank byte, and the core cycle within its stitch (R29).  [DESIGN CHOICE, log 2] -/
def Sound (s : State) : Prop := Memory.wf s.mem = true ∧ s.cc < 16

/-- Time, memory, the waiting commands and the units' own state are as before. -/
def Quiet (s t : State) : Prop :=
  t.mem = s.mem ∧ t.stitch = s.stitch ∧ t.cc = s.cc ∧ t.pending = s.pending ∧ t.cores = s.cores ∧ t.engines = s.engines

/-- Every field outside a list of field instances reads as before. -/
def FieldsBut (l : List (Fld × Ix)) (s t : State) : Prop :=
  ∀ g ix, (∀ p ∈ l, fkey p.1 p.2 ≠ fkey g ix) → t.get g ix = s.get g ix

/-- Every field of every register outside a list of registers reads as before. -/
def RegsBut (l : List Reg) (s t : State) : Prop := ∀ (g : Fld) (ix : Ix), g.reg ∉ l → t.get g ix = s.get g ix

/-- Time, memory and the waiting commands are as before. -/
def Still (s t : State) : Prop := t.mem = s.mem ∧ t.stitch = s.stitch ∧ t.cc = s.cc ∧ t.pending = s.pending

/-- Memory reads as before outside [a, a + n), and holds bs inside. -/
def StoresAt (s t : State) (a : Nat) (bs : List Byte) : Prop :=
  Memory.readN t.mem a bs.length = bs ∧ ∀ x, (x < a ∨ a + bs.length ≤ x) → Memory.read t.mem x = Memory.read s.mem x

/-- Every other core is as before. -/
def CoresBut (c : CoreId) (s t : State) : Prop := ∀ d, d ≠ c → t.core d = s.core d

/-- Core c can issue on slot A, slot V (class X or not) or slot T in this cycle (R197, R205). -/
def canA (s : State) (c : CoreId) : Prop := s.issuing c = true ∧ (s.core c).nextA ≤ s.now
def canV (s : State) (c : CoreId) (x : Bool) : Prop :=
  s.issuing c = true ∧ (s.core c).nextV ≤ s.now ∧ (x = true → (s.core c).nextX ≤ s.now)
def canT (s : State) (c : CoreId) : Prop := s.issuing c = true ∧ (s.core c).nextT ≤ s.now

/-- No result of core c falls due at now + lat at register n, as WRITE_CONFLICT numbers registers (R199). -/
def freeAt (s : State) (c : CoreId) (lat n : Nat) : Prop :=
  ∀ o ∈ (s.core c).results, o.due = s.now + lat → destNum o.dest ≠ some n

/-- Results with the flags they raise. -/
def withFlags (ds : List ResultDest) (b : Nat) : List ResultDest := ds ++ if b = 0 then [] else [.flags b]

/-- Core c after a slot-V instruction posts results that fall due `lat` cycles later. -/
def postedV (s : State) (c : CoreId) (lat : Nat) (x : Bool) (ds : List ResultDest) : Core :=
  { s.core c with results := (s.core c).results ++ ds.map fun d => { due := s.now + lat, dest := d }
                  nextV := s.now + 1, nextX := if x then s.now + 2 else (s.core c).nextX }

/-- Core c after a slot-T instruction posts results that fall due in the next cycle. -/
def postedT (s : State) (c : CoreId) (ds : List ResultDest) : Core :=
  { s.core c with results := (s.core c).results ++ ds.map fun d => { due := s.now + 1, dest := d }, nextT := s.now + 1 }

/-- R209 of 32 result lanes: which of them raise NAN, OVF, DZ and ISAT. -/
def flagsAre (b : Nat) (nan ovf dz isat : Nat → Prop) : Prop :=
  b < 16 ∧ (b.testBit 0 = true ↔ ∃ k < 32, nan k) ∧ (b.testBit 1 = true ↔ ∃ k < 32, ovf k) ∧ (b.testBit 2 = true ↔ ∃ k < 32, dz k) ∧
    (b.testBit 3 = true ↔ ∃ k < 32, isat k)

/-- The checks of Table 06.4 pass for an operation of mode m on a group, its lines from physical offset `base`. -/
def arrayReady (m : ConvMode) (s : State) (c : CoreId) (grp lat dst base : Nat) : Prop :=
  let l := Map.getD (s.core c).latches lat {}
  let act := QFmt.ofCode l.fmt
  let arrs := s.groupArrays c grp
  let gl := groupLines s act m arrs 0
  canA s c ∧ (∀ a ∈ arrs, (s.engine a).reload = 0) ∧ (s.core c).latchLoading lat s.now = false ∧
  s.located c 0 (dst * 256) (groupTotal gl * 256) = .ok base ∧ s.creditFault c arrs.length (opInterval act m / 16) = none ∧
  (∀ a ∈ arrs, s.busyReason m a = 0) ∧
  (s.core c).resultFull s.now ((gl.map (arrayOpOf s l m base (s.core c).lineSeq)).flatMap fun o => o.lines) = false ∧
  s.calOverlap c arrs (opInterval act m) = none ∧
  (∀ a ∈ arrs, s.bit F.coreCalrecStat.valid a.ix = true ∨ s.bit F.arrCfg.enable a.ix = false) ∧
  (s.bit F.coreSeqTask.anchor c.ix = true ∨ s.calReserved c arrs = false)

/-- A read of the stacks at address a, of ECC outcome e, is counted in its controller and in no other field. -/
def EccCounted (a : Nat) (e : ReadEcc) (s t : State) : Prop :=
  let ix := Ix.stw (addrDie a) (sideOf (addrOfs a))
  t.get F.stkEcc.retry ix = (if e = .clean then s.get F.stkEcc.retry ix else min (s.get F.stkEcc.retry ix + 1) 0xFFFF) ∧
  t.get F.stkEcc.ue ix = (if e = .failed then min (s.get F.stkEcc.ue ix + 1) 0xFFFF else s.get F.stkEcc.ue ix) ∧
  FieldsBut [(F.stkEcc.retry, ix), (F.stkEcc.ue, ix)] s t

/-- No step of the first n stops. -/
def runsOn : Nat → State → Prop
  | 0, _ => True
  | n + 1, s => ∃ t, step s = .next t ∧ runsOn n t

end Sys2Proof
end

