-- ==== Sys2Proof/Certificates/Slice0/Obligations.lean ====
section
/-!
DEFINITION. The statements for the provers.  Where a docstring names a rule, the statement says what that rule says; where it names an
entry of notes/assumptions, that part is the model's choice.
-/

open Sys2Proof Sys2Proof.Machine

/-! ## The queue, reset and the invariant -/

/-- The command at the front of the queue runs on the state with the rest of the queue, and answers a next state; an empty queue lets
one core cycle pass within the stitch (the model's choice, entry 1): updates of sync objects of earlier cycles stand, and the
registers as the cycle finds them are kept beside them; with no core, no access at a weight-plane port and no update waiting nothing
else changes. -/
def Obligations.StepRunsFront : Prop :=
  (∀ (c : Instr) (rest : List Instr) (s : State), step { s with pending := c :: rest } = exec c { s with pending := rest }) ∧
  (∀ (c : Instr) (s : State), ∃ t, exec c s = .next t) ∧
  (∀ s : State, s.pending = [] → step s = .next s.nextCycle) ∧
  (∀ s : State, s.pending = [] → 15 ≤ s.cc → step s = .next s) ∧
  (∀ s : State, s.pending = [] → s.cc < 15 → ∃ t, step s = .next t ∧ t.cc = s.cc + 1 ∧ t.stitch = s.stitch ∧ t.pending = [] ∧
    t.cycleRegs = some t.regs ∧ (∀ u ∈ t.syncQ, t.now ≤ u.due) ∧
    (s.cores = [] → s.planeQ = [] → s.syncQ = [] → t = { s with cc := s.cc + 1, cycleRegs := some s.regs }))

/-- The state after reset is sound; the bus is not yet up, no counter runs, and every register of the tables reads its reset value. -/
def Obligations.ResetState : Prop :=
  Sound State.reset ∧ State.reset.pending = [] ∧ State.reset.running = false ∧ State.reset.stitch = 0 ∧
  (∀ (f : Fld) (ix : Ix), State.reset.get f ix = resetOf f.reg f.lo ix) ∧
  (∀ a : Nat, Memory.read State.reset.mem a = 0#8) ∧
  State.reset.get F.nirPwrGov.plim Ix.mod = 15000

/-- Every step keeps the memory's canonical form and the core cycle within its stitch (the model's own invariant, entry 2). -/
def Obligations.StepKeepsSound : Prop :=
  ∀ s t : State, Sound s → step s = .next t → Sound t

/-- R30: while the counters run, every boundary advances the one stitch counter by one and begins cycle 0; before the end of K1 nothing
moves.  A core whose stop cycle has come stops in HALTED (R190); with nothing else due at the boundary nothing else changes.
Completes: STITCH_BOUNDARY. -/
def Obligations.StitchBoundaryAdvances : Prop :=
  ∀ s : State,
    (s.running = false → exec .stitchBoundary s = .next s) ∧
    (s.running = true → ∃ t, exec .stitchBoundary s = .next t ∧ t.stitch = (s.stitch + 1) % 2 ^ 64 ∧ t.cc = 0 ∧
      t.wall = s.wall + stitchWall s.curStep ∧
      (s.planeQ = [] → t.mem = s.mem ∧
        ∀ (c : CoreId) (n : Nat), (s.core c).stopAt = some n → n ≤ 16 * ((s.stitch + 1) % 2 ^ 64) →
          s.get F.coreSeqTask.state c.ix ∈ [qRun, qWaitStitch, qWaitSync, qDone] → t.get F.coreSeqTask.state c.ix = qHalted) ∧
      (s.planeQ = [] → s.syncQ = [] → s.breaks = [] → s.kdl.owed = [] → s.seqs = [] → s.sbufClear = [] → s.ctxs = [] → s.reqQ = [] →
        s.wts.jobs = [] → (∀ p ∈ s.cores, ∀ o ∈ p.2.ops, o.counted = true ∨ 16 * s.stitch + max s.cc 15 + 5 < o.doneAt) →
        t.cores = s.cores ∧ t.engines = s.engines ∧ t.events = s.events ∧
        FieldsBut (s.cores.map fun p => (F.coreSeqTask.state, p.1.ix)) s t))

/-! ## Time and clock steps (chapter 01) -/

/-- R33: a read of STITCH_LO latches the high half of the same count, and a read of STITCH_HI alone returns the value last latched.
R44: a loss of lock clears STANDBY_LOCKED; reported at or before the commit stitch it withdraws the announced step, and the standby PLLs
are set for the step then asked for; after it the step stands.  R42: STANDBY_LOCKED is set once every lit die's standby PLL is locked.
R43, R45: a written CEIL_STEP is stored as at most 5, and a source's request is recorded; neither changes the step in force or
an announced step.
R45: before the end of K4 no step is announced.
R40, R42, R425: a step is announced for a stitch at least 64 st ahead (4,096 st by the time root under lockstep), one step from the
one in force; without a request that the standby PLLs and rails are ready for, nothing is announced.
R42-R44: from stitch S − 40 on the announced step is committed; at S it takes effect, is counted, and a lit die whose standby PLL
is not locked is marked lost to its PLL.
Completes, besides reads: STANDBY_PLL_LOCK_LOSS, PLL_RELOCK, CEIL_STEP_WRITE, CLOCK_STEP_REQUEST, CLOCK_STEP_ANNOUNCE, STEP_COMMIT,
CLOCK_STEP_EFFECT and STITCH_LO_READ. -/
def Obligations.ClockSteps : Prop :=
  ((∀ s : State, s.stitch < 2 ^ 64 →
       (∃ t, exec .stitchLoRead s = .next t ∧ t.out = s.out ++ [.answer (s.stitch % 2 ^ 32) true] ∧
         (readReg .nirTimeStitchHi Ix.mod 0 32 t).1 = s.stitch / 2 ^ 32 ∧ FieldsBut [(F.nirTimeStitchHi.count_hi, Ix.mod)] s t ∧ Quiet s t) ∧
       readReg .nirTimeStitchHi Ix.mod 0 32 s = (s.get F.nirTimeStitchHi.count_hi Ix.mod % 2 ^ 32, s)) ∧
    (∀ (s : State) (d : DieIx),
       (s.bit F.nirTimeStep.pending Ix.mod = true → s.stitch + 40 ≤ s.stepAt →
         ∃ t, exec (.standbyPllLockLoss d) s = .next t ∧ t.bit F.nirTimeStep.pending Ix.mod = false ∧
           t.bit F.nirTimeStep.standby_locked Ix.mod = false ∧ t.standby = s.standbyStep ∧
           t.get F.nirTimeStep.next_step Ix.mod = s.curStep % 8 ∧ t.curStep = s.curStep ∧ t.stepReqs = s.stepReqs ∧ d.val ∉ t.pllLock ∧
           t.eventSeq = (s.eventSeq + 1) % 2 ^ 32 ∧ RegsBut [.nirTimeStep, .nirTimeStepAt, .nirEvqCnt] s t ∧ Quiet s t) ∧
       (s.bit F.nirTimeStep.pending Ix.mod = true → s.stepAt < s.stitch + 40 →
         ∃ t, exec (.standbyPllLockLoss d) s = .next t ∧ d.val ∉ t.pllLock ∧ t.bit F.nirTimeStep.standby_locked Ix.mod = false ∧
           FieldsBut [(F.nirTimeStep.standby_locked, Ix.mod)] s t ∧ Quiet s t) ∧
       (s.bit F.nirTimeStep.pending Ix.mod = false →
         ∃ t, exec (.standbyPllLockLoss d) s = .next t ∧ d.val ∉ t.pllLock ∧ t.bit F.nirTimeStep.standby_locked Ix.mod = false ∧
           t.curStep = s.curStep ∧
           t.eventSeq = (s.eventSeq + 1) % 2 ^ 32 ∧ RegsBut [.nirTimeStep, .nirEvqCnt] s t ∧ Quiet s t) ∧
       (∃ t, exec (.pllRelock d) s = .next t ∧ d.val ∈ t.pllLock ∧ (∀ x ∈ s.pllLock, x ∈ t.pllLock) ∧
         ((∀ x ∈ s.litDies, x = d.val ∨ x ∈ s.pllLock) → t.get F.nirTimeStep.standby_locked Ix.mod = 1) ∧
         FieldsBut [(F.nirTimeStep.standby_locked, Ix.mod)] s t ∧ Quiet s t))) ∧
  ((∀ s : State,
       (∀ v : Fin 8, ∃ t, exec (.ceilStepWrite v) s = .next t ∧ t.get F.nirTimeStep.ceil_step Ix.mod = min v.val 5 ∧
         Map.find t.stepReqs .ceil = some (min v.val 5) ∧ RegsBut [.nirTimeStep] s t ∧
         t.get F.nirTimeStep.cur_step Ix.mod = s.get F.nirTimeStep.cur_step Ix.mod ∧
         t.get F.nirTimeStep.next_step Ix.mod = s.get F.nirTimeStep.next_step Ix.mod ∧
         t.get F.nirTimeStep.pending Ix.mod = s.get F.nirTimeStep.pending Ix.mod ∧ Quiet s t) ∧
       (∀ src, ∃ t, exec (.clockStepRequest src) s = .next t ∧ Map.find t.stepReqs src = some (min (s.sourceStep src) 5) ∧
         FieldsBut [(F.nirTimeStep.standby_locked, Ix.mod)] s t ∧ Quiet s t)) ∧
    (∀ (s : State) (at_ : BitVec 64), (s.running = false ∨ ∃ k, s.kdl.kin = some k ∧ k.stage ≤ 4) →
       exec (.clockStepAnnounce at_) s = .next s) ∧
    (∀ (s : State) (at_ : BitVec 64), s.stitch + 4096 < 2 ^ 64 →
       ((s.nextStep = none ∨ (∃ k, s.nextStep = some k ∧ s.canAnnounce k = false)) → exec (.clockStepAnnounce at_) s = .next s) ∧
       (∀ k, s.nextStep = some k → s.canAnnounce k = true → k ≤ 5 →
         (k = s.curStep + 1 ∨ k + 1 = s.curStep) ∧
         (s.lockstep = false → ∃ t, exec (.clockStepAnnounce at_) s = .next t ∧
           t.get F.nirTimeStep.next_step Ix.mod = k ∧ t.get F.nirTimeStep.pending Ix.mod = 1 ∧
           t.get F.nirTimeStepAt.stitch Ix.mod = max at_.toNat (s.stitch + 64) ∧
           FieldsBut [(F.nirTimeStep.next_step, Ix.mod), (F.nirTimeStep.pending, Ix.mod), (F.nirTimeStepAt.stitch, Ix.mod)] s t ∧ Quiet s t) ∧
         (s.lockstep = true → s.timeRoot = true → ∃ t, exec (.clockStepAnnounce at_) s = .next t ∧
           t.get F.nirTimeStep.next_step Ix.mod = k ∧ t.get F.nirTimeStep.pending Ix.mod = 1 ∧
           t.get F.nirTimeStepAt.stitch Ix.mod = max at_.toNat (s.stitch + 4096) ∧
           t.inject.length = s.inject.length + s.childPorts.length ∧
           FieldsBut [(F.nirTimeStep.next_step, Ix.mod), (F.nirTimeStep.pending, Ix.mod), (F.nirTimeStepAt.stitch, Ix.mod)] s t ∧ Quiet s t) ∧
         (s.lockstep = true → s.timeRoot = false → exec (.clockStepAnnounce at_) s = .next s))) ∧
    (∀ s : State,
       (s.bit F.nirTimeStep.pending Ix.mod = true → s.stepAt ≤ s.stitch + 40 → exec .stepCommit s = .next { s with committed := true }) ∧
       (s.stitch + 40 < s.stepAt → exec .stepCommit s = .next s) ∧
       (s.bit F.nirTimeStep.pending Ix.mod = false → exec .stepCommit s = .next s ∧ exec .clockStepEffect s = .next s) ∧
       (s.stitch < s.stepAt → exec .clockStepEffect s = .next s) ∧
       (s.bit F.nirTimeStep.pending Ix.mod = true → s.stepAt ≤ s.stitch → ∃ t, exec .clockStepEffect s = .next t ∧
         t.get F.nirTimeStep.cur_step Ix.mod = s.get F.nirTimeStep.next_step Ix.mod % 8 ∧ t.bit F.nirTimeStep.pending Ix.mod = false ∧
         t.bit F.nirTimeStep.standby_locked Ix.mod = false ∧ t.pllLock = [] ∧
         (s.curStep < s.get F.nirTimeStep.next_step Ix.mod →
           t.get F.nirTimeStepCount.down Ix.mod = min (s.get F.nirTimeStepCount.down Ix.mod + 1) 0xFFFF) ∧
         (s.get F.nirTimeStep.next_step Ix.mod ≤ s.curStep →
           t.get F.nirTimeStepCount.up Ix.mod = min (s.get F.nirTimeStepCount.up Ix.mod + 1) 0xFFFF) ∧
         (∀ d ∈ s.litDies, d ∉ s.pllLock → Map.find t.dying d = some 2) ∧
         RegsBut [.nirTimeStep, .nirTimeStepCount] s t ∧ Quiet s t)))

/-! ## Array engines (chapters 02 and 06) -/

/-- R75: an operation whose checks pass starts on every array of its group; K = P × N evaluations take 16K + 8 cycles to the result
buffer, and the arrays and the latch are free again 16K cycles after the issue.  Retired arrays run and are marked (R94); every line of
the destination is pending (R201).
R67, R74: the oldest due operation of an array completes: OPS counts it unless its last conversion was counted in its own cycle (R202),
saturated conversions are counted and marked, its lines enter the buffer; with none due nothing happens.
Completes: AMV, AMVW and ARRAY_OP_COMPLETE. -/
def Obligations.ArrayOperations : Prop :=
  (∀ (s : State) (c : CoreId) (grp : Fin 16) (lat : Fin 8) (dst : Fin 1024) (base : Nat) (i : Instr) (m : ConvMode) (windows : Nat),
      (i, m, windows) ∈ [(.amv c grp lat dst, ConvMode.exact, 2), (.amvw c grp lat dst, ConvMode.wide, 1)] →
      arrayReady m s c grp lat dst base →
      let l := Map.getD (s.core c).latches lat.val {}
      let arrs := s.groupArrays c grp
      let K := (QFmt.ofCode l.fmt).bits * windows
      ∃ t, exec i s = .next t ∧
        (∀ a ∈ arrs, (t.engine a).reissueAt = s.now + 16 * K ∧ (t.engine a).convEnd = s.now + 16 * K + 4 ∧
          (s.arrState a ≠ aRetired → t.get F.arrState.state a.ix = aCompute) ∧
          (s.arrState a = aRetired → t.get F.arrErr.retired_use a.ix = 1 ∧ t.get F.arrState.state a.ix = s.get F.arrState.state a.ix)) ∧
        (t.core c).ops.map (fun o => (o.arr, o.doneAt)) =
          (s.core c).ops.map (fun o => (o.arr, o.doneAt)) ++ arrs.map (fun a => (a.arr.val, s.now + 16 * K + 8)) ∧
        Map.getD (t.core c).latches lat.val {} = { l with busyUntil := s.now + 16 * K } ∧
        (∀ j < groupTotal (groupLines s (QFmt.ofCode l.fmt) m arrs 0), 0 < (t.mark (spadAddr c (base + 256 * j))).pend) ∧
        (∀ a, a ∉ arrs → t.engine a = s.engine a) ∧ CoresBut c s t ∧ RegsBut [.arrState, .arrErr, .coreCredUse] s t ∧ Still s t) ∧
  (∀ (s : State) (a : ArrId) (pre post : List ArrayOp) (o : ArrayOp),
      let c := a.coreId
      ((∀ x ∈ (s.core c).ops, x.arr = a.arr.val → s.now < x.doneAt) → exec (.arrayOpComplete a) s = .next s) ∧
      ((s.core c).ops = pre ++ o :: post → (∀ x ∈ pre, x.arr = a.arr.val → s.now < x.doneAt) → o.arr = a.arr.val → o.doneAt ≤ s.now →
        ∃ t, exec (.arrayOpComplete a) s = .next t ∧ (t.core c).ops = pre ++ post ∧
          (o.counted = false → t.get F.arrOps.count a.ix = (s.get F.arrOps.count a.ix + 1) % 2 ^ 32) ∧
          (o.counted = true → t.get F.arrOps.count a.ix = s.get F.arrOps.count a.ix) ∧
          (o.clips = 0 → t.get F.arrClip.count a.ix = s.get F.arrClip.count a.ix) ∧
          (o.clips ≠ 0 → t.get F.arrClip.count a.ix = min (s.get F.arrClip.count a.ix + o.clips) 0xFFFF ∧
            t.get F.arrErr.sat a.ix = 1 ∧ t.get F.coreArrstat.sat c.ix = 1) ∧
          (∀ l, l ∈ (t.core c).lines ↔ l ∈ (s.core c).lines ∨ l ∈ o.lines) ∧
          (s.get F.arrState.state a.ix = aCompute → (s.engine a).convEnd ≤ s.now → t.get F.arrState.state a.ix = aIdle) ∧
          RegsBut [.arrOps, .arrClip, .arrErr, .coreArrstat, .arrState] s t ∧ CoresBut c s t ∧ t.engines = s.engines ∧ Still s t))

/-- R81, R201: the buffered line due in this cycle is written to its destination with its own SAT and ERR marks, and its bank is in the
array-result-write position; one line a slot, and none while a tenant clear stops the wheels (R284).  Completes: RESULT_LINE_WRITE. -/
def Obligations.ResultLineWrites : Prop :=
  ∀ (s : State) (c : CoreId), Sound s →
    ((s.now < (s.core c).lineAt ∨ s.wheelRuns c.die = false ∨ nextLine s.now (awBank s.now) (s.core c).lines = none) →
      exec (.resultLineWrite c) s = .next s) ∧
    (∀ l, (s.core c).lineAt ≤ s.now → s.wheelRuns c.die = true → nextLine s.now (awBank s.now) (s.core c).lines = some l →
      s.ueIn (spadAddr c (256 * l.line)) l.data.length = none →
      wheelPos (l.line % 8) s.now = 3 ∧ l.enter ≤ s.now ∧ (∀ x ∈ (s.core c).lines, x.arr = l.arr → l.enter ≤ x.enter) ∧
      ∃ t, exec (.resultLineWrite c) s = .next t ∧ StoresAt s t (spadAddr c (256 * l.line)) l.data ∧
        (t.core c).lines = (s.core c).lines.erase l ∧ (t.core c).lineAt = s.now + 1 ∧
        t.mark (spadAddr c (256 * l.line)) =
          { pend := (s.mark (spadAddr c (256 * l.line))).pend - 1, sat := l.sat, err := l.err, late := false } ∧
        (l.err = true → t.get F.coreArrstat.errmark c.ix = 1) ∧ RegsBut [.coreArrstat] s t ∧ CoresBut c s t ∧ t.engines = s.engines ∧
        t.stitch = s.stitch ∧ t.cc = s.cc)

/-- R203, R204: LDL schedules the latch write for the first array-read position of the source's bank in the eight cycles after the
issue; XSET names the exchange stitch in a streaming harness (one begun by the issue cycle is STITCH_LATE and schedules nothing) and changes
nothing but the slot in a spatial one.
R80, R203, R52: a due latch load takes the latch's format, codes and zero marks from the source line, and an operation may use them from
the next cycle on; a busy latch raises LATCH with source ARRIVAL; from cc 0 of the named stitch the sets have exchanged roles, which the
exchange records.  Completes: LDL, XSET, LATCH_LANDING and SET_EXCHANGE. -/
def Obligations.InputLatches : Prop :=
  (∀ (s : State) (c : CoreId), canA s c →
     (∀ (lat : Fin 8) (fmt : Fin 4) (src : Fin 2048) (ofs : Nat), (fmt.val = 0 → src.val % 2 = 0) →
       s.located c 0 (src * 128) (latchBytes fmt) = .ok ofs →
       (∀ l ∈ (s.core c).loads, l.landAt = nextSlot (bankOf ofs) 1 (s.now + 1) → bankOf l.src ≠ bankOf ofs ∧ l.lat ≠ lat.val) →
       (∀ e, Map.find s.spadClear c.die.val = some e → e ≤ nextSlot (bankOf ofs) 1 (s.now + 1)) →
       s.now < nextSlot (bankOf ofs) 1 (s.now + 1) ∧ nextSlot (bankOf ofs) 1 (s.now + 1) ≤ s.now + 8 ∧
       wheelPos (bankOf ofs) (nextSlot (bankOf ofs) 1 (s.now + 1)) = 1 ∧
       exec (.ldl c lat fmt src) s = .next (s.setCore c { s.core c with
         loads := (s.core c).loads ++ [⟨lat, fmt, ofs, nextSlot (bankOf ofs) 1 (s.now + 1), s.get F.coreSeqPc.pc c.ix⟩]
         nextA := s.now + 1 })) ∧
     (∀ idx : Fin 4,
       (s.bit F.coreArrstat.streaming c.ix = true → s.stitch < s.stReg c idx → ∃ t, exec (.xset c idx) s = .next t ∧
         t.core c = { s.core c with exchange := some (s.stReg c idx), nextA := s.now + 1 } ∧ CoresBut c s t ∧ t.regs = s.regs ∧ Still s t) ∧
       (s.bit F.coreArrstat.streaming c.ix = true → s.stReg c idx ≤ s.stitch → s.bit F.coreSfltRec.valid c.ix = false →
         ∃ t, exec (.xset c idx) s = .next t ∧ t.get F.coreSfltRec.code c.ix = sStitchLate ∧ t.get F.coreSfltRec.src c.ix = 0 ∧
           t.get F.coreSfltRec.detail c.ix = idx.val ∧ (t.core c).exchange = (s.core c).exchange ∧ Still s t) ∧
       (s.bit F.coreArrstat.streaming c.ix = false →
         exec (.xset c idx) s = .next (s.setCore c { s.core c with nextA := s.now + 1 })))) ∧
  (∀ (s : State) (c : CoreId),
     ((∀ l ∈ (s.core c).loads, s.now < l.landAt) → exec (.latchLanding c) s = .next s) ∧
     (∀ (pre rest : List LatchLoad) (l : LatchLoad), (s.core c).loads = pre ++ l :: rest → (∀ x ∈ pre, s.now < x.landAt) → l.landAt ≤ s.now →
       s.lineFault (spadAddr c l.src) (latchBytes l.fmt) = none → s.upsets = [] →
       ((Map.getD (s.core c).latches l.lat {}).busyUntil ≤ s.now → ∃ t, exec (.latchLanding c) s = .next t ∧
         (t.core c).loads = pre ++ rest ∧
         (Map.getD (t.core c).latches l.lat {}).fmt = l.fmt ∧ (t.core c).latchLoading l.lat s.now = true ∧
         ((∀ x ∈ pre ++ rest, x.lat ≠ l.lat) → (t.core c).latchLoading l.lat (s.now + 1) = false) ∧
         (Map.getD (t.core c).latches l.lat {}).elts =
           unpackCodes (QFmt.ofCode l.fmt) (s.bytes (spadAddr c l.src) (latchBytes l.fmt)) 256 ∧
         (∀ lat, lat ≠ l.lat → Map.find (t.core c).latches lat = Map.find (s.core c).latches lat) ∧
         CoresBut c s t ∧ t.regs = s.regs ∧ Still s t) ∧
       (s.now < (Map.getD (s.core c).latches l.lat {}).busyUntil → s.bit F.coreSfltRec.valid c.ix = false →
         ∃ t, exec (.latchLanding c) s = .next t ∧ t.get F.coreSfltRec.code c.ix = sLatch ∧ t.get F.coreSfltRec.src c.ix = 3 ∧
           t.get F.coreSfltRec.detail c.ix = l.lat % 256 ∧ (t.core c).latches = (s.core c).latches ∧ Still s t)) ∧
     (((s.core c).exchange = none ∨ (∃ n, (s.core c).exchange = some n ∧ s.now < 16 * n)) → exec (.setExchange c) s = .next s) ∧
     (∀ n, (s.core c).exchange = some n → 16 * n ≤ s.now → ∃ t, exec (.setExchange c) s = .next t ∧ (t.core c).exchange = none ∧
       (s.bit F.coreArrstat.streaming c.ix = true →
         t.get F.coreArrstat.compute_set c.ix = 1 - s.get F.coreArrstat.compute_set c.ix ∧
         ∀ a : Fin 64, s.loading (c.arr a) = t.loading (c.arr a) ∧
           (t.loading (c.arr a) = true ↔ 1 - s.get F.coreArrstat.compute_set c.ix ≠ a.val / 32)) ∧
       (s.bit F.coreArrstat.streaming c.ix = false →
         t.get F.coreArrstat.compute_set c.ix = s.get F.coreArrstat.compute_set c.ix % 2) ∧
       RegsBut [.coreArrstat] s t ∧ CoresBut c s t ∧ t.engines = s.engines ∧ Still s t))

/-- R86, R87, R88: an access on the row grid waits at its port; one off the grid is refused whole and marks its first array, one past the
core's planes is an address fault that its unit counts (R12).
R59, R87, R89, R90: a core cycle serves one row of the access whose turn it is, port 0 first (R88), and judges it by the state of its
array: a row is written, a Q2 skip code as 00, or read, or rejected and counted; with its last row the access is answered.
R92, Table 02.9: at its end a clear has zeroed the array's cells and only them; a CLEARING array goes to IDLE (to RETIRED where it
was retired: the model's choice, entry 20), and one that kept its state keeps it; one that waited for an operation, an access or a slot
starts when that has ended.  Completes: ROW_WRITE, ROW_READBACK and ARRAY_CLEAR_DONE. -/
def Obligations.WeightPlanes : Prop :=
  (∀ (s : State) (c : CoreId) (ofs n : Nat) (data : List Byte),
     (data.length = 32 * n → 0 < n → ofs % 32 = 0 → ofs + 32 * n ≤ 0x80000 →
       exec (.rowWrite c ofs data) s = .next { s with
         planeQ := s.planeQ ++ [{ core := c, port := 1, ofs := ofs, data := data, rows := n, read := false }] } ∧
       exec (.rowReadback c ofs (32 * n)) s = .next { s with
         planeQ := s.planeQ ++ [{ core := c, port := 1, ofs := ofs, data := [], rows := n, read := true }] }) ∧
     (ofs < 0x80000 → ofs + n ≤ 0x80000 → (ofs % 32 ≠ 0 ∨ n % 32 ≠ 0 ∨ n = 0) → data.length = n →
       ∀ i ∈ [Instr.rowWrite c ofs data, .rowReadback c ofs n], ∃ t, exec i s = .next t ∧
         t.get F.arrErr.align (c.arr (planeArr ofs)).ix = 1 ∧ t.out = s.out ++ [.dynDone (fab 4 c.die c.clu c.core ofs) xAlignFault []] ∧
         FieldsBut [(F.arrErr.align, (c.arr (planeArr ofs)).ix)] s t ∧ Quiet s t) ∧
     ((0x80000 ≤ ofs ∨ 0x80000 < ofs + n) → data.length = n →
       ∀ i ∈ [Instr.rowWrite c ofs data, .rowReadback c ofs n], ∃ t, exec i s = .next t ∧
         Map.getD t.addrFaults c.die.val 0 = Map.getD s.addrFaults c.die.val 0 + 1 ∧
         t.out = s.out ++ [.dynDone (fab 4 c.die c.clu c.core ofs) xAddressFault []] ∧ t.regs = s.regs ∧ Quiet s t)) ∧
  (∀ (s : State) (c : CoreId) (pre post : List PlaneAcc) (p : PlaneAcc), Sound s → s.pending = [] → s.cc < 15 → s.upsets = [] →
     s.planeQ = pre ++ p :: post → p ∉ pre → (∀ q ∈ s.planeQ, q.core = c) → s.planeTurn c = some p → p.xfer = none →
     let a := c.arr (planeArr p.rowOfs)
     let row := planeAddr a (planeRow p.rowOfs)
     let bs := (p.data.drop (32 * p.done)).take 32
     let after := fun (q : PlaneAcc) (t : State) =>
       (q.done < p.rows → t.planeQ = pre ++ q :: post ∧ t.out = s.out) ∧
       (p.rows ≤ q.done → t.planeQ = pre ++ post ∧
         t.out = s.out ++ [.dynDone (fab 4 c.die c.clu c.core p.ofs) (if q.bad = 0 then xOk else xArrayBusy) (if q.bad = 0 then q.got else [])])
     ((∃ q ∈ s.planeQ, q.port = 0) → p.port = 0) ∧
     ∃ t, step s = .next t ∧
       (p.read = false → s.acceptsWrite a = true →
         StoresAt s t row (if s.wfmt a = .q2 then (stripSkip bs).1 else bs) ∧
         (s.wfmt a = .q2 → (stripSkip bs).2 ≠ 0 → t.get F.arrErr.q2_skip a.ix = 1 ∧
           t.get F.arrQ2skip.count a.ix = min (s.get F.arrQ2skip.count a.ix + (stripSkip bs).2) 0xFFFF) ∧
         after { p with done := p.done + 1 } t) ∧
       (p.read = false → s.acceptsWrite a = false → t.mem = s.mem ∧ t.get F.arrErr.busy_rej a.ix = 1 ∧
         t.get F.arrAccrej.wr_rej a.ix = min (s.get F.arrAccrej.wr_rej a.ix + 1) 0xFFFF ∧
         after { p with done := p.done + 1, bad := p.bad + 1 } t) ∧
       (p.read = true → s.acceptsRead a = true → t.mem = s.mem ∧ (t.core c).portFree = s.now + 2 ∧
         after { p with done := p.done + 1, got := p.got ++ s.bytes row 32 } t) ∧
       (p.read = true → s.acceptsRead a = false → t.mem = s.mem ∧
         t.get F.arrAccrej.rd_rej a.ix = min (s.get F.arrAccrej.rd_rej a.ix + 1) 0xFFFF ∧
         after { p with done := p.done + 1, bad := p.bad + 1 } t) ∧
       RegsBut [.arrState, .arrQ2skip, .arrErr, .arrAccrej, .arrOps, .cluSynObj, .cluSynStat] s t ∧ t.stitch = s.stitch ∧ t.cc = s.cc + 1) ∧
  (∀ (s : State) (a : ArrId) (t0 : Nat), Sound s →
     ((s.engine a).clearAfter = none →
       ((s.engine a).clearEnd = none → exec (.arrayClearDone a) s = .next s) ∧
       ((s.engine a).clearEnd = some t0 → s.now < t0 → exec (.arrayClearDone a) s = .next s) ∧
       ((s.engine a).clearEnd = some t0 → t0 ≤ s.now → ∃ t, exec (.arrayClearDone a) s = .next t ∧
         (∀ x, Memory.read t.mem x =
           if planeAddr a 0 ≤ x ∧ x < planeAddr a 0 + 8192 then 0#8 else Memory.read s.mem x) ∧
         (t.engine a) = { s.engine a with clearEnd := none } ∧
         (s.get F.arrState.state a.ix = aClearing → s.get F.coreCalrecStat.retire_why a.ix = 0 → t.get F.arrState.state a.ix = aIdle) ∧
         (s.get F.arrState.state a.ix ≠ aClearing → t.get F.arrState.state a.ix = s.get F.arrState.state a.ix) ∧
         FieldsBut [(F.arrState.state, a.ix)] s t ∧ t.cores = s.cores ∧ t.stitch = s.stitch ∧ t.cc = s.cc)) ∧
     ((s.engine a).clearAfter = some t0 → t0 ≤ s.now → s.arrState a = aClearing →
       s.now < max t0 (max (s.engine a).convEnd (s.engine a).accessEnd) + 256 → ∃ t, exec (.arrayClearDone a) s = .next t ∧
         t.get F.arrState.state a.ix = aClearing ∧
         t.engine a = { s.engine a with clearAfter := none
                                        clearEnd := some (max t0 (max (s.engine a).convEnd (s.engine a).accessEnd) + 256) } ∧
         FieldsBut [(F.arrState.state, a.ix)] s t ∧ t.mem = s.mem ∧ t.cores = s.cores))

/-! ## Slot V (chapter 06) -/

/-- R205, R206, R209: VADD, VSUB, VMUL, VMAX and VMIN post one result for V[D] four cycles later and change nothing else; a float lane is
the operation rounded once, an integer lane saturates at its type's range, and the flags say which lanes did what.
Completes: VADD, VSUB, VMUL, VMAX and VMIN. -/
def Obligations.VectorTwoOperand : Prop :=
  ∀ (s : State) (c : CoreId) (f : VrOperands), canV s c false → f.sub = 0 → f.aux8 = 0 → (f.bs = true → f.b.val < 16) →
    freeAt s c 4 f.d →
    ∀ (i : Instr) (ff : FP → FP → FP) (fi : Int → Int → Int),
      (i, ff, fi) ∈ ([(.vadd c f, FP.add, fun x y => x + y), (.vsub c f, fun x y => FP.add x (FP.neg y), fun x y => x - y),
        (.vmul c f, FP.mul, fun x y => x * y), (.vmax c f, fpMax, max), (.vmin c f, fpMin, min)] :
          List (Instr × (FP → FP → FP) × (Int → Int → Int))) →
      let ty := ETy.ofCode f.ty
      let x := fun k => lane (s.vreg c f.a) k
      let y := fun k => lane (s.operandB c (vrOf f)) k
      let half : Int := if f.ty = 2 then 2 ^ 15 else 2 ^ 7
      let exact := fun k => fi (laneInt ty (x k)) (laneInt ty (y k))
      ∃ (L : List Word32) (b : Nat), exec i s = .next (s.setCore c (postedV s c 4 false (withFlags [.vreg f.d L] b))) ∧ L.length = 32 ∧
        (f.ty.val < 2 → (∀ k < 32, lane L k = fpOut ty (ff (laneFP ty (x k)) (laneFP ty (y k)))) ∧
          flagsAre b
            (fun k => FP.ofBits (lane L k) = .nan ∧ laneFP ty (x k) ≠ .nan ∧ laneFP ty (y k) ≠ .nan)
            (fun k => (FP.ofBits (lane L k)).isInf = true ∧ (laneFP ty (x k)).isInf = false ∧ (laneFP ty (y k)).isInf = false ∧
              laneFP ty (x k) ≠ .nan ∧ laneFP ty (y k) ≠ .nan)
            (fun _ => False) (fun _ => False)) ∧
        (2 ≤ f.ty.val → (∀ k < 32, lane L k = BitVec.ofInt 32 (max (-half) (min (half - 1) (exact k)))) ∧
          flagsAre b (fun _ => False) (fun _ => False) (fun _ => False) (fun k => exact k < -half ∨ half - 1 < exact k))

/-- Table 06.9: VFMA rounds once, VCMP gives all ones or zero, VSEL picks by the bits of C, VMOV copies or broadcasts, VMOVS moves a lane
or a tensor scale to a scalar register, VSWP swaps rotary pairs; each result falls due four cycles later.
R207, R208, Table 06.9: VCVT saturates to integers with ISAT and turns NaN into 0; VRSUM and VRMAX broadcast the fixed tree's sum and the
maximum; VEXP, VRCP and VRSQ are class X: eight cycles, and two to the next of the class; VRCP and VRSQ of a zero give infinity and DZ.
Completes: VFMA, VCMP, VSEL, VMOV, VMOVS, VSWP, VCVT, VRSUM, VRMAX, VEXP, VRCP and VRSQ. -/
def Obligations.VectorMovesAndUnary : Prop :=
  (∀ (s : State) (c : CoreId) (f : VrOperands), canV s c false → f.aux8 = 0 →
     let ty := ETy.ofCode f.ty
     let x := fun k => lane (s.vreg c f.a) k
     let y := fun k => lane (s.operandB c (vrOf f)) k
     let z := fun k => lane (s.vreg c f.c) k
     let gives := fun (i : Instr) (g : Nat → Word32) =>
       ∃ L, exec i s = .next (s.setCore c (postedV s c 4 false [.vreg f.d L])) ∧ L.length = 32 ∧ ∀ k < 32, lane L k = g k
     (freeAt s c 4 f.d →
       ((f.bs = true → f.b.val < 16) →
         (f.sub = 0 → f.ty.val < 2 → ∃ L b, exec (.vfma c f) s = .next (s.setCore c (postedV s c 4 false (withFlags [.vreg f.d L] b))) ∧
           L.length = 32 ∧
           ∀ k < 32, lane L k = fpOut ty (FP.add (FP.mul (laneFP ty (x k)) (laneFP ty (y k))) (laneFP ty (z k)))) ∧
         (f.sub = 0 → gives (.vsel c f) fun k => if z k ≠ 0#32 then x k else y k) ∧
         (f.sub.val ≤ 2 → f.ty.val < 2 → gives (.vcmp c f) fun k =>
           let a := laneFP ty (x k)
           let b := laneFP ty (y k)
           if a ≠ .nan ∧ b ≠ .nan ∧
             (f32Lt a.toBits b.toBits = true ∧ f.sub ≠ 0 ∨ f32Eq a.toBits b.toBits = true ∧ f.sub ≠ 1) then 0xFFFFFFFF#32 else 0#32) ∧
         (f.sub.val ≤ 2 → 2 ≤ f.ty.val → gives (.vcmp c f) fun k =>
           let a := laneInt ty (x k)
           let b := laneInt ty (y k)
           if a < b ∧ f.sub ≠ 0 ∨ a = b ∧ f.sub ≠ 1 then 0xFFFFFFFF#32 else 0#32)) ∧
       (f.sub = 0 → exec (.vmov c f) s = .next (s.setCore c (postedV s c 4 false [.vreg f.d (s.vreg c f.a)]))) ∧
       (f.sub = 1 → gives (.vmov c f) fun _ => s.sreg c (f.b % 16)) ∧
       (f.sub = 0 → f.ty.val < 2 → gives (.vswp c f) fun k =>
         if k % 2 = 0 then (FP.neg (laneFP ty (x (k + 1)))).toBits else (laneFP ty (x (k - 1))).toBits)) ∧
     (f.d.val < 16 → freeAt s c 4 (32 + f.d) →
       (f.sub = 0 → exec (.vmovs c f) s = .next (s.setCore c (postedV s c 4 false [.sreg f.d (x f.b)]))) ∧
       (f.sub = 1 → exec (.vmovs c f) s = .next (s.setCore c (postedV s c 4 false
         [.sreg f.d (BitVec.ofNat 32 (s.get F.vecCfgTscale.t (c.ix (f.b % 16))))]))))) ∧
  (∀ (s : State) (c : CoreId) (f : VrOperands), f.sub = 0 →
     let ty := ETy.ofCode f.ty
     let x := fun k => lane (s.vreg c f.a) k
     (canV s c false → freeAt s c 4 f.d →
       (f.b.val % 2 = 0 → 2 ≤ f.b.val / 2 % 4 → 2 ≤ f.b.val / 8 → f.ty.val < 2 →
         let half : Int := if f.b.val / 8 = 2 then 2 ^ 15 else 2 ^ 7
         ∃ L b, exec (.vcvt c f) s = .next (s.setCore c (postedV s c 4 false (withFlags [.vreg f.d L] b))) ∧ L.length = 32 ∧
           (∀ k < 32, (laneFP ty (x k) = .nan → lane L k = 0#32 ∧ b.testBit 3 = true) ∧
             ((laneFP ty (x k)).isInf = true → (lane L k = BitVec.ofInt 32 (half - 1) ∨ lane L k = BitVec.ofInt 32 (-half)) ∧
               b.testBit 3 = true) ∧
             ∀ q, laneFP ty (x k) = .num q → lane L k = BitVec.ofInt 32 (max (-half) (min (half - 1) (roundRne q))))) ∧
       (f.b.val % 2 = 0 → 2 ≤ f.b.val / 2 % 4 → f.b.val / 8 = f.ty.val →
         ∃ L, exec (.vcvt c f) s = .next (s.setCore c (postedV s c 4 false [.vreg f.d L])) ∧ L.length = 32 ∧ ∀ k < 32, lane L k = x k) ∧
       (f.aux8 = 0 → f.ty = 0 → ∃ b, exec (.vrsum c f) s = .next (s.setCore c (postedV s c 4 false (withFlags [.vreg f.d
         (List.replicate 32 (treeSum ((s.vreg c f.a).map fun w => (FP.ofBits w).toBits)))] b)))) ∧
       (f.aux8 = 0 → 2 ≤ f.ty.val → (s.vreg c f.a).length = 32 → ∃ m : Int,
         exec (.vrmax c f) s = .next (s.setCore c (postedV s c 4 false [.vreg f.d (List.replicate 32 (BitVec.ofInt 32 m))])) ∧
         (∀ k < 32, laneInt ty (x k) ≤ m) ∧ ∃ k < 32, laneInt ty (x k) = m)) ∧
     (canV s c true → f.aux8 = 0 → f.ty = 0 → freeAt s c 8 f.d →
       ∀ (i : Instr) (g : Word32 → Word32) (dz : Bool),
         (i, g, dz) ∈ ([(.vexp c f, f32Exp, false), (.vrcp c f, f32Rcp, true), (.vrsq c f, f32Rsq, true)] :
           List (Instr × (Word32 → Word32) × Bool)) →
         ∃ L b, exec i s = .next (s.setCore c (postedV s c 8 true (withFlags [.vreg f.d L] b))) ∧ L.length = 32 ∧
           (∀ k < 32, lane L k = g (x k)) ∧
           (b.testBit 2 = true ↔ dz = true ∧ ∃ k < 32, isZeroWord (x k) = true) ∧
           (dz = true → ∀ k < 32, isZeroWord (x k) = true → lane L k = infBits ((x k).msb))))

/-- R210: a load posts the bytes of its aligned offset four cycles later; a store writes exactly its bytes in the issue cycle.  Every
other byte of memory stays.
R199: a result is what an instruction issued at or after its cycle reads, an earlier one reads the register's previous value; the
writeback makes every due result the held value and leaves the others waiting.
Completes: VLD, VST, VLDS, VSTS and VECTOR_RESULT_WRITEBACK. -/
def Obligations.VectorMemory : Prop :=
  (∀ (s : State) (c : CoreId) (ind : Bool) (z : Fin 16) (p : Nat), Sound s → canV s c false → s.upsets = [] →
      (∀ (d : Fin 32) (ofs : Fin 8192) (ty : Fin 8) (o : Nat), ty.val ≤ 4 → s.effOffset c (ofs * 32) (vmSize ty) ind z = .ok o →
        (s.vAccess c o (vmSize ty) true = .ok p → freeAt s c 4 d → ∃ L,
          exec (.vld c d ofs ty ind z) s = .next (s.setCore c (postedV s c 4 false [.vreg d L])) ∧ L.length = 32 ∧
            ∀ k < 32, lane L k = loadLane ty (s.bytes (spadAddr c p) (vmSize ty)) k) ∧
        (s.vAccess c o (vmSize ty) false = .ok p → ∃ t, exec (.vst c d ofs ty ind z) s = .next t ∧
          StoresAt s t (spadAddr c p) ((s.vreg c d).flatMap (storeLane ty)) ∧ t.mark (spadAddr c p) =
            { pend := (s.mark (spadAddr c p)).pend, sat := false, err := false, late := false } ∧
          t.core c = { s.core c with nextV := s.now + 1 } ∧ CoresBut c s t ∧ t.regs = s.regs ∧ t.engines = s.engines ∧
          t.stitch = s.stitch ∧ t.cc = s.cc)) ∧
      (∀ (d : Fin 16) (sz : Fin 4) (ofs : Fin 262144) (o : Nat), sz.val ≤ 2 → s.effOffset c ofs (2 ^ sz.val) ind z = .ok o →
        (s.vAccess c o (2 ^ sz.val) true = .ok p → freeAt s c 4 (32 + d) →
          exec (.vlds c d sz ofs ind z) s = .next (s.setCore c (postedV s c 4 false
            [.sreg d (BitVec.ofNat 32 (bytesToNat (s.bytes (spadAddr c p) (2 ^ sz.val))))]))) ∧
        (s.vAccess c o (2 ^ sz.val) false = .ok p → ∃ t, exec (.vsts c d sz ofs ind z) s = .next t ∧
          StoresAt s t (spadAddr c p) (natToBytes (2 ^ sz.val) (s.sreg c d).toNat) ∧
          t.core c = { s.core c with nextV := s.now + 1 } ∧ CoresBut c s t ∧ t.regs = s.regs ∧ t.engines = s.engines ∧
          t.stitch = s.stitch ∧ t.cc = s.cc))) ∧
  (∀ (s : State) (c : CoreId) (r due : Nat) (v : Word32), (s.core c).results = [{ due := due, dest := .sreg r v }] →
      (due ≤ s.now → s.sreg c r = v) ∧ (s.now < due → s.sreg c r = Map.getD (s.core c).sregs r 0#32) ∧
      (s.now < due → exec (.vectorResultWriteback c) s = .next (s.setCore c (s.core c))) ∧
      (due ≤ s.now → ∃ t, exec (.vectorResultWriteback c) s = .next t ∧
        t.core c = { s.core c with results := [], sregs := Map.put (s.core c).sregs r v } ∧ t.sreg c r = v ∧
        CoresBut c s t ∧ t.regs = s.regs ∧ t.engines = s.engines ∧ Still s t))

/-- R211, R212, R214: QSC posts the scale word of Table 06.12 and counts capped scales and non-finite elements; QNT posts the packed codes and
the scale word and counts its elements; VDQ posts the dequantised group, +0 in every lane for the scale 0xFF.
Completes: QSC, QNT and VDQ. -/
def Obligations.BlockScaleQuantise : Prop :=
  ∀ (s : State) (c : CoreId) (k : Fin 4), canV s c false →
    (∀ (src : Fin 32) (kind fmt : Fin 4) (tsi z : Fin 16), kindFmtOk kind fmt = true → src.val % kindRegs kind = 0 →
      freeAt s c 4 (32 + z) →
      let xs := (s.blockElts c src kind).map FP.ofBits
      let bad := (xs.filter fun x => x.isNaN || x.isInf).length
      ∃ t w, exec (.qsc c src kind fmt tsi z k) s = .next t ∧ t.core c = postedV s c 4 false [.sreg z w] ∧ CoresBut c s t ∧
        w.toNat / 2 ^ 16 % 16 = tsi.val ∧ w.toNat / 2 ^ 21 = 0 ∧
        (blockAmax xs = 0 → w.toNat % 2 ^ 16 = 0 ∧ w.toNat / 2 ^ 20 = 0) ∧
        w.toNat / 2 ^ 8 % 2 ^ 8 = (if kind = 2 then w.toNat % 2 ^ 8 else 0) ∧
        t.get F.vecPcntFaults.nonfin (c.ix k) = (if bad = 0 then s.get F.vecPcntFaults.nonfin (c.ix k)
          else min (s.get F.vecPcntFaults.nonfin (c.ix k) + bad) 0xFFFF) ∧
        RegsBut [.vecPcntFaults] s t ∧ t.engines = s.engines ∧ Still s t) ∧
    (∀ (d src : Fin 32) (fmt kind pur : Fin 4) (blk : Fin 128) (sub z : Fin 16), kindFmtOk kind fmt = true →
      src.val % kindRegs kind = 0 → pur ≠ 2 → freeAt s c 4 d → freeAt s c 4 (32 + z) →
      (kind = 2 → fmt = 0 → d.val ≠ 31 ∧ freeAt s c 4 (d + 1)) →
      (∀ r < kindRegs kind, (s.vreg c (src + r)).length = 32) →
      ∃ t L w M, exec (.qnt c d src fmt kind pur k blk sub z) s = .next t ∧ t.core c = postedV s c 4 false
          ([.vreg d L, .sreg z w] ++ if kind = 2 ∧ fmt = 0 then [.vreg (d + 1) M] else []) ∧
        CoresBut c s t ∧ L.length = 32 ∧ w.toNat / 2 ^ 16 = (s.sreg c z).toNat / 2 ^ 16 ∧
        ((s.sreg c z).toNat % 256 = 0xFF → w.toNat % 2 ^ 16 = 0) ∧
        t.get F.vecPcntElems.count (c.ix k) = min (s.get F.vecPcntElems.count (c.ix k) + 32 * kindRegs kind) (2 ^ 32 - 1) ∧
        RegsBut [.vecPcntElems, .vecPcntSatel, .vecPcntZeroblk, .vecPcntScales] s t ∧ t.engines = s.engines ∧ Still s t) ∧
    (∀ (d src : Fin 32) (fmt : Fin 4) (grp : Fin 8) (z : Fin 16), 4 * (QFmt.ofCode fmt).bits * (grp + 1) ≤ 128 → freeAt s c 4 d →
      let b := (s.sreg c z).toNat % 256
      ∃ t L fl, exec (.vdq c d src fmt grp z k) s = .next t ∧ t.core c = postedV s c 4 false (withFlags [.vreg d L] fl) ∧ CoresBut c s t ∧
        L.length = 32 ∧ (b = 0xFF → ∀ j < 32, lane L j = 0#32) ∧
        (b ≠ 0xFF → t.regs = s.regs) ∧
        (b = 0xFF → t.get F.vecPcntScales.badscale (c.ix k) = min (s.get F.vecPcntScales.badscale (c.ix k) + 1) 0xFFFF) ∧
        RegsBut [.vecPcntScales] s t ∧ t.engines = s.engines ∧ Still s t)

/-- R213, R215, R216, R217: VPSC accumulates a ready line into its registers; VQKT and VPVT read a ready tile; VSMX posts its vector and its
scalar triple eight cycles later; VCTX posts the stream context.  A zeroing FIRST ignores what the accumulator held.
Completes: VPSC, VQKT, VPVT, VSMX and VCTX. -/
def Obligations.VectorTiles : Prop :=
  ∀ (s : State) (c : CoreId) (k : Fin 4) (p : Nat), s.upsets = [] →
    (canV s c false →
      (∀ (a : Fin 32) (line : Fin 1024) (ws : Fin 32) (z : Fin 16) (wf : Fin 4) (wid md li : Fin 2) (first : Bool),
        s.vAccess c (line * 256) 256 true = .ok p →
        let n := (QFmt.ofCode wf).cols
        a.val + (n + 31) / 32 - 1 ≤ 31 → ws.val + (if md = 0 then 2 * n - 1 else n - 1) / 128 ≤ 31 →
        ¬ (wid = 1 ∧ wf = 3 ∧ md = 0) → ¬ (wid = 0 ∧ wf = 0 ∧ md = 1) →
        (∀ r < (n + 31) / 32, freeAt s c 4 (a + r)) →
        ∃ t rs b, exec (.vpsc c a line ws z wf wid md li first k) s = .next t ∧
          t.core c = postedV s c 4 false (withFlags rs b) ∧ rs.map destNum = (List.range ((n + 31) / 32)).map (fun r => some (a.val + r)) ∧
          t.get F.vecPcntScales.arrsat (c.ix k) = (if (s.mark (spadAddr c p)).sat then
            min (s.get F.vecPcntScales.arrsat (c.ix k) + 1) 0xFFFF else s.get F.vecPcntScales.arrsat (c.ix k)) ∧
          CoresBut c s t ∧ RegsBut [.vecPcntScales] s t ∧ t.engines = s.engines ∧ Still s t) ∧
      (∀ (d x : Fin 32) (tile : Fin 1024) (sv : Fin 32) (ss : Fin 4) (fmt h : Fin 2) (first : Bool), tile.val ≠ 1023 →
        (fmt = 0 → h = 0) → s.tileAccess c tile = .ok p → freeAt s c 4 d →
        ∀ i ∈ [Instr.vqkt c d x tile sv ss fmt h first k, .vpvt c d x tile sv ss fmt h first k],
        ∃ t L b, exec i s = .next t ∧ t.core c = postedV s c 4 false (withFlags [.vreg d L] b) ∧ L.length = 32 ∧
          (i = .vpvt c d x tile sv ss fmt h first k → fmt = 1 → ∀ j < 32, (j < 16 * h.val ∨ 16 * h.val + 16 ≤ j) →
            lane L j = lane (s.vreg c d) j) ∧
          CoresBut c s t ∧ RegsBut [.vecPcntScales] s t ∧ t.engines = s.engines ∧ Still s t) ∧
      (∀ (ks ps xs : Fin 16) (layer : Fin 256), ks.val % 2 = 0 →
        exec (.vctx c ks ps xs layer) s = .next (s.setCore c (postedV s c 4 false
          [.ctx (BitVec.ofNat 64 ((s.sreg c (ks + 1)).toNat * 2 ^ 32 + (s.sreg c ks).toNat)) layer
            ((s.sreg c ps).toNat % 2 ^ 28) ((s.sreg c xs).toNat % 2 ^ 12)])))) ∧
    (canV s c true → ∀ (d src : Fin 32) (m : Fin 4) (n : Fin 16) (first : Bool), freeAt s c 8 d →
      (∀ j < 3, freeAt s c 8 (32 + 4 * m + j)) →
      ∃ E m1 l1 al b, exec (.vsmx c d src m n first) s = .next (s.setCore c (postedV s c 8 true
          (withFlags [.vreg d E, .sreg (4 * m) m1, .sreg (4 * m + 1) l1, .sreg (4 * m + 2) al] b))) ∧
        E.length = 32 ∧ (∀ j < 32, (s.sreg c n).toNat ≤ j → lane E j = 0#32) ∧
        ((s.sreg c n).toNat = 0 → al = oneF ∧ m1 = if first then negInf else s.sreg c (4 * m)))

/-! ## Slot T and the sequencer (chapters 05 and 06) -/

/-- R218, R219: scalar immediates and stitch targets fall due in the next cycle; jumps, loops and END steer the program counter, the loop
stack and the task state; a zero slot issues nothing (R170).
Completes: NOP, SLI, SLH, SADD, STLD, JMP, END, LOOP and ELP. -/
def Obligations.SlotTControl : Prop :=
  (∀ s : State, exec .nop s = .next s) ∧
  ∀ (s : State) (c : CoreId), canT s c →
    (∀ (z a : Fin 16) (imm : BitVec 20) (im : BitVec 12), freeAt s c 1 (32 + z) →
      exec (.sli c z imm) s = .next (s.setCore c (postedT s c [.sreg z (imm.signExtend 32)])) ∧
      exec (.sadd c z a imm) s = .next (s.setCore c (postedT s c [.sreg z (s.sreg c a + imm.signExtend 32)])) ∧
      ∃ v : Word32, exec (.slh c z im) s = .next (s.setCore c (postedT s c [.sreg z v])) ∧
        v.toNat / 2 ^ 20 = im.toNat ∧ v.toNat % 2 ^ 20 = (s.sreg c z).toNat % 2 ^ 20) ∧
    (∀ (idx mode j : Fin 4) (imm : BitVec 24), mode ≠ 3 →
      exec (.stld c idx mode j imm) s = .next (s.setCore c (postedT s c [.st idx
        (((if mode = 0 then s.get F.coreSeqLaunch.stitch c.ix else if mode = 1 then s.stReg c idx else s.stReg c j) + imm.toNat)
          % 2 ^ 64)]))) ∧
    (∀ tgt : Fin 2048, exec (.jmp c tgt) s =
      .next ((s.set F.coreSeqPc.pc c.ix tgt).setCore c { s.core c with nextT := s.now + 1 })) ∧
    exec (.end_ c) s = .next ((s.set F.coreSeqTask.state c.ix qDone).setCore c { s.core c with nextT := s.now + 1 }) ∧
    (∀ nM1 : Fin 65536, (s.core c).loops.length < 4 → s.pc c < 2047 → ∃ t, exec (.loop_ c nM1) s = .next t ∧
      t.core c = { s.core c with loops := (s.pc c + 1, nM1.val + 1) :: (s.core c).loops, nextT := s.now + 1 } ∧
      t.pc c = s.pc c + 1 ∧ t.get F.coreSeqPc.loop_depth c.ix = (s.core c).loops.length + 1 ∧
      CoresBut c s t ∧ RegsBut [.coreSeqPc] s t ∧ t.engines = s.engines ∧ Still s t) ∧
    (∀ (start n : Nat) (l : List (Nat × Nat)), (s.core c).loops = (start, n) :: l →
      (1 < n → ∃ t, exec (.elp c) s = .next t ∧ t.core c = { s.core c with loops := (start, n - 1) :: l, nextT := s.now + 1 } ∧
        t.pc c = start % 2048 ∧ CoresBut c s t ∧ RegsBut [.coreSeqPc] s t ∧ t.engines = s.engines ∧ Still s t) ∧
      (n ≤ 1 → s.pc c < 2047 → ∃ t, exec (.elp c) s = .next t ∧ t.core c = { s.core c with loops := l, nextT := s.now + 1 } ∧
        t.pc c = s.pc c + 1 ∧ CoresBut c s t ∧ RegsBut [.coreSeqPc] s t ∧ t.engines = s.engines ∧ Still s t))

/-- R187, R189, R190: an instruction that fails a check does not issue; the core's first fault is recorded with its slot, bundle and stitch,
stops the core from the next stitch, and asserts the partition's halt for three stitches later; later faults are only counted. -/
def Obligations.ScheduleFaultRecord : Prop :=
  ∀ (s : State) (c : CoreId) (p : Nat), canT s c → s.partOf c.die = some p → Map.find s.halts p = none →
    ∀ (i : Instr) (code detail : Nat),
      ((∃ (idx j : Fin 4) (imm : BitVec 24), i = .stld c idx 3 j imm ∧ code = sIllegal ∧ detail = 2) ∨
       (i = .elp c ∧ (s.core c).loops = [] ∧ code = sLoop ∧ detail = 0) ∨
       (∃ n, i = .loop_ c n ∧ 4 ≤ (s.core c).loops.length ∧ code = sLoop ∧ detail = 4) ∨
       (∃ obj, i = .sigl c obj 0 ∧ code = sIllegal ∧ detail = 2)) →
      (s.bit F.coreSfltRec.valid c.ix = false → ∃ t, exec i s = .next t ∧
        t.get F.coreSfltRec.valid c.ix = 1 ∧ t.get F.coreSfltRec.code c.ix = code ∧ t.get F.coreSfltRec.src c.ix = 2 ∧
        t.get F.coreSfltRec.detail c.ix = detail ∧ t.get F.coreSfltRec.bundle c.ix = s.pc c % 2048 ∧
        t.get F.coreSfltStitch.stitch c.ix = s.stitch % 2 ^ 64 ∧
        t.core c = { s.core c with stopAt := some (16 * (s.stitch + 1)) } ∧
        (∃ h, Map.find t.halts p = some h ∧ h.haltAt = s.stitch + 3 ∧ h.sf = s.stitch ∧
          h.first = ⟨s.now, c.die, c.clu, c.core⟩) ∧
        CoresBut c s t ∧ RegsBut [.coreSfltRec, .coreSfltCycle, .coreSfltStitch, .stwSchedCnt] s t ∧ t.engines = s.engines ∧ Still s t) ∧
      (s.bit F.coreSfltRec.valid c.ix = true → ∃ t, exec i s = .next t ∧
        t.get F.coreSfltCnt.more c.ix = min (s.get F.coreSfltCnt.more c.ix + 1) 0xFFFF ∧ t.halts = s.halts ∧ t.cores = s.cores ∧
        RegsBut [.coreSfltCnt] s t ∧ t.engines = s.engines ∧ Still s t)

/-- R196: the worked bundle's slots name AMV GRP 0, LAT 0, DST 0x105; VPSC A 4, LINE 0xC0, WS 8, Z 1, Q4, exact, sint16, FIRST; SIGL OBJ 5,
INC 1; under launch field 0x40.
R171-R173: a NEXT launch issues GAP + 1 cycles after the issue before it, a STITCH launch in cycle CYC of its target, anchoring the core,
and a SYNC launch while its condition holds, ending the anchoring; not yet due, nothing happens; a target that has passed raises
STITCH_LATE and a missed deadline SYNC_TIMEOUT, with the bundle left unissued.
Completes: BUNDLE_ISSUE, STITCH_LAUNCH, SYNC_LAUNCH and SYNC_TIMEOUT. -/
def Obligations.Bundles : Prop :=
  (∀ c : CoreId, let b := 0x4004020A0000848602051020_28080000
     launchOf b = 0x40 ∧ decodeA c (bitsOf b 80 40) = some (amvSlot c 0 0 0x105) ∧
     decodeV c (bitsOf b 40 40) = some (vpscSlot c 4 0xC0 8 1 1 0 0 0 true 0) ∧ decodeT c (bitsOf b 0 40) = some (siglSlot c 5 1) ∧
     decodeA c 0 = none ∧ decodeV c (0x3F * 2 ^ 34) = none ∧ decodeT c (0x01 * 2 ^ 34 + 1) = none) ∧
  (∀ (s : State) (c : CoreId), s.notStopped c = true →
     let l := launchOf (s.bundle c)
     (s.get F.coreSeqTask.state c.ix = qRun → l / 64 = 0 →
       exec (.bundleIssue c) s = .next (if s.now = (s.core c).prevNext + l % 64 then issueBundle c s else s)) ∧
     (s.get F.coreSeqTask.state c.ix = qWaitStitch → l / 64 = 1 →
       let t := 16 * s.stReg c (l / 16 % 4) + l % 16
       ((s.core c).prevNext ≤ t → exec (.stitchLaunch c) s =
         .next (if s.now = t then issueBundle c (s.set F.coreSeqTask.anchor c.ix 1) else s)) ∧
       (t < (s.core c).prevNext → (s.core c).prevNext ≤ s.now → s.bit F.coreSfltRec.valid c.ix = false →
         ∃ u, exec (.stitchLaunch c) s = .next u ∧ u.get F.coreSfltRec.code c.ix = sStitchLate ∧
           u.get F.coreSfltRec.detail c.ix = l / 16 % 4 ∧ (u.core c).stopAt = some s.now ∧ u.pc c = s.pc c ∧ Still s u)) ∧
     (s.syncQ = [] → s.get F.coreSeqTask.state c.ix = qWaitSync → l / 64 = 2 → bitsOf (s.descWord c (l % 64)) 0 4 = 3 →
       let holds := s.waitHolds c (s.descWord c (l % 64))
       let dl := bitsOf (s.descWord c (l % 64)) 32 16
       ((s.core c).prevNext ≤ s.now → exec (.syncLaunch c) s =
         .next (if holds then issueBundle c (s.set F.coreSeqTask.anchor c.ix 0) else s)) ∧
       ((holds = true ∨ dl = 0 ∨ s.now < 16 * ((s.core c).waitFrom + dl) + 15) → exec (.syncTimeout c) s = .next s) ∧
       (holds = false → dl ≠ 0 → 16 * ((s.core c).waitFrom + dl) + 15 ≤ s.now → s.bit F.coreSfltRec.valid c.ix = false →
         ∃ u, exec (.syncTimeout c) s = .next u ∧ u.get F.coreSfltRec.code c.ix = sSyncTimeout ∧
           u.get F.coreSfltRec.detail c.ix = l % 64 ∧ (u.core c).stopAt = some s.now ∧ u.pc c = s.pc c ∧ Still s u)))

/-- R170, R176, R198: a bundle of three zero slots only moves the program counter on; a task begins at ENTRY, anchored, its targets at the
launch stitch, its loop stack as it stands, and the fault record before it cleared.
R185: a cap below the declared sum schedules reduced entries from the first window at least 64 stitches later and raises CREDIT-CAP, and
one at or above it while they hold or are due schedules the declared ones (the model's choice for a cap that rises and stays below, entry 191);
a change due for another window stays; the window's begin applies them, ⌊entry × CAP ÷ DECL⌋ in every core, and leaves the declared entries
alone.  Completes: BUNDLE_ISSUE, TASK_LAUNCH, CREDIT_CAP_CHANGE and CAP_ENFORCE_START. -/
def Obligations.TaskStartAndCap : Prop :=
  (∀ (s : State) (c : CoreId),
     (s.bundle c % 2 ^ 120 = 0 → s.pc c < 2047 → s.get F.coreSeqTask.state c.ix = qRun → s.notStopped c = true →
       launchOf (s.bundle c) / 64 = 0 → s.now = (s.core c).prevNext + launchOf (s.bundle c) % 64 →
       ∃ t, exec (.bundleIssue c) s = .next t ∧ t.pc c = s.pc c + 1 ∧ (t.core c).prevNext = s.now + 1 ∧
         (t.core c).results = (s.core c).results ∧ CoresBut c s t ∧ RegsBut [.coreSeqPc, .coreSeqTask] s t ∧ t.engines = s.engines ∧
         Still s t) ∧
     (s.get F.coreSeqTask.state c.ix = qWaitLaunch → s.now + 1 < 16 * s.get F.coreSeqLaunch.stitch c.ix →
       exec (.taskLaunch c) s = .next s) ∧
     (s.get F.coreSeqTask.state c.ix = qWaitLaunch → 16 * s.get F.coreSeqLaunch.stitch c.ix ≤ s.now + 1 → s.dieDark c.die = false →
       ∃ t, exec (.taskLaunch c) s = .next t ∧ t.pc c = s.get F.coreSeqTask.entry c.ix % 2048 ∧
         t.get F.coreSeqTask.anchor c.ix = 1 ∧ t.get F.coreSfltRec.valid c.ix = 0 ∧ t.get F.coreSeqPc.loop_depth c.ix = s.get F.coreSeqPc.loop_depth c.ix ∧
         (∀ n < 4, t.get F.coreSeqSt.stitch (c.ix n) = s.get F.coreSeqLaunch.stitch c.ix % 2 ^ 64) ∧
         (t.core c).loops = (s.core c).loops ∧ (t.core c).stopAt = none ∧ (t.core c).prevNext = 16 * s.get F.coreSeqLaunch.stitch c.ix ∧
         t.get F.coreSeqTask.state c.ix ∈ [qRun, qWaitStitch, qWaitSync] ∧
         CoresBut c s t ∧ RegsBut [.coreSeqPc, .coreSeqTask, .coreSeqSt, .coreSfltRec, .stwSchedFirst] s t ∧ t.engines = s.engines ∧ Still s t)) ∧
  (∀ (s : State) (c : CluId),
     let cap := s.get F.cluCredCap.cap c.ix
     let decl := s.get F.cluCredCap.decl c.ix
     (Map.find s.capSeen c = some (cap, decl) → exec (.creditCapChange c) s = .next s) ∧
     (Map.find s.capSeen c ≠ some (cap, decl) →
       let due := Map.getD s.capDue c []
       let later := fun (enf : Bool) => ∃ (t : State) (w : Nat) (l : List CapDue), exec (.creditCapChange c) s = .next t ∧
         Map.find t.capDue c = some (l ++ [⟨w, cap, enf⟩]) ∧ (∀ e, e ∈ l ↔ e ∈ due ∧ e.win ≠ w) ∧
         s.stitch + 64 ≤ 256 * w ∧ 256 * w < s.stitch + 64 + 256 ∧ Map.find t.capSeen c = some (cap, decl) ∧
         t.eventSeq = (s.eventSeq + 1) % 2 ^ 32 ∧ RegsBut [.nirEvqCnt] s t ∧ Quiet s t
       (cap < decl → later true) ∧
       (decl ≤ cap → (match due.getLast? with | some d => d.enf | none => s.bit F.cluCredCap.enforced c.ix) = true → later false) ∧
       (decl ≤ cap → (match due.getLast? with | some d => d.enf | none => s.bit F.cluCredCap.enforced c.ix) = false →
         exec (.creditCapChange c) s = .next { s with capSeen := Map.put s.capSeen c (cap, decl) })) ∧
     ((∀ e ∈ Map.getD s.capDue c [], s.stitch < 256 * e.win) → exec (.capEnforceStart c) s = .next s) ∧
     (∀ (pre post : List CapDue) (d : CapDue), Map.getD s.capDue c [] = pre ++ d :: post → 256 * d.win ≤ s.stitch →
       (∀ e ∈ post, s.stitch < 256 * e.win) → ∃ t, exec (.capEnforceStart c) s = .next t ∧
         (∀ e, e ∈ Map.getD t.capDue c [] ↔ e ∈ pre ++ post ∧ s.stitch < 256 * e.win) ∧
         t.get F.cluCredCap.enforced c.ix = (if d.enf then 1 else 0) ∧
         (∀ (k : Fin 4) (n : Fin 16), t.get F.coreCredEff.budget ((CoreId.mk c.die c.clu k).ix n) =
           (if d.enf then s.get F.coreCredTab.budget ((CoreId.mk c.die c.clu k).ix n) * d.cap / max 1 decl
             else s.get F.coreCredTab.budget ((CoreId.mk c.die c.clu k).ix n)) % 2 ^ 15) ∧
         RegsBut [.cluCredCap, .coreCredEff] s t ∧ Quiet s t))

/-! ## Synchronisation, signals and the fabric (chapter 09) -/

/-- R304, R306, R307: SIGL and SRST update their object in the cycle after the issue, HSIG in the cycle it arrives; a test or read sees an update
from the next cycle on; a count stops at 0xFFFF with OVF, and a reset comes before the increments of its cycle and leaves OVF.
R305: an input port takes one update a cycle; a further one is presented in the port's next free cycle.
Completes: SIGL, SRST and HSIG_WRITE. -/
def Obligations.SyncObjects : Prop :=
  (∀ (s : State) (c : CoreId) (obj : Fin 128) (inc : Fin 256), canT s c →
    (inc ≠ 0 → exec (.sigl c obj inc) s = .next ((s.settleSync.addSync ⟨s.now + 1, c.cluId, obj, false, inc, c.core⟩).setCore c
      { s.core c with nextT := s.now + 1 })) ∧
    exec (.srst c obj) s = .next ((s.settleSync.addSync ⟨s.now + 1, c.cluId, obj, true, 0, c.core⟩).setCore c
      { s.core c with nextT := s.now + 1 })) ∧
  (∀ (s : State) (k : CluId) (obj : Fin 128) (inc : Fin 256) (rst : Bool),
    ((rst = false ∧ inc = 0) → exec (.hsigWrite k obj inc rst) s = .next s) ∧
    ((rst = true ∨ inc ≠ 0) → exec (.hsigWrite k obj inc rst) s = .next (s.settleSync.addSync ⟨s.now, k, obj, rst, inc, 6⟩))) ∧
  (∀ (s : State) (u : SyncUpd),
    ((∀ x ∈ s.syncQ, ¬ (x.clu = u.clu ∧ x.port = u.port ∧ x.due = u.due)) → s.addSync u = { s with syncQ := insertUpd u s.syncQ }) ∧
    (∃ d, u.due ≤ d ∧ (∀ x ∈ s.syncQ, x.clu = u.clu → x.port = u.port → x.due ≠ d) ∧
      s.addSync u = { s with syncQ := insertUpd { u with due := d } s.syncQ })) ∧
  (∀ (s : State) (u : SyncUpd), s.syncQ = [u] →
    (s.now ≤ u.due → s.settleSync = s) ∧ (u.due < s.now → s.settleSync = applySync { s with syncQ := [] } u)) ∧
  (∀ (s : State) (k : CluId) (obj inc port : Nat) (rst : Bool), (0 < inc ∨ rst = true) →
    let old := if rst then 0 else s.get F.cluSynObj.count (k.ix obj)
    let t := applySync s ⟨0, k, obj, rst, inc, port⟩
    t.get F.cluSynObj.count (k.ix obj) = min (old + inc) 0xFFFF ∧
    t.get F.cluSynObj.ovf (k.ix obj) = (if 0xFFFF < old + inc then 1 else s.get F.cluSynObj.ovf (k.ix obj)) ∧
    t.get F.cluSynStat.ovf k.ix = (if 0xFFFF < old + inc then min (s.get F.cluSynStat.ovf k.ix + 1) 0xFFFF
      else s.get F.cluSynStat.ovf k.ix)) ∧
  (∀ (a b : SyncUpd), a.due = b.due → a.reset = true → b.reset = false →
    insertUpd a (insertUpd b []) = [a, b] ∧ insertUpd b (insertUpd a []) = [a, b])

/-- R222, R308, R309: SIG sends one message towards the bound cluster, discards it where none is bound, and a SIGNAL frame to another module it
may reach; a message at its object's cluster presents its increment, one a cycle (R305), and one whose way is blocked is discarded and
counted; at an output a signal merges with one that names its object, or moves on.
R291, R300, R301, R311, R503: a packet takes its next hop and is counted, waits for room ahead or, counted, for its output; one with no way
on ends WINDOW_CLOSED; a failed check is retried and counted, and after sixteen failed retries in a row the link is FAILED and what it
strands ends WINDOW_CLOSED; a static-lane error discards its flit, is recorded and halts the partition three stitches later; a die's route
tables take up the links failed now (R502).
Completes: SIG, SIGNAL_MESSAGE, DYNAMIC_FLIT_HOP, STATIC_LANE_ERROR and ROUTE_TABLE_REWRITE. -/
def Obligations.SignalsAndHops : Prop :=
  ((∀ (s : State) (c : CoreId) (d : Fin 64), canT s c →
     let w := s.descWord c d
     let slot := fun t : State => t.setCore c { s.core c with nextT := s.now + 1 }
     bitsOf w 0 4 = 2 → (bitsOf w 4 1 = 0 ∨ s.bit F.coreSeqTask.anchor c.ix = true) →
     (bitsOf w 32 1 = 0 →
       (s.bound c.die (bitsOf w 5 5) (bitsOf w 10 7) = none →
         exec (.sig c d) s = .next (slot (s.set F.cluRtrCnt.sigdrop c.cluId.ix (min (s.get F.cluRtrCnt.sigdrop c.cluId.ix + 1) 0xFFFF)))) ∧
       (∀ k, s.bound c.die (bitsOf w 5 5) (bitsOf w 10 7) = some k → exec (.sig c d) s = .next (slot { s with
         msgs := s.msgs ++ [{ body := .signal (bitsOf w 17 7) (bitsOf w 24 8), src := c, at_ := c.cluId, dst := k,
                              ready := s.now + 1 + s.sigLat c.cluId k, since := s.now + 1 }] }))) ∧
     (bitsOf w 32 1 = 1 → s.torusOk (bitsOf w 33 16) = false → exec (.sig c d) s = .next (slot s)) ∧
     (bitsOf w 32 1 = 1 → s.torusOk (bitsOf w 33 16) = true → ∃ f, exec (.sig c d) s = .next (slot { s with inject := s.inject ++ [f] }) ∧
       f.data = [] ∧ bitsOf f.hdr.toNat 0 4 = 3 ∧ bitsOf f.hdr.toNat 16 16 = bitsOf w 33 16)) ∧
   (∀ (s : State) (i : Nat) (m : Msg) (obj inc : Nat), s.msgs[i]? = some m → m.body = .signal obj inc →
     (s.sigBlocked m.at_ m.dst = none →
       ((m.at_ ≠ m.dst ∨ s.now < m.ready ∨ s.now < m.since + 2 ∨ signalAhead s.msgs i m obj = true) → exec (.signalMessage i) s = .next s) ∧
       (m.at_ = m.dst → m.ready ≤ s.now → m.since + 2 ≤ s.now → signalAhead s.msgs i m obj = false →
         (s.sigPortTaken m.dst = false → exec (.signalMessage i) s =
           .next (({ s with msgs := s.msgs.eraseIdx i } : State).settleSync.addSync ⟨s.now, m.dst, obj, false, inc, 4⟩)) ∧
         (s.sigPortTaken m.dst = true → ∃ t, exec (.signalMessage i) s = .next t ∧ t.msgs = s.msgs ∧
           t.get F.cluRtrCnt.waits m.dst.ix = min (s.get F.cluRtrCnt.waits m.dst.ix + 1) 0xFFFF ∧
           FieldsBut [(F.cluRtrCnt.waits, m.dst.ix)] s t ∧ Quiet s t))) ∧
     (∀ dir, s.sigBlocked m.at_ m.dst = some dir → ∀ x ∈ [Instr.signalMessage i, .dynamicFlitHop i true], m.at_ ≠ m.dst →
       ∃ t, exec x s = .next t ∧ t.msgs = s.msgs.eraseIdx i ∧
       t.get F.cluRtrCnt.sigdrop m.at_.ix = min (s.get F.cluRtrCnt.sigdrop m.at_.ix + 1) 0xFFFF ∧ t.syncQ = s.syncQ ∧
       (∀ e, cluNext m.at_ dir = some e → (m.at_.die.val, m.at_.clu.val, hopPort m.at_ dir) ∉ s.reported →
         t.eventSeq = (s.eventSeq + 1) % 2 ^ 32) ∧
       RegsBut [.cluRtrCnt, .nirEvqCnt] s t ∧ Quiet s t) ∧
     (∀ dir e, m.at_ ≠ m.dst → s.sigBlocked m.at_ m.dst = none → dimOrder m.at_ m.dst = some dir → cluNext m.at_ dir = some e →
       (∀ j n, mergeWith s.msgs i m obj inc = some (j, n) → ∃ t, exec (.dynamicFlitHop i true) s = .next t ∧
         t.msgs = (s.msgs.set j { m with body := .signal obj (n + inc) }).eraseIdx i ∧ n + inc ≤ 255 ∧ j ≠ i ∧
         t.get F.cluRtrCnt.sigmerge m.at_.ix = min (s.get F.cluRtrCnt.sigmerge m.at_.ix + 1) 0xFFFF ∧
         FieldsBut [(F.cluRtrCnt.sigmerge, m.at_.ix)] s t ∧ Quiet s t) ∧
       (mergeWith s.msgs i m obj inc = none → m.since + 2 ≤ s.now → s.outputBusy m dir = false →
         s.outputLost i m dir e (enterPort m.at_ e dir) = false → ∃ t, exec (.dynamicFlitHop i true) s = .next t ∧
         t.msgs = s.msgs.set i (s.hopped m e dir) ∧ t.laneFree m.at_ dir 2 = s.now + m.flits ∧ t.regs = s.regs ∧ Quiet s t)))) ∧
  ((∀ (s : State) (i dir : Nat) (m : Msg) (e : CluId), s.msgs[i]? = some m → m.body.lane ≠ 2 → m.at_ ≠ m.dst →
     let ended := fun (t : State) => t.msgs = s.msgs.eraseIdx i ∧
       ∀ id, (m.body = .compl id ∨ (m.body = .xfer id ∧ ∀ x ∈ s.flights, x.id = id → x.status = none)) →
         ∀ x ∈ t.flights, x.id = id → x.status = some xWindowClosed
     (s.dynNext m.at_ m.dst = none → ∀ ok, ∃ t, exec (.dynamicFlitHop i ok) s = .next t ∧ ended t ∧ t.regs = s.regs ∧ Quiet s t) ∧
     (s.dynNext m.at_ m.dst = some dir → cluNext m.at_ dir = some e → s.hopOk m.at_ dir = true →
       ((s.now < m.since + 3 ∨ bufferFull s m e (enterPort m.at_ e dir) = true) → ∀ ok, exec (.dynamicFlitHop i ok) s = .next s) ∧
       (m.since + 3 ≤ s.now → bufferFull s m e (enterPort m.at_ e dir) = false →
         ((s.outputBusy m dir = true ∨ s.outputLost i m dir e (enterPort m.at_ e dir) = true) → ∀ ok,
           ∃ t, exec (.dynamicFlitHop i ok) s = .next t ∧ t.msgs = s.msgs ∧
           t.get F.cluRtrCnt.waits m.at_.ix = min (s.get F.cluRtrCnt.waits m.at_.ix + 1) 0xFFFF ∧
           FieldsBut [(F.cluRtrCnt.waits, m.at_.ix)] s t ∧ Quiet s t) ∧
         (s.outputBusy m dir = false → s.outputLost i m dir e (enterPort m.at_ e dir) = false →
           (∃ t, exec (.dynamicFlitHop i true) s = .next t ∧ t.msgs = s.msgs.set i (s.hopped m e dir) ∧
             t.laneFree m.at_ dir m.body.lane = s.now + m.flits ∧
             t.get F.cluRtrCnt.dynpkt m.at_.ix = min (s.get F.cluRtrCnt.dynpkt m.at_.ix + 1) 0xFFFF ∧
             FieldsBut [(F.cluRtrCnt.dynpkt, m.at_.ix)] s t ∧ Quiet s t) ∧
           (m.tries < 16 → ∃ t, exec (.dynamicFlitHop i false) s = .next t ∧ t.msgs = s.msgs.set i { m with tries := m.tries + 1 } ∧
             t.get F.cluRtrErr.retry e.ix = min (s.get F.cluRtrErr.retry e.ix + 1) 0xFFFF ∧
             FieldsBut [(F.cluRtrErr.retry, e.ix)] s t ∧ Quiet s t) ∧
           (16 ≤ m.tries → ∃ t, exec (.dynamicFlitHop i false) s = .next t ∧ ended t ∧
             t.linkState e (enterPort m.at_ e dir) = 2 ∧ t.eventSeq = (s.eventSeq + 1) % 2 ^ 32 ∧
             RegsBut [.cluRtrLink, .nirFpClu, .nirFpHead, .nirEvqCnt] s t ∧ Quiet s t))))) ∧
   (∀ (s : State) (c : CluId) (port : Fin 7) (lane : Fin 4), ∃ t, exec (.staticLaneError c port lane) s = .next t ∧
     t.get F.cluRtrErr.static_err c.ix = 1 ∧ t.get F.cluRtrErr.port c.ix = port ∧ t.get F.cluRtrErr.lane c.ix = lane ∧
     t.get F.cluRtrErrstitch.stitch c.ix = s.stitch % 2 ^ 64 ∧ t.flights = s.flights.map (s.loseFlit c port lane) ∧
     (∀ p, s.partOf c.die = some p → Map.find s.halts p = none → ∃ h, Map.find t.halts p = some h ∧ h.haltAt = s.stitch + 3 ∧
       h.byCore = false) ∧
     RegsBut [.cluRtrErr, .cluRtrErrstitch] s t ∧ Quiet s t) ∧
   (∀ (s : State) (d : DieIx), ∃ t, exec (.routeTableRewrite d) s = .next t ∧
     Map.find t.rerouted d.val = (if s.failedLinks d = [] then none else some (s.failedLinks d)) ∧
     t = { s with rerouted := t.rerouted }))

/-! ## Memories, transfers and windows (chapter 08) -/

/-- R280: the checks of an arrival fall in their order; each rejection has its status and is counted (R287, R289, R290), and only an arrival
that passes all of them is granted; the window entry counts as it stood when the cycle began (R262). -/
def Obligations.ArrivalChecks : Prop :=
  ∀ (s : State) (who : Sender) (a n win : Nat),
    let t := winTable a
    let w := s.before.window t.1 (t.2.2 win)
    let r := arrivalCheck who a n win s
    let mapped := (addrSpace a = 0 ∨ addrSpace a = 4) ∧ s.coreMappedOut (addrDie a) (addrClu a) (addrCore a) = true
    let dark := s.darkAt a = true ∧ s.regionFenced a n = false
    let denied := ∀ k, who.cls = some k → w.srcMask.testBit k = false ∨ (w.modF = true ∧ k = 3 ∧ w.modId ≠ who.modId)
    let outside := ¬ (addrSpace a = w.space ∧ w.base ≤ addrOfs a ∧ addrOfs a + n ≤ w.base + w.size)
    (mapped → r = (xUnavailable, s)) ∧
    (¬ mapped → dark → r.1 = xWindowClosed ∧ RegsBut [.cluSbufFence] s r.2 ∧
      ∀ k, addrCluId a = some k → addrSpace a ≠ 2 →
        r.2.get F.cluSbufFence.late_lines k.ix = min (s.get F.cluSbufFence.late_lines k.ix + 1) 0xFFFF) ∧
    (¬ mapped → ¬ dark → s.gates a n ≠ [] → r.1 = xWindowClosed ∧
      r.2.get ⟨t.2.1, 0, 16⟩ (t.2.2 0) = min (s.get ⟨t.2.1, 0, 16⟩ (t.2.2 0) + 1) 0xFFFF ∧ RegsBut [.cluSbufFence, t.2.1] s r.2 ∧
      ∀ k, addrCluId a = some k → addrSpace a ≠ 2 →
        r.2.get F.cluSbufFence.refused k.ix = min (s.get F.cluSbufFence.refused k.ix + 1) 0xFFFF) ∧
    (¬ mapped → ¬ dark → s.gates a n = [] →
      (w.open_ = false → r.1 = xWindowClosed ∧ r.2.get ⟨t.2.1, 0, 16⟩ (t.2.2 0) = min (s.get ⟨t.2.1, 0, 16⟩ (t.2.2 0) + 1) 0xFFFF) ∧
      (w.open_ = true → denied → r.1 = xSourceDenied ∧
        r.2.get ⟨t.2.1, 16, 16⟩ (t.2.2 0) = min (s.get ⟨t.2.1, 16, 16⟩ (t.2.2 0) + 1) 0xFFFF) ∧
      (w.open_ = true → ¬ denied → outside → r.1 = xOutOfWindow ∧
        r.2.get ⟨t.2.1, 32, 16⟩ (t.2.2 0) = min (s.get ⟨t.2.1, 32, 16⟩ (t.2.2 0) + 1) 0xFFFF) ∧
      (w.open_ = true → ¬ denied → ¬ outside → r = (if s.available a n then xOk else xUnavailable, s)))

/-- R278: XFER queues the descriptor's transfer on its channel, or ends it CHANNEL_FULL behind eight; a launch takes the oldest once the channel
is free, with the check-value setting of the cycle, and a packet of it starts on the dynamic lane unless it is static (R294); a destination
that does not exist ends it ADDRESS_FAULT.  Completes: XFER and TRANSFER_LAUNCH. -/
def Obligations.TransferQueue : Prop :=
  (∀ (s : State) (c : CoreId) (d : Fin 64) (src : Nat), canT s c →
    let w := s.descWord c d
    let ch := bitsOf w 5 4
    let q := (s.chan c.cluId ch).queue
    bitsOf w 0 4 = 1 → s.xferSource c (bitsOf w 9 2) (bitsOf w 12 40) (bitsOf w 128 24) = .ok src →
    (bitsOf w 4 1 = 0 ∨ s.bit F.coreSeqTask.anchor c.ix = true) →
    (q.length < 8 → ∃ t, exec (.xfer c d) s = .next t ∧ (t.chan c.cluId ch).queue = q ++ [s.xferOf c d src] ∧
      t.get F.xferChStat.queued (c.cluId.ix ch) = q.length + 1 ∧ t.xferSeq = s.xferSeq + 1 ∧ t.flights = s.flights ∧
      (∀ a ∈ (s.xferOf c d src).ownLines, 0 < (t.mark a).pend) ∧
      t.core c = { s.core c with nextT := s.now + 1 } ∧ CoresBut c s t ∧ RegsBut [.xferChStat] s t ∧ Still s t) ∧
    (8 ≤ q.length → exec (.xfer c d) s = .next ({ s with
      xferSeq := s.xferSeq + 1
      flights := s.flights ++ [{ s.xferOf c d src with status := some xChannelFull }] }.setCore c { s.core c with nextT := s.now + 1 }))) ∧
  (∀ (s : State) (c : CluId) (ch : Fin 16),
    ((s.chan c ch).cur ≠ none ∨ (s.chan c ch).queue = []) → exec (.transferLaunch c ch) s = .next s) ∧
  (∀ (s : State) (c : CluId) (ch : Fin 16) (x : Xfer) (q : List Xfer), (s.chan c ch).cur = none → (s.chan c ch).queue = x :: q →
    ((s.now < x.issued + 1 ∨ s.now < (s.chan c ch).freeAt) → exec (.transferLaunch c ch) s = .next s) ∧
    (x.issued + 1 ≤ s.now → (s.chan c ch).freeAt ≤ s.now → s.launchRefusal x = none →
      ∃ t, exec (.transferLaunch c ch) s = .next t ∧ (t.chan c ch).queue = q ∧ (t.chan c ch).cur = some x.id ∧
        t.flights = s.flights ++ [{ x with launched := some s.now, poly := s.before.get F.chkCfg.poly (c.ix ch)
                                           acc := s.before.bit F.chkCfg.acc (c.ix ch) }] ∧
        t.get F.xferChStat.busy (c.ix ch) = 1 ∧
        (x.dynamic = false → t.msgs = s.msgs) ∧
        (x.dynamic = true → ∀ k, x.target = some k → ∃ m, t.msgs = s.msgs ++ [m] ∧ m.body = .xfer x.id ∧ m.at_ = c ∧ m.dst = k ∧
          m.ready = s.now + s.dynLat c k ∧ m.flits = max 1 ((x.total + 15) / 16)) ∧
        RegsBut [.xferChStat, .chkRun] s t ∧ Quiet s t) ∧
    (x.issued + 1 ≤ s.now → (s.chan c ch).freeAt ≤ s.now → ∀ st, s.launchRefusal x = some st → x.status = none →
      (∀ y ∈ s.flights, y.id ≠ x.id) → ∃ t y, exec (.transferLaunch c ch) s = .next t ∧ (t.chan c ch).queue = q ∧
        (t.chan c ch).cur = none ∧ t.flight x.id = some y ∧ y.status = some st ∧ Still s t))

/-- R279, R264: a channel reads its next line, unmarked, in the bank's transfer-out position where no static access wants it (R260); a pending
line makes a transfer that is not static wait, an ERR line ends it MARKED_SOURCE with the lines before it sent, and a unit that is no longer
available ends it UNIT_UNAVAILABLE (R268).
R281: a decided transfer's completion is recorded in LAST, counted by its status and, static and not OK, raises WINDOW; one not decided,
or whose completion is still on its way (R293), changes nothing.  Completes: TRANSFER_SOURCE_READ and TRANSFER_COMPLETION. -/
def Obligations.TransferReadsAndCompletes : Prop :=
  (∀ (s : State) (c : CluId) (ch : Fin 16) (x : Xfer), (s.chan c ch).cur = some x.id → s.flight x.id = some x →
     x.srck < 2 → x.fixed = false → x.torus = none → x.chk = 0 → x.acc = false → x.status = none → x.completed = false → x.chan = ch.val →
     x.core.cluId = c → (x.read = 0 ∨ x.asked < s.now) → x.read < x.len → x.read = x.data.length → x.pos < x.total → s.upsets = [] →
     let a := x.src + x.read
     let n := min (256 - a % 256) (x.len - x.read)
     let usable := addrSpace a = 1 → s.available a n = true ∧ s.gates a n = []
     let ends := fun (st : Nat) => ∃ t y, exec (.transferSourceRead c ch) s = .next t ∧ t.flight x.id = some y ∧ y.fin = st ∧
       y.total = x.data.length ∧ (t.chan c ch).cur = none ∧ Still s t
     (s.openPos a 5 = false → exec (.transferSourceRead c ch) s = .next s) ∧
     (s.openPos a 5 = true → wheelPos (bankOf a) s.now = 5 ∧
       (0 < (s.mark a).pend → exec (.transferSourceRead c ch) s = .next s) ∧
       ((s.mark a).pend = 0 → ¬ usable → ends xUnavailable) ∧
       ((s.mark a).pend = 0 → usable → (s.mark a).err = true → ends xMarkedSource) ∧
       ((s.mark a).pend = 0 → usable → (s.mark a).err = false → ∃ t y, exec (.transferSourceRead c ch) s = .next t ∧
         t.flight x.id = some y ∧ y.data = x.data ++ s.bytes a n ∧ y.read = x.read + n ∧ y.status = none ∧
         (x.read + n < x.len → (t.chan c ch).cur = some x.id) ∧
         (x.len = x.read + n → (t.chan c ch).cur = none ∧ (t.chan c ch).freeAt = s.now + 1) ∧
         t.claimed a 5 = true ∧ RegsBut [.xferChStat] s t ∧ Quiet s t))) ∧
  (∀ (s : State) (x : Xfer), s.flight x.id = some x →
     let ix := x.core.cluId.ix x.chan
     ((x.status = none ∨ x.completed = true ∨ s.complAway x.id = true) → exec (.transferCompletion x.id) s = .next s) ∧
     (∀ st : Fin 16, x.status = some st.val → x.completed = false → s.complAway x.id = false → x.isReload = false →
       ∃ t, exec (.transferCompletion x.id) s = .next t ∧
       t.get F.xferChLast.status ix = st.val ∧ t.get F.xferChLast.desc ix = x.desc % 64 ∧ t.get F.xferChLast.landed ix = x.landed % 2 ^ 24 ∧
       (st.val = xOk → t.get F.xferChStat.done ix = min (s.get F.xferChStat.done ix + 1) 0xFFFF ∧
         t.get F.xferChRej.rejected ix = s.get F.xferChRej.rejected ix) ∧
       (st.val ≠ xOk → t.get F.xferChRej.rejected ix = min (s.get F.xferChRej.rejected ix + 1) 0xFFFF) ∧
       (x.csen = true → x.csdst = false → (st.val = xOk ∨ x.csrej = true) →
         (∀ u ∈ s.syncQ, ¬ (u.clu = x.core.cluId ∧ u.port = 5 ∧ u.due = s.now + 1)) →
         (⟨s.now + 1, x.core.cluId, x.csobj, false, x.csinc, 5⟩ : SyncUpd) ∈ t.syncQ) ∧
       (x.fixed = true → st.val ≠ xOk → s.bit F.coreSfltRec.valid x.core.ix = false →
         t.get F.coreSfltRec.code x.core.ix = sWindow ∧ t.get F.coreSfltRec.src x.core.ix = 3) ∧
       (x.draining = false → (s.chan x.core.cluId x.chan).cur ≠ some x.id → t.flight x.id = none) ∧
       (x.fixed = false → t.cores = s.cores ∧ RegsBut [.xferChLast, .xferChStat, .xferChRej, .cluSynObj, .cluSynStat] s t) ∧ Still s t))

/-- R280, R166: a packet that has come through, or the first bytes of a static transfer at the end of their legs, meets the destination's checks,
is granted or rejected; a static transfer whose route has lost a link ends WINDOW_CLOSED (R23); a rejection from another cluster travels to
the issuing one (R293).  A granted transfer's next line is written in the destination bank's transfer-in position and not before, replacing
the line's marks; a row of a weight plane waits at port 0 (R88).  Completes: TRANSFER_ARRIVAL and TRANSFER_LINE_LAND. -/
def Obligations.TransferLands : Prop :=
  (∀ (s : State) (x : Xfer) (a : Nat), s.flight x.id = some x → x.dst = some a → x.granted = false → x.status = none →
    x.fill = false → x.launched ≠ none → 0 < x.read → x.pos < x.total → x.csen = false →
    let n := destBytes x.len x.chk
    let judged := fun (s' : State) =>
      let r := arrivalCheck ⟨s.srcClass x.core.cluId a, 0⟩ a n x.win s'
      ∃ t y, exec (.transferArrival x.id) s = .next t ∧ t.flight x.id = some y ∧
        (r.1 = xOk → y.granted = true ∧ y.status = none ∧ t.regs = s.regs ∧ t.msgs = s'.msgs) ∧
        (r.1 ≠ xOk → y.granted = false ∧ y.status = some r.1 ∧
          ∀ k, x.target = some k → (k = x.core.cluId → t.msgs = s'.msgs) ∧ (k ≠ x.core.cluId → ∃ m, t.msgs = s'.msgs ++ [m] ∧
            m.body = .compl x.id ∧ m.at_ = k ∧ m.dst = x.core.cluId ∧ m.ready = s.now + s.dynLat k x.core.cluId)) ∧ Still s t
    (x.fixed = false → ∀ (i : Nat) (m : Msg), s.msgs.zipIdx.find? (fun p => decide (p.1.body = .xfer x.id)) = some (m, i) → m.at_ = m.dst →
      ((s.now < m.ready ∨ s.now < m.since + 3) → exec (.transferArrival x.id) s = .next s) ∧
      (m.ready ≤ s.now → m.since + 3 ≤ s.now → judged { s with msgs := s.msgs.eraseIdx i })) ∧
    (x.fixed = true → x.srck ≠ 2 →
      (s.now < s.completeAt x 1 → exec (.transferArrival x.id) s = .next s) ∧
      (s.completeAt x 1 ≤ s.now → s.routeOpen x = true → judged s) ∧
      (s.completeAt x 1 ≤ s.now → s.routeOpen x = false → ∃ t y, exec (.transferArrival x.id) s = .next t ∧ t.flight x.id = some y ∧
        y.status = some xWindowClosed ∧ t.regs = s.regs ∧ t.msgs = s.msgs ∧ Still s t))) ∧
  (∀ (s : State) (x : Xfer) (a : Nat), Sound s → s.flight x.id = some x → x.dst = some a → x.granted = true → x.status = none →
    x.fixed = false → s.upsets = [] → x.holes = [] → x.total ≤ x.data.length → x.pos < x.total → addrSpace (a + x.pos) = addrSpace a →
    let b := a + x.pos
    (addrSpace a < 2 →
      let n := min (256 - b % 256) (x.total - x.pos)
      (s.offered x b (x.pos + n) = false → exec (.transferLineLand x.id) s = .next s) ∧
      (s.offered x b (x.pos + n) = true → wheelPos (bankOf b) s.now = (if addrSpace a = 1 then 4 else 2) ∧
        ∃ t y, exec (.transferLineLand x.id) s = .next t ∧ StoresAt s t b ((x.data.drop x.pos).take n) ∧ (t.mark b).sat = false ∧
          (t.mark b).err = false ∧ t.flight x.id = some y ∧ y.landed = x.landed + n ∧
          (x.pos + n < x.total → y.status = none) ∧ (x.total = x.pos + n → x.refused = 0 → x.fin = xOk → y.status = some xOk) ∧
          t.cores = s.cores ∧ t.engines = s.engines ∧ t.stitch = s.stitch ∧ t.cc = s.cc)) ∧
    (∀ c, addrSpace a = 4 → addrCoreId b = some c →
      let n := min (32 - b % 32) (x.total - x.pos)
      (s.offered x b (x.pos + n) = false → exec (.transferLineLand x.id) s = .next s) ∧
      (s.offered x b (x.pos + n) = true → ∃ t, exec (.transferLineLand x.id) s = .next t ∧
        t.planeQ = s.planeQ ++ [{ core := c, port := 0, ofs := addrOfs b, data := (x.data.drop x.pos).take n, rows := 1, read := false
                                  xfer := some x.id }] ∧ t.regs = s.regs ∧ Quiet s t)))

/-- R273, R276, R277: a static line's request issues in a cycle from which the reported latency meets the transfer-in position, behind the
writes posted to its controller, which are performed first, and takes what its bytes hold then; a fill returns exactly at its reported
latency or, retried, later with its mark; a dynamic read past correction ends ECC_UE; a retry is counted; posted writes are performed oldest
first; an invalidate leaves no slot valid after its cycle (R270).
Completes: STACK_LINE_REQUEST, STACK_READ_RETURN, STACK_WRITE and CACHE_INVALIDATE_ALL. -/
def Obligations.StackTraffic : Prop :=
  (∀ (s : State) (c : CluId) (ch : Fin 16) (x : Xfer) (d : Nat), (s.chan c ch).cur = some x.id → s.flight x.id = some x →
    x.srck = 2 → x.fixed = true → x.fill = false → x.dspace < 2 → x.dst = some d → x.read < x.len → x.completed = false →
    (x.read = 0 ∨ x.asked < s.now) → (∀ k, Map.find s.lastReq c = some k → k < s.now) →
    let a := x.src + x.read
    let t := d + x.read
    let n := min (256 - t % 256) (x.len - x.read)
    let due := s.now + s.stackLat a
    (wheelPos (bankOf t) due ≠ tiPos t → exec (.stackLineRequest c ch) s = .next s) ∧
    (wheelPos (bankOf t) due = tiPos t → ∃ u y, exec (.stackLineRequest c ch) s = .next u ∧
      u.stackReads = s.stackReads ++ [⟨some x.id, c, a, n, .line t, s.now, some due, u.bytes a n⟩] ∧
      (∀ w ∈ u.stackWrites, sameSide w.addr a = false) ∧
      u.flight x.id = some y ∧ y.read = x.read + n ∧ Map.find u.lastReq c = some s.now ∧ RegsBut [.xferChStat] s u ∧
      ((∀ w ∈ s.stackWrites, sameSide w.addr a = false) → Quiet s u))) ∧
  (∀ (s : State) (i : Nat) (r : StackRead) (e : ReadEcc), s.stackReads[i]? = some r →
    (s.returnsNow r e = false → exec (.stackReadReturn i e) s = .next s) ∧
    (∀ t0, r.due = some t0 → (s.returnsNow r .clean = true ↔ s.now = t0) ∧ (s.returnsNow r e = true → e ≠ .clean → t0 < s.now)) ∧
    (∀ slot, s.returnsNow r e = true → r.target = .cache slot → ∃ t, exec (.stackReadReturn i e) s = .next t ∧
      t.stackReads = s.stackReads.eraseIdx i ∧
      (e ≠ .clean → t.get F.stkEcc.retry (Ix.stw (addrDie r.addr) (sideOf (addrOfs r.addr))) =
        min (s.get F.stkEcc.retry (Ix.stw (addrDie r.addr) (sideOf (addrOfs r.addr))) + 1) 0xFFFF) ∧
      (∀ k, Map.find s.cache (r.clu, slot) = some k → k.line = r.addr / 256 → k.filling = true →
        (k.drop = true → Map.find t.cache (r.clu, slot) = none) ∧
        (k.drop = false → ∃ k', Map.find t.cache (r.clu, slot) = some k' ∧ k'.valid = true ∧ k'.filling = false ∧
          k'.late = decide (e ≠ .clean) ∧ (e ≠ .failed → k'.data = r.data))) ∧
      RegsBut [.stkEcc, .cluSynObj, .cluSynStat] s t ∧ t.cores = s.cores ∧ t.mem = s.mem ∧ t.stitch = s.stitch ∧ t.cc = s.cc) ∧
    (∀ x, r.target = .data → r.due = none → r.xfer = some x.id → s.flight x.id = some x → x.completed = false →
      ∃ t y, exec (.stackReadReturn i .failed) s = .next t ∧ t.flight x.id = some y ∧ y.fin = xEccUe ∧ t.mem = s.mem)) ∧
  (∀ (s : State) (die : DieIx) (side : Fin 2) (pre post : List StackWr) (w : StackWr), Sound s → s.upsets = [] →
    ((∀ v ∈ s.stackWrites, sameSide v.addr (fabStack die (side * 2 ^ 34)) = false) → exec (.stackWrite die side) s = .next s) ∧
    (s.stackWrites = pre ++ w :: post → (∀ v ∈ pre, sameSide v.addr (fabStack die (side * 2 ^ 34)) = false) →
      sameSide w.addr (fabStack die (side * 2 ^ 34)) = true →
      ∃ t, exec (.stackWrite die side) s = .next t ∧ t.stackWrites = pre ++ post ∧ StoresAt s t w.addr w.data ∧ t.regs = s.regs ∧
        t.cores = s.cores ∧ t.stitch = s.stitch ∧ t.cc = s.cc)) ∧
  (∀ (s : State) (c : CluId), ∃ t, exec (.cacheInvalidateAll c) s = .next t ∧
    (∀ e ∈ t.cache, e.1.1 = c → e.2.drop = true ∧ ∃ q, e.2.endsAt = some q ∧ q ≤ s.now) ∧
    (∀ (u : State) (a : Nat), u.cache = t.cache → s.now < u.now → u.cacheHit c a = none) ∧
    (∀ k, k.1 ≠ c → Map.find t.cache k = Map.find s.cache k) ∧ t.regs = s.regs ∧ Quiet s t)

/-- R261, R265, R266: a dynamic request joins its bank's queue of four, one a cycle, port 0 before port 1; the oldest is served in the RW
position that nothing else has taken: a write stores its bytes, a read answers them; one whose destination cannot be reached is answered with
why; a corrected word is written back in the MT position, where every SCRUB_DIV-th turn also scrubs the next row, and an uncorrectable word
is counted and reported.  Completes: RW_QUEUE_REQUEST, RW_ACCESS, ECC_WRITEBACK and SCRUB_LINE. -/
def Obligations.BankEvents : Prop :=
  (∀ (s : State) (port : Fin 2) (a : Addr) (w : Option (List Byte)) (n : Nat) (b : BankId),
    let len := (w.map List.length).getD n
    let q := Map.getD s.rwq b []
    let r : RwReq := ⟨port, s.now, a.toNat, w, n⟩
    let joins := fun (q' : List RwReq) => exec (.rwQueueRequest port a w n) s = .next { s with rwq := Map.put s.rwq b q' }
    s.accessStop a.toNat len w.isSome = none → bankIdOf a.toNat = some b → a.toNat % 256 + len ≤ 256 →
    (4 ≤ q.length → exec (.rwQueueRequest port a w n) s = .next s) ∧
    (q.length < 4 → (∀ x ∈ q, x.entered < s.now) → joins (q ++ [r])) ∧
    (∀ (q0 : List RwReq) (l : RwReq), q = q0 ++ [l] → q.length < 4 →
      (s.now ≤ l.entered → l.port = port.val → exec (.rwQueueRequest port a w n) s = .next s) ∧
      (l.entered = s.now → l.port = 1 → port = 0 → joins (q0 ++ [r, { l with entered := s.now + 1 }])) ∧
      (l.entered = s.now → l.port = 0 → port = 1 → joins (q ++ [{ r with entered := s.now + 1 }])))) ∧
  (∀ (s : State) (port : Fin 2) (a : Addr) (w : Option (List Byte)) (n st : Nat),
    s.accessStop a.toNat ((w.map List.length).getD n) w.isSome = some st → ∃ t, exec (.rwQueueRequest port a w n) s = .next t ∧
      t.out = s.out ++ [.dynDone a.toNat st []] ∧ t.rwq = s.rwq ∧ RegsBut [.cluSbufFence] s t ∧ Quiet s t) ∧
  (∀ (s : State) (b : BankId) (r : RwReq) (rest : List RwReq), Sound s → s.upsets = [] → Map.getD s.rwq b [] = r :: rest →
    ((s.atPos r.addr (rwPos b) = false ∨ s.now ≤ r.entered ∨ s.claimed r.addr (rwPos b) = true) → exec (.rwAccess b) s = .next s) ∧
    (s.atPos r.addr (rwPos b) = true → r.entered < s.now → s.claimed r.addr (rwPos b) = false →
      wheelPos (bankOf r.addr) s.now = rwPos b ∧ ∃ t, exec (.rwAccess b) s = .next t ∧ Map.getD t.rwq b [] = rest ∧
      t.claimed r.addr (rwPos b) = true ∧
      (∀ st, s.accessStop r.addr ((r.write.map List.length).getD r.n) r.write.isSome = some st →
        t.mem = s.mem ∧ t.out = s.out ++ [.dynDone r.addr st []] ∧ RegsBut [.cluSbufFence] s t) ∧
      (s.accessStop r.addr ((r.write.map List.length).getD r.n) r.write.isSome = none →
        (∀ bs, r.write = some bs → StoresAt s t r.addr bs ∧ (t.mark r.addr).err = false ∧ t.out = s.out ++ [.dynDone r.addr xOk []]) ∧
        (r.write = none → t.mem = s.mem ∧ t.out = s.out ++ [.dynDone r.addr xOk (s.bytes r.addr r.n)]) ∧ t.regs = s.regs) ∧
      t.cores = s.cores ∧ t.engines = s.engines ∧ t.stitch = s.stitch ∧ t.cc = s.cc)) ∧
  (∀ (s : State) (b : BankId) (w : Nat) (pre post : List Nat),
    (s.atPos (bankLine b 0) (mtPos b) = false → exec (.eccWriteback b) s = .next s) ∧
    (s.atPos (bankLine b 0) (mtPos b) = true → s.writebacks = pre ++ w :: post → (∀ v ∈ pre, bankIdOf (8 * v) ≠ some b) →
      bankIdOf (8 * w) = some b → ∃ t, exec (.eccWriteback b) s = .next t ∧ t.writebacks = pre ++ post ∧
        (∀ e, e ∈ t.upsets ↔ e ∈ s.upsets ∧ e ≠ (w, false)) ∧ t.regs = s.regs ∧ Quiet s t)) ∧
  (∀ (s : State) (b : BankId), let row := Map.getD s.scrubRow b 0
    ((s.atPos (bankLine b 0) (mtPos b) = false ∨ s.now / 8 % s.scrubDiv b ≠ 0) → ∀ flip, exec (.scrubLine b flip) s = .next s) ∧
    (s.atPos (bankLine b 0) (mtPos b) = true → s.now / 8 % s.scrubDiv b = 0 → s.upsets = [] →
      (exec (.scrubLine b none) s = .next { s with scrubRow := Map.put s.scrubRow b ((row + 1) % bankRows b) }) ∧
      (∀ w : Fin 32, (s.mark (bankLine b row)).pend = 0 → bankLine b row % 256 = 0 → bankLine b row / 8 + w.val ∉ s.writebacks →
        (∃ t, exec (.scrubLine b (some (w, false))) s = .next t ∧ t.upsets = [(bankLine b row / 8 + w.val, false)] ∧
          t.writebacks = s.writebacks ++ [bankLine b row / 8 + w.val] ∧
          t.get (bankEcc b).1 (bankEcc b).2.2 = min (s.get (bankEcc b).1 (bankEcc b).2.2 + 1) 0xFFFF ∧ Quiet s t) ∧
        (∃ t, exec (.scrubLine b (some (w, true))) s = .next t ∧ t.upsets = [(bankLine b row / 8 + w.val, true)] ∧
          t.get (bankEcc b).2.1 (bankEcc b).2.2 = min (s.get (bankEcc b).2.1 (bankEcc b).2.2 + 1) 0xFFFF ∧
          t.eventSeq = (s.eventSeq + 1) % 2 ^ 32 ∧ Quiet s t))))

/-- R27, R283: a window command less than 64 st ahead of its stitch is LATE, one on an entry without RT LOCKED, and any other waits for its
stitch; at T the entry takes the new image, in the cycle after an activation of that stitch, and every other entry stays.
Completes: WINDOW_COMMAND and WINDOW_COMMAND_EFFECT. -/
def Obligations.WindowCommands : Prop :=
  ∀ (s : State) (d : DieIx),
    (∀ at_ : BitVec 64,
      let sel := fun f => s.get f (Ix.stw d)
      let e := winEntry d (sel F.stwWincmdSel.table) (sel F.stwWincmdSel.cluster) (sel F.stwWincmdSel.core) (sel F.stwWincmdSel.entry)
      (at_.toNat < s.stitch + 64 → ∃ t, exec (.windowCommand d at_) s = .next t ∧ t.get F.stwWincmdResult.status (Ix.stw d) = 1 ∧
        t.winUpdates = s.winUpdates ∧ t.eventSeq = (s.eventSeq + 1) % 2 ^ 32 ∧
        RegsBut [.stwWincmdAt, .stwWincmdResult, .nirEvqCnt] s t ∧ Quiet s t) ∧
      (s.stitch + 64 ≤ at_.toNat → (sel F.stwWincmdSel.table = 3 ∨ s.bit ⟨e.1, 1, 1⟩ e.2 = false) →
        ∃ t, exec (.windowCommand d at_) s = .next t ∧ t.get F.stwWincmdResult.status (Ix.stw d) = 2 ∧
        t.winUpdates = s.winUpdates ∧ RegsBut [.stwWincmdAt, .stwWincmdResult] s t ∧ Quiet s t) ∧
      (s.stitch + 64 ≤ at_.toNat → sel F.stwWincmdSel.table ≠ 3 → s.bit ⟨e.1, 1, 1⟩ e.2 = true →
        ∃ t u, exec (.windowCommand d at_) s = .next t ∧ t.get F.stwWincmdResult.status (Ix.stw d) = 0 ∧
        t.winUpdates = s.winUpdates ++ [u] ∧ u.at_ = at_.toNat ∧ u.die = d.val ∧
        RegsBut [.stwWincmdAt, .stwWincmdResult] s t ∧ Quiet s t)) ∧
    ((s.activatesNow d = true ∨ ∀ u ∈ s.winUpdates, u.die = d.val → s.stitch < u.at_) → exec (.windowCommandEffect d) s = .next s) ∧
    (∀ u : WinUpdate, s.activatesNow d = false → s.winUpdates = [u] → u.die = d.val → u.at_ ≤ s.stitch →
      let e := winEntry u.die u.table u.clu u.core u.entry
      ∃ t, exec (.windowCommandEffect d) s = .next t ∧ t.winUpdates = [] ∧
        t.window e.1 e.2 = { open_ := decide (bitsOf u.image 0 1 ≠ 0), rt := decide (bitsOf u.image 1 1 ≠ 0), space := bitsOf u.image 2 4
                             srcMask := bitsOf u.image 6 6, modF := decide (bitsOf u.image 12 1 ≠ 0), modId := bitsOf u.image 13 16
                             base := bitsOf u.image 32 39, size := bitsOf u.image 71 40 } ∧
        RegsBut [e.1] s t ∧ (∀ f ix, ix ≠ e.2 → t.get f ix = s.get f ix) ∧ Quiet s t)

/-! ## Calibration, ages and precision windows (chapters 03 and 04) -/

/-- R104, R106, R108, R110: a slot starts in cycle 0 of a stitch its entry names, charges its covered arrays, and takes those it finds idle, in
access, or computing with their re-issue interval over to CAL.  Anywhere else, with the halt held or on a dark die, nothing happens.
R104, R105, R114, R122: cycle 2,400 ends the slot; an array that ran the full sequence has its trims, its record and VALID, and goes to IDLE,
or to RETIRED with its reason; the others go to IDLE.  With both sensors excluded STALE, PEND and T_CAL stay (R113).
The converters' results are the model's free values within what Table 03.1 states (entry 97).
Completes: CAL_SLOT_START and CAL_SLOT_END. -/
def Obligations.CalibrationSlots : Prop :=
  (∀ (s : State) (c : CoreId) (i : Fin 8),
     ((s.cc ≠ 0 ∨ s.calStarts c i s.stitch = false ∨ s.haltHeld c.die = true ∨ s.dieDark c.die = true ∨
        (∃ r ∈ (s.core c).cal, r.entry = i.val ∧ r.start = s.stitch)) → exec (.calSlotStart c i) s = .next s) ∧
     (s.cc = 0 → s.calStarts c i s.stitch = true → s.haltHeld c.die = false → s.dieDark c.die = false →
       (∀ r ∈ (s.core c).cal, r.entry ≠ i.val ∨ r.start ≠ s.stitch) →
       (s.creditFault c (s.calCovers c i).length 150 = none → ∃ t run, exec (.calSlotStart c i) s = .next t ∧
         (t.core c).cal = (s.core c).cal ++ [run] ∧ run.entry = i.val ∧ run.start = s.stitch ∧ run.temp = s.cluTemp c.cluId ∧
         run.blind = s.cluBlind c.cluId ∧
         (∀ a : Fin 64, a.val ∈ run.arrays ↔ (c.arr a ∈ s.calCovers c i ∧ s.calTakes (c.arr a) = true)) ∧
         (∀ a : Fin 64, a.val ∈ run.full ↔ (a.val ∈ run.arrays ∧
           (s.bit F.coreCalSlot.mandatory (c.ix i) = true ∨ s.bit F.coreCalrecStat.pend (c.arr a).ix = true))) ∧
         (∀ a : Fin 64, a.val ∈ run.arrays → t.get F.arrState.state (c.arr a).ix = aCal) ∧
         t.get F.coreCalStat.active c.ix = 1 ∧ t.get F.coreCalStat.entry c.ix = i.val ∧
         RegsBut [.arrState, .coreCredUse, .coreCalStat, .coreCalrecStat, .nirEvqCnt] s t ∧ CoresBut c s t ∧ Still s t) ∧
       (∀ f, s.creditFault c (s.calCovers c i).length 150 = some f → s.bit F.coreSfltRec.valid c.ix = false →
         ∃ t, exec (.calSlotStart c i) s = .next t ∧ t.get F.coreSfltRec.code c.ix = f.code % 64 ∧
           t.get F.coreSfltRec.src c.ix = 3 ∧ (t.core c).cal = (s.core c).cal ∧ Still s t))) ∧
  (∀ (s : State) (c : CoreId) (i : Fin 8) (pre rest : List CalRun) (run : CalRun),
     ((∀ r ∈ (s.core c).cal, r.entry = i.val → s.now < 16 * r.start + 2400) → exec (.calSlotEnd c i) s = .next s) ∧
     ((s.core c).cal = pre ++ run :: rest → run.entry = i.val → 16 * run.start + 2400 ≤ s.now →
       (∀ r ∈ pre, r.entry ≠ i.val ∨ s.now < 16 * r.start + 2400) →
       ∃ t, exec (.calSlotEnd c i) s = .next t ∧ (t.core c).cal = pre ++ rest ∧
         t.get F.coreCalStat.active c.ix = (if pre ++ rest = [] then 0 else 1) ∧
         (∀ a : Fin 64, a.val ∈ run.arrays → s.get F.arrState.state (c.arr a).ix = aCal → (s.engine (c.arr a)).clearAfter = none →
           (a.val ∉ run.full → t.get F.arrState.state (c.arr a).ix = aIdle) ∧
           (a.val ∈ run.full →
             let before := (List.finRange 64).filter fun b => run.full.contains b.val && decide (b < a)
             let conv := ({ s with draws := s.draws + calEvals * before.length }).calSequence (c.arr a) run.temp
             let n := if conv.any fun q => decide (0 < q.misses) then min (s.get F.coreCalrecStat.miss_run (c.arr a).ix + 1) 4 else 0
             t.get F.coreCalrecStamp.stitch (c.arr a).ix = run.start % 2 ^ 64 ∧
             (run.blind = false → t.get F.coreCalrecTemp.t_cal (c.arr a).ix = run.temp % 1024) ∧
             t.get F.coreCalrecStat.valid (c.arr a).ix = 1 ∧ t.get F.coreCalrecStat.lag (c.arr a).ix = 0 ∧
             (run.blind = false → s.cluBlind c.cluId = false → t.get F.coreCalrecStat.stale (c.arr a).ix = 0 ∧
               t.get F.coreCalrecStat.pend (c.arr a).ix = 0) ∧
             (run.blind = true → t.get F.coreCalrecTemp.t_cal (c.arr a).ix = s.get F.coreCalrecTemp.t_cal (c.arr a).ix) ∧
             t.get F.coreCalrecStat.miss_run (c.arr a).ix = n ∧ conv.length = 32 ∧
             (∀ (k : Nat) (r : CalConv), conv[k]? = some r →
               t.get F.arrTrim.offs ((c.arr a).ix k) = r.offs ∧ t.get F.arrTrim.gain ((c.arr a).ix k) = r.gain) ∧
             (retireReason conv n = none → t.get F.arrState.state (c.arr a).ix = aIdle) ∧
             (∀ why k, retireReason conv n = some (why, k) →
               t.get F.arrState.state (c.arr a).ix = aRetired ∧ t.get F.coreCalrecStat.retire_why (c.arr a).ix = why))) ∧
         RegsBut [.arrState, .arrTrim, .coreCalrecStamp, .coreCalrecTemp, .coreCalrecStat, .coreCalStat, .coreArrstat, .nirFpClu, .nirFpDie,
           .nirFpHead, .nirEvqCnt] s t ∧ CoresBut c s t ∧ Still s t))

/-- R100, R101: at the end of a window an array's age grows by its wall time times the ageing factor of the mean delivered temperature
and the use share; an array that was off throughout does not age; a save stores every array's age and lets no saved one fall.
Completes: AGE_UPDATE and AGE_SAVE. -/
def Obligations.ArrayAges : Prop :=
  (∀ (s : State) (c : CluId),
    (s.stitch % 65536 ≠ 0 → exec (.ageUpdate c) s = .next s) ∧
    (s.stitch % 65536 = 0 → ∃ t, exec (.ageUpdate c) s = .next t ∧
      (∀ a : ArrId, a.die = c.die → a.clu = c.clu → s.knownArrays.count a = 1 →
        let e := s.engine a
        let u : Rat := ((e.busy - s.busyAhead a : Nat) : Rat) / (65536 * 16)
        ((s.arrState a ≠ aOff ∨ e.wasOn = true) → (t.engine a).ageSixteenths = e.ageSixteenths +
          16 * wallHours (s.wall - Map.getD s.ageWall c 0) * ageFactor (s.meanTemp c) * (1 / 5 + 4 / 5 * u)) ∧
        (s.arrState a = aOff → e.wasOn = false → (t.engine a).ageSixteenths = e.ageSixteenths) ∧
        t.get F.coreCalrecAge.eqh a.ix = (t.engine a).ageSixteenths.floor.toNat % 2 ^ 32) ∧
      (∀ a : ArrId, (a.die ≠ c.die ∨ a.clu ≠ c.clu) → t.engine a = s.engine a) ∧
      Map.find t.tempSum c = none ∧
      Map.getD t.ageWall c 0 = s.wall ∧ RegsBut [.coreCalrecAge] s t ∧ t.cores = s.cores ∧ Still s t)) ∧
  (∀ s : State, ∃ t, exec .ageSave s = .next t ∧
    (∀ p ∈ s.engines, p.2.ageSixteenths ≤ Map.getD t.flashAges p.1 0) ∧
    (∀ a, Map.getD s.flashAges a 0 ≤ Map.getD t.flashAges a 0 ∧
      (Map.getD t.flashAges a 0 = Map.getD s.flashAges a 0 ∨ ∃ p ∈ s.engines, p.1 = a ∧ Map.getD t.flashAges a 0 = p.2.ageSixteenths)) ∧
    t.regs = s.regs ∧ Quiet s t)

/-- R155, R156, R158: in the first cycle of a window a die's sets are delivered and its notice made, from the counts of the cycles before;
what counts in that cycle stays for the new window.  A die that does not lead records its own flags; its notice goes to its lead, once.
The lead merges its own last window with its partition's notices once all are in, or 256 st after the window's end, and only once; more than
eight flagged layers make a storm window.
Completes: PRECISION_WINDOW_END, PRECISION_FLAG_NOTICE and PRECISION_LEAD_EVALUATE. -/
def Obligations.PrecisionWindows : Prop :=
  (∀ (s : State) (d : DieIx),
    let due := s.cc = 0 ∧ s.stitch % 4096 = 0 ∧ 0 < s.stitch ∧ (Map.find s.precOut d.val).map (fun n => n.win) ≠ some (s.stitch - 4096)
    let b := s.before
    (¬ due → exec (.precisionWindowEnd d) s = .next s) ∧
    (due → ∃ t n, exec (.precisionWindowEnd d) s = .next t ∧ Map.find t.precOut d.val = some n ∧ n.win = s.stitch - 4096 ∧
      n.merged = false ∧
      (∀ l ∈ n.layers, l.2.1 = s.precKinds d l.1 l.2.2 ∧ l.2.2.satel =
        ((s.precHeld.filter fun e => decide (e.1 = (d.val, l.1))).map fun e => e.2.satel).sum +
        (((b.precSets d).filter fun ix => decide (b.get F.vecPcntLayer.layer ix = l.1)).map fun ix => (b.pcnt ix).satel).sum) ∧
      (∀ ix ∈ b.precSets d, ∃ l ∈ n.layers, l.1 = b.get F.vecPcntLayer.layer ix) ∧
      (∀ ix : Ix, ix.die = d.val → s.pcnt ix = b.pcnt ix → t.pcnt ix = {}) ∧
      (∀ ix : Ix, ix.die = d.val → (s.pcnt ix).satel < 2 ^ F.vecPcntSatel.count.width →
        (t.pcnt ix).satel = (s.pcnt ix).satel - (b.pcnt ix).satel) ∧
      (∀ ix : Ix, ix.die ≠ d.val → t.pcnt ix = s.pcnt ix) ∧
      (s.isLead d = false → t.get F.stwPrecStat.flagged (Ix.stw d) = (n.layers.filter fun l => decide (l.2.1 ≠ 0)).length % 512 ∧
        t.get F.stwPrecLastwin.stitch (Ix.stw d) = n.win % 2 ^ 64) ∧
      t.mem = s.mem ∧ t.stitch = s.stitch ∧ t.cc = s.cc ∧ t.cores = s.cores ∧ t.engines = s.engines)) ∧
  (∀ (s : State) (d : DieIx) (n : PrecNotice) (p : Nat), Map.find s.precOut d.val = some n → s.partOf d = some p →
    (s.isLead d = true → exec (.precisionFlagNotice d) s = .next s) ∧
    ((∃ q ∈ s.precIn, q.1 = p ∧ q.2.1 = d.val ∧ q.2.2.win = n.win) → exec (.precisionFlagNotice d) s = .next s) ∧
    (s.isLead d = false → (∀ q ∈ s.precIn, q.1 = p → q.2.1 = d.val → q.2.2.win ≠ n.win) →
      exec (.precisionFlagNotice d) s = .next { s with precIn := s.precIn ++ [(p, d.val, n)] })) ∧
  (∀ (s : State) (p : PartIx), Map.find s.precOut (s.leadDie p) = none → exec (.precisionLeadEvaluate p) s = .next s) ∧
  (∀ (s : State) (p : PartIx) (n : PrecNotice), Map.find s.precOut (s.leadDie p) = some n →
    let lead := s.leadDie p
    let mine := s.precIn.filter fun x => decide (x.1 = p.val) && decide (x.2.2.win = n.win) && decide (x.2.1 ≠ lead)
    let tot := (n.layers ++ mine.flatMap fun x => x.2.2.layers).foldl mergeLayer []
    let k := (tot.filter fun x => decide (x.2.1 ≠ 0)).length
    ((n.merged = true ∨ (s.stitch < n.win + 4352 ∧ s.noticesDue p lead n.win = true)) → exec (.precisionLeadEvaluate p) s = .next s) ∧
    (n.merged = false → (n.win + 4352 ≤ s.stitch ∨ s.noticesDue p lead n.win = false) → ∃ t, exec (.precisionLeadEvaluate p) s = .next t ∧
      Map.find t.precOut lead = some { n with merged := true } ∧
      t.precIn = s.precIn.filter (fun x => !(decide (x.1 = p.val) && decide (x.2.2.win ≤ n.win))) ∧
      t.get F.stwPrecStat.flagged (Ix.stw lead) = k % 512 ∧ t.get F.stwPrecLastwin.stitch (Ix.stw lead) = n.win % 2 ^ 64 ∧
      (k ≤ 8 → t.get F.stwPrecStat.storm (Ix.stw lead) = 0) ∧
      (8 < k → t.get F.stwPrecStat.storm (Ix.stw lead) = 1 ∧
        t.get F.stwPrecStorms.storm_win (Ix.stw lead) = min (s.get F.stwPrecStorms.storm_win (Ix.stw lead) + 1) 0xFFFF ∧
        t.get F.stwPrecEvcnt.flag_ev (Ix.stw lead) = s.get F.stwPrecEvcnt.flag_ev (Ix.stw lead)) ∧
      RegsBut [.stwPrecStat, .stwPrecStorms, .stwPrecEvcnt, .stwPrecLastwin, .stwPrecLastA, .stwPrecLastB, .stwPrecLastC, .stwPrecLastWin,
        .nirEvqCnt] s t ∧ Quiet s t))

/-! ## The KV cache (chapter 07) -/

/-- R235, R236, R240: an append at a seat's length writes its bytes in the lane that holds the block and advances the length; one out of order,
or without a free slot, breaks the seat; a role not enabled, or a seat not active or broken, does nothing.  A slot that an accepted command
will take is not free (the model's choice, entry 198).  The attention step's first staging starts in its cycle 12.
Completes: KV_APPEND. -/
def Obligations.KvAppends : Prop :=
  ∀ (s : State) (c : CoreId) (r : Fin 2) (p : Nat), s.partOf c.die = some p →
    let l : Lane := (c, r.val)
    let h := s.attHeader l
    let ix := l.ix h.seat
    let u := if s.bit F.coreKvfRoleCfg0.en l.ix then { s with stageAt := Map.put s.stageAt l (16 * s.stitch + 12) } else s
    let runs := s.bit F.coreKvfRoleCfg0.en l.ix = true ∧ s.bit F.coreKvfRoleSeat.active ix = true ∧ s.bit F.coreKvfRoleSeat.broken ix = false
    let len := s.get F.coreKvfRoleSeat.len ix
    let kvRegs := [Reg.coreKvfRoleSeat, .coreKvfRoleSlot, .coreKvfRoleFree, .coreKvfRoleHfree, .coreKvfRoleCnt, .coreKvfStat, .srvKvLen]
    let breaks := fun (t : State) (why : Nat) => t.get F.coreKvfRoleSeat.broken ix = 1 ∧ t.get F.coreKvfRoleSeat.len ix = len ∧
      t.get F.coreKvfRoleCnt.errors l.ix = min (s.get F.coreKvfRoleCnt.errors l.ix + 1) 0xFFFF ∧
      (s.bit F.srvKvLen.broken (Ix.mod p h.seat) = false → t.get F.srvKvLen.broken (Ix.mod p h.seat) = 1 ∧
        t.breaks = s.breaks ++ [s.seatBreak p l h.seat h.pos why]) ∧ RegsBut kvRegs s t ∧ Quiet s t
    (¬ runs → exec (.kvAppend c r) s = .next u) ∧
    (runs → h.pos ≠ len → ∃ t, exec (.kvAppend c r) s = .next t ∧ breaks t kvSeq) ∧
    (runs → h.pos = len → s.holds l (len / 64) = false → ∃ t, exec (.kvAppend c r) s = .next t ∧
      t.get F.coreKvfRoleSeat.len ix = (len + 1) % 2 ^ 17 ∧
      (s.get F.srvKvLen.len (Ix.mod p h.seat) = len → t.get F.srvKvLen.len (Ix.mod p h.seat) = (len + 1) % 2 ^ 17) ∧
      t.stageAt = u.stageAt ∧
      FieldsBut [(F.coreKvfRoleSeat.len, ix), (F.srvKvLen.len, Ix.mod p h.seat)] s t ∧ Quiet s t) ∧
    (runs → h.pos = len → s.holds l (len / 64) = true → len % 64 ≠ 0 → ∀ k, (s.seatSlots l h.seat)[len / 64 / s.laneNa l]? = some k →
      (s.get F.coreKvfRoleSlot.ref (l.ix k) ≤ 1 → s.upsets = [] → ∃ t, exec (.kvAppend c r) s = .next t ∧
        t.get F.coreKvfRoleSeat.len ix = (len + 1) % 2 ^ 17 ∧
        t.mem = (appendPieces (s.laneQ8 l) (s.laneG l) (len % 64)).foldl (fun m q => Memory.writeList m (s.slotAddr l k + q.1)
          (Memory.readN m (spadAddr c (256 * s.get F.coreKvfRoleCfg0.appline l.ix) + q.2.1) q.2.2)) s.mem ∧
        FieldsBut [(F.coreKvfRoleSeat.len, ix), (F.srvKvLen.len, Ix.mod p h.seat), (F.coreKvfRoleCnt.appends, l.ix)] s t ∧
        t.cores = s.cores ∧ t.engines = s.engines ∧ t.stitch = s.stitch ∧ t.cc = s.cc) ∧
      (1 < s.get F.coreKvfRoleSlot.ref (l.ix k) → ∃ t, exec (.kvAppend c r) s = .next t ∧ breaks t kvShared)) ∧
    (runs → h.pos = len → s.holds l (len / 64) = true → len % 64 = 0 →
      (u.kvSpare p l = false → ∃ t, exec (.kvAppend c r) s = .next t ∧ breaks t kvFull) ∧
      (u.kvSpare p l = true → ∃ t, exec (.kvAppend c r) s = .next t ∧
        t.homes l = (s.homes l).tail ∧ s.homes l ≠ [] ∧ s.get F.coreKvfRoleFree.count l.ix ≠ 0 ∧
        t.get F.coreKvfRoleFree.count l.ix = (s.get F.coreKvfRoleFree.count l.ix - 1) % 2 ^ F.coreKvfRoleFree.count.width ∧
        t.get F.coreKvfRoleSlot.ref (l.ix (s.get F.coreKvfRoleFree.head l.ix)) = 1 ∧
        RegsBut kvRegs s t ∧ t.cores = s.cores ∧ t.engines = s.engines ∧ t.stitch = s.stitch ∧ t.cc = s.cc))

/-- R237, R238, R253: in the cycle its staging starts a block's lines are copied behind their header, with the scale bytes of positions not yet
written zero; an index without a block, or a broken seat, stages zero scales; the next staging starts one gap later.
R253, R254: the notice of a pass in flight requests a spilled block's lines one a cycle, once their largest latency reaches its staging.
Completes: KV_STAGING and PASS_NOTICE. -/
def Obligations.KvStagings : Prop :=
  (∀ (s : State) (c : CoreId) (r : Fin 2) (k : Fin 64) (p : Nat), Sound s → s.partOf c.die = some p → s.upsets = [] →
    let l : Lane := (c, r.val)
    let h := s.attHeader l
    let dst := spadAddr c (256 * (s.get F.coreKvfRoleCfg0.ringline l.ix + (h.rs + k) % 2 * (1 + s.blockLines l)))
    let lines := s.blockLines l
    let len := s.get F.coreKvfRoleSeat.len (l.ix h.seat)
    let i := k * s.laneNa l + s.laneIdx l
    let sc := (if s.laneQ8 l then 4096 else 2048) * s.laneG l
    let broken := s.bit F.coreKvfRoleSeat.broken (l.ix h.seat)
    let hdr := fun (c0 c1 idx flags : Nat) => natToBytes 4 c0 ++ natToBytes 4 c1 ++ natToBytes 4 idx ++ natToBytes 4 flags
    let next := Map.put s.stageAt l (s.now + s.stageGap p l h.seat k)
    ((s.bit F.coreKvfRoleCfg0.en l.ix = false ∨ h.cls ≤ k.val ∨ Map.find s.stageAt l ≠ some s.now) → exec (.kvStaging c r k) s = .next s) ∧
    (s.bit F.coreKvfRoleCfg0.en l.ix = true → k.val < h.cls → Map.find s.stageAt l = some s.now →
      (k.val = 0 → (s.seatSlots l h.seat).length ≤ h.cls) →
      ((s.seatSlots l h.seat)[k.val]? = none → ∃ t, exec (.kvStaging c r k) s = .next t ∧
        t.bytes dst 16 = hdr 0 0 0xFFFFFFFF (2 * boolNat broken) ∧
        t.bytes (dst + 256 + sc) (128 * s.laneG l) = List.replicate (128 * s.laneG l) 0#8 ∧ t.regs = s.regs ∧ t.stageAt = next ∧
        t.cores = s.cores ∧ t.stitch = s.stitch ∧ t.cc = s.cc) ∧
      (∀ slot, (s.seatSlots l h.seat)[k.val]? = some slot → broken = true → ∃ t, exec (.kvStaging c r k) s = .next t ∧
        t.bytes dst 16 = hdr 0 0 i (s.get F.coreKvfRoleSlot.loc (l.ix slot) + 2) ∧
        t.bytes (dst + 256 + sc) (128 * s.laneG l) = List.replicate (128 * s.laneG l) 0#8 ∧ t.regs = s.regs ∧ t.stageAt = next ∧
        t.cores = s.cores ∧ t.stitch = s.stitch ∧ t.cc = s.cc) ∧
      (∀ slot, (s.seatSlots l h.seat)[k.val]? = some slot → broken = false → s.get F.coreKvfRoleSlot.loc (l.ix slot) = 0 →
        (∀ n < lines, addrSpace (s.slotAddr l slot + 256 * n) < 2 ∧ (s.mark (s.slotAddr l slot + 256 * n)).err = false) →
        ∃ t, exec (.kvStaging c r k) s = .next t ∧ t.bytes dst 16 = hdr (min (len - 64 * i) 32) (min (len - 64 * i - 32) 32) i 0 ∧
        t.bytes (dst + 256) (256 * lines) = maskScales (s.laneQ8 l) (s.laneG l) len i (s.bytes (s.slotAddr l slot) (256 * lines)) ∧
        (∀ x, (x < dst ∨ dst + 256 * (1 + lines) ≤ x) → Memory.read t.mem x = Memory.read s.mem x) ∧ t.stageAt = next ∧
        RegsBut [.coreKvfRoleCnt, .coreSpadEcc, .cluSbufEcc] s t ∧ t.cores = s.cores ∧ t.stitch = s.stitch ∧ t.cc = s.cc))) ∧
  (∀ (s : State) (c : CoreId) (r : Fin 2) (k : Fin 64) (σ : Fin 512) (p slot : Nat) (q : Pass), s.partOf c.die = some p →
    s.passIn p σ = some q → (s.seatSlots (c, r.val) σ)[k.val]? = some slot →
    let l : Lane := (c, r.val)
    let a := s.slotAddr l slot
    let n := s.blockLines l
    let t0 := max s.now (Map.getD s.lastReq c.cluId 0 + 1)
    let goes := s.bit F.coreKvfRoleCfg0.en l.ix = true ∧ s.bit F.coreKvfRoleSlot.loc (l.ix slot) = true ∧
      s.stagingStart p l q k ≤ s.now + s.stackLmax a + n
    (¬ goes → exec (.passNotice c r k σ) s = .next s) ∧
    (goes → ∃ t rs, exec (.passNotice c r k σ) s = .next t ∧ t.stackReads = s.stackReads ++ rs ∧
      (∀ x ∈ rs, x.clu = c.cluId ∧ x.n = 256 ∧ ∃ i < n, x.addr = a + 256 * i ∧ x.issued = t0 + i ∧
        x.due = some (t0 + i + s.stackLat (a + 256 * i))) ∧
      (s.cacheUnits c.cluId ≠ [] → rs.length = n) ∧ t.regs = s.regs ∧ (s.stackWrites = [] → t.mem = s.mem) ∧
      t.stitch = s.stitch ∧ t.cc = s.cc ∧ t.cores = s.cores ∧ t.engines = s.engines)) ∧
  (∀ (s : State) (c : CoreId) (r : Fin 2) (k : Fin 64) (σ : Fin 512) (p : Nat), s.partOf c.die = some p →
    (s.passIn p σ = none ∨ (s.seatSlots (c, r.val) σ)[k.val]? = none) → exec (.passNotice c r k σ) s = .next s)

/-- R250, R28: a submitted KV command is checked as a whole against the tables as the accepted commands will leave them; it is accepted at a
stitch at least 64 st ahead and not before the one asked for, or refused with its status; a request for a stitch too near that no pass and no
swap moves is LATE (the model's reading, entry 188).
R249-R252: the oldest command that is due takes effect and is no longer pending: an opened seat is active and empty in every lane and in the
serving unit, a freed one is not active, a fork's seat has the length it takes, a spill or recall has its copies started; a completed copy
puts the block at its new place.
Completes: SEAT_OPEN, SEAT_FREE, FORK, SPILL, RECALL, KV_COMMAND_EFFECT and KV_COPY_DONE. -/
def Obligations.KvCommands : Prop :=
  (∀ (s : State) (p : PartIx) (σ τ : Fin 512) (i0 : Fin 131072) (n : Fin 1024) (T : BitVec 64),
     ∀ x ∈ [(Instr.seatOpen p σ T, kvSeatOpen, 0, 0, 0), (.seatFree p σ T, kvSeatFree, 0, 0, 0), (.fork p σ τ i0 T, kvFork, τ.val, i0.val, 0),
       (.spill p σ i0 n T, kvSpill, 0, i0.val, n.val), (.recall p σ i0 n T, kvRecall, 0, i0.val, n.val)],
     let v := s.sets (Ix.mod p) [(F.srvKvCmd.op, x.2.1), (F.srvKvCmd.seat, σ.val), (F.srvKvCmd.seat2, x.2.2.1), (F.srvKvCmd.arg0, x.2.2.2.1),
       (F.srvKvCmd.arg1, x.2.2.2.2), (F.srvKvAt.stitch, T.toNat)]
     let seats := if x.2.1 = kvFork then [σ.val, x.2.2.1] else [σ.val]
     let at_ := v.kvStitch p seats T.toNat
     let cmd : KvCmd := { seq := s.kvSeq, part := p, op := x.2.1, seat := σ.val, seat2 := x.2.2.1, a0 := x.2.2.2.1, a1 := x.2.2.2.2, at_ := at_ }
     let st := if v.kvLate p seats T.toNat then 1 else (v.kvMirror p).kvStatus cmd
     s.stitch + 64 ≤ at_ ∧ T.toNat ≤ at_ ∧
     ∃ t, exec x.1 s = .next t ∧ t.kvCmds = (if st = 0 then insertCmd cmd s.kvCmds else s.kvCmds) ∧ t.get F.srvKvResult.status (Ix.mod p) = st ∧
       t.get F.srvKvResult.done (Ix.mod p) = 0 ∧ t.get F.srvKvCmd.op (Ix.mod p) = x.2.1 ∧ t.get F.srvKvCmd.seat (Ix.mod p) = σ.val ∧
       RegsBut [.srvKvCmd, .srvKvAt, .srvKvResult] s t ∧ Quiet s t) ∧
  ((∀ (s : State) (p : PartIx),
     ((∀ c ∈ s.kvCmds, c.part = p.val → s.now ≤ 16 * c.at_) → exec (.kvCommandEffect p) s = .next s) ∧
     (∀ cmd, s.kvDue p = some cmd → ∃ t, exec (.kvCommandEffect p) s = .next t ∧
       t.kvCmds = s.kvCmds.filter (fun c => decide (c.seq ≠ cmd.seq)) ∧
       (cmd.op = kvSeatOpen → t.get F.srvKvLen.active (Ix.mod cmd.part cmd.seat) = 1 ∧ t.get F.srvKvLen.len (Ix.mod cmd.part cmd.seat) = 0 ∧
         ∀ l ∈ s.lanes cmd.part, t.get F.coreKvfRoleSeat.active (l.ix cmd.seat) = 1 ∧ t.get F.coreKvfRoleSeat.len (l.ix cmd.seat) = 0 ∧
           t.get F.coreKvfRoleSeat.broken (l.ix cmd.seat) = 0) ∧
       (cmd.op = kvSeatFree → t.get F.srvKvLen.active (Ix.mod cmd.part cmd.seat) = 0 ∧
         ∀ l ∈ s.lanes cmd.part, t.get F.coreKvfRoleSeat.active (l.ix cmd.seat) = 0 ∧ t.get F.coreKvfRoleSeat.on (l.ix cmd.seat) = 0) ∧
       (cmd.op = kvFork → t.get F.srvKvLen.len (Ix.mod cmd.part cmd.seat2) = cmd.a0 % 2 ^ 17 ∧
         ∀ l ∈ s.lanes cmd.part, t.get F.coreKvfRoleSeat.len (l.ix cmd.seat2) = cmd.a0 % 2 ^ 17) ∧
       (kvFork < cmd.op → ∃ js, t.kvJobs = s.kvJobs ++ js ∧
         ∀ j ∈ js, j.seq = cmd.seq ∧ j.op = cmd.op ∧ j.seat = cmd.seat ∧ (j.core, j.role) ∈ s.lanes cmd.part) ∧ Quiet s t)) ∧
   (∀ (s : State) (i : Nat) (e : ReadEcc), s.kvJobs[i]? = none → exec (.kvCopyDone i e) s = .next s) ∧
   (∀ (s : State) (i : Nat) (e : ReadEcc) (j : KvJob), Sound s → s.kvJobs[i]? = some j → s.upsets = [] → s.stackWrites = [] →
     let l : Lane := (j.core, j.role)
     let n := 256 * s.blockLines l
     let bare := fun (x : KvJob) => { x with hold := none }
     ∃ t, exec (.kvCopyDone i e) s = .next t ∧ t.kvJobs.map bare = (s.kvJobs.erase j).map bare ∧
       (j.op = kvFork → StoresAt s t (s.homeAddr l j.dest) (s.bytes j.src n) ∧ t.get F.coreKvfRoleSlot.loc (l.ix j.slot) = 0) ∧
       (j.op = kvSpill → StoresAt s t (s.stackPos l j.dest) (s.bytes j.src n) ∧
         t.get F.coreKvfRoleSlot.loc (l.ix j.slot) = 1 ∧ t.get F.coreKvfRoleSlot.addr (l.ix j.slot) = j.dest % 2 ^ F.coreKvfRoleSlot.addr.width) ∧
       (j.op = kvRecall → StoresAt s t (s.homeAddr l j.dest) (s.bytes j.src n) ∧ t.get F.coreKvfRoleSlot.loc (l.ix j.slot) = 0) ∧
       t.cores = s.cores ∧ t.engines = s.engines ∧ t.stitch = s.stitch ∧ t.cc = s.cc))

/-! ## Clears, fences, cinches (chapters 08 and 09) -/

/-- R284, R285, R310, R375: in cycle 0 of its stitch a tenant clear zeroes the partition's scratchpads, shared buffers and stacks and no other
memory, closes its windows, empties its seats and sync objects, ends its contexts, clears its idle arrays, holds its scratchpads' wheels for
128 cycles and starts the stack clear of every lit die, which ends once its wall time has passed.
Completes: TENANT_CLEAR and STACK_CLEAR_DONE. -/
def Obligations.TenantClears : Prop :=
  (∀ (s : State) (p : PartIx), s.cc ≠ 0 → exec (.tenantClear p) s = .next s) ∧
  (∀ (s : State) (p : PartIx), Sound s → s.cc = 0 →
    let ds := s.diesOf p
    ∃ t, exec (.tenantClear p) s = .next t ∧
      (∀ a, Memory.read t.mem a = if addrSpace a ≤ 2 ∧ addrDie a ∈ ds then 0#8 else Memory.read s.mem a) ∧
      (∀ ix : Ix, ix.die ∈ ds → t.get ⟨.coreWin, 0, 1⟩ ix = 0 ∧ t.get ⟨.cluWin, 0, 1⟩ ix = 0 ∧ t.get ⟨.stkWin, 0, 1⟩ ix = 0 ∧
        t.get F.cluSynObj.count ix = 0 ∧ t.get F.coreKvfRoleSeat.active ix = 0) ∧
      (∀ (f : Fld) (ix : Ix), f.reg ∈ [Reg.coreWin, .cluWin, .stkWin] → ix.die ∉ ds → t.get f ix = s.get f ix) ∧
      (∀ σ : Nat, t.get F.srvKvLen.active (Ix.mod p σ) = 0) ∧ (∀ c ∈ t.kvCmds, c.part ≠ p.val) ∧
      (∀ x : Nat, s.ctx p x ≠ none → t.get F.srvCtx.state (Ix.mod p x) = cClosing) ∧
      (∀ a : ArrId, a.die.val ∈ ds → s.knownArrays.count a = 1 → s.arrState a = aIdle →
        t.get F.arrState.state a.ix = aClearing ∧ (t.engine a).clearEnd = some (s.now + 256)) ∧
      (∀ d ∈ ds, Map.find t.spadClear d = some (s.now + 128)) ∧
      (∀ d ∈ ds, s.dieDark d = false → Map.find t.clearing d = some s.wall ∧
        t.get F.stkStat.clearing (Ix.stw d 0) = 1 ∧ t.get F.stkStat.clearing (Ix.stw d 1) = 1) ∧
      t.stitch = s.stitch ∧ t.cc = s.cc) ∧
  (∀ (s : State) (d : DieIx),
    ((Map.find s.clearing d.val = none ∨ ∃ t0, Map.find s.clearing d.val = some t0 ∧ s.wall < t0 + stackClearWall) →
      exec (.stackClearDone d) s = .next s) ∧
    (∀ t0, Map.find s.clearing d.val = some t0 → t0 + stackClearWall ≤ s.wall → ∃ t, exec (.stackClearDone d) s = .next t ∧
      Map.find t.clearing d.val = none ∧ (∀ k, k ≠ d.val → Map.find t.clearing k = Map.find s.clearing k) ∧
      t.get F.stkStat.clearing (Ix.stw d 0) = 0 ∧ t.get F.stkStat.clearing (Ix.stw d 1) = 0 ∧
      FieldsBut [(F.stkStat.clearing, Ix.stw d 0), (F.stkStat.clearing, Ix.stw d 1)] s t ∧ Quiet s t))

/-- R287, R288: a fence's drain ends with nothing left to land, or 512 st after its start with WINDOW_CLOSED for what is left, from the module
and from the torus; the unit goes off from the stitch after, behind its closed gate, its contents lost and no others; a newly powered group is
ready once the time of its zeroing has passed.
Completes: FENCE_DRAIN_END, UNIT_POWER_OFF and GROUP_ZERO_DONE. -/
def Obligations.FencesAndUnits : Prop :=
  (∀ (s : State) (u : FenceUnit),
    let rest := s.flights.filter (landsIn u) ≠ [] ∨ s.arrivingIn u ≠ [] ∨ s.groupBusy u = true
    (Map.find s.fences u = none → exec (.fenceDrainEnd u) s = .next s ∧ exec (.unitPowerOff u) s = .next s) ∧
    (∀ f, Map.find s.fences u = some f →
      ((f.closedAt ≠ none ∨ (rest ∧ s.stitch < f.start + 512)) → exec (.fenceDrainEnd u) s = .next s) ∧
      (f.closedAt = none → (¬ rest ∨ f.start + 512 ≤ s.stitch) →
        (∃ t, exec (.fenceDrainEnd u) s = .next t ∧ Map.find t.fences u = some { f with closedAt := some s.stitch } ∧ t.arrivingIn u = [] ∧
          RegsBut [.cluSynObj, .cluSynStat] s t ∧ Quiet s t) ∧
        (s.flights.filter (landsIn u) = [] → s.arrivingIn u = [] →
          exec (.fenceDrainEnd u) s = .next { s with fences := Map.put s.fences u { f with closedAt := some s.stitch } }) ∧
        (∀ x, s.flights.filter (landsIn u) = [x] → s.flight x.id = some x → ∃ t y, exec (.fenceDrainEnd u) s = .next t ∧
          t.flight x.id = some y ∧ y.status = some xWindowClosed)) ∧
      ((f.off = true ∨ f.closedAt = none ∨ ∃ d, f.closedAt = some d ∧ s.stitch < d + 1) → exec (.unitPowerOff u) s = .next s))) ∧
  (∀ (s : State) (f : Fence) (d : Nat), Sound s → f.off = false → f.closedAt = some d → d + 1 ≤ s.stitch →
    (∀ (c : CluId) (i : Fin 8), Map.find s.fences (.sbuf c i) = some f → ∃ t, exec (.unitPowerOff (.sbuf c i)) s = .next t ∧
      Map.find t.fences (.sbuf c i) = some { f with off := true } ∧ t.sbufState c i = 2 ∧
      (∀ a, Memory.read t.mem a = if sbufAddr c (i * 65536) ≤ a ∧ a < sbufAddr c (i * 65536) + 65536 then 0#8 else Memory.read s.mem a) ∧
      RegsBut [.cluSbufStat] s t ∧ t.cores = s.cores ∧ t.stitch = s.stitch ∧ t.cc = s.cc) ∧
    (∀ (k : DieIx) (sd : Fin 2) (g : Fin 4), Map.find s.fences (.group k sd g) = some f → ∃ t, exec (.unitPowerOff (.group k sd g)) s = .next t ∧
      Map.find t.fences (.group k sd g) = some { f with off := true } ∧ (t.get F.stkStat.grp_ready (Ix.stw k sd)).testBit g = false ∧
      (t.get F.stkStat.grp_fencing (Ix.stw k sd)).testBit g = false ∧
      (∀ a, Memory.read t.mem a =
        if fabStack k ((4 * sd + g) * 2 ^ 32) ≤ a ∧ a < fabStack k ((4 * sd + g) * 2 ^ 32) + 2 ^ 32 then 0#8 else Memory.read s.mem a) ∧
      RegsBut [.stkStat] s t ∧ t.cores = s.cores ∧ t.stitch = s.stitch ∧ t.cc = s.cc) ∧
    (∀ c : CluId, Map.find s.fences (.region c) = some f → exec (.unitPowerOff (.region c)) s = .next s)) ∧
  (∀ (s : State) (k : DieIx) (sd : Fin 2) (g : Fin 4), Sound s →
    let key := (k.val, 4 * sd.val + g.val)
    ((Map.find s.zeroing key = none ∨ ∃ t0, Map.find s.zeroing key = some t0 ∧ s.wall < t0 + stackClearWall) →
      exec (.groupZeroDone k sd g) s = .next s) ∧
    (∀ t0, Map.find s.zeroing key = some t0 → t0 + stackClearWall ≤ s.wall → ∃ t, exec (.groupZeroDone k sd g) s = .next t ∧
      Map.find t.zeroing key = none ∧ (t.get F.stkStat.grp_ready (Ix.stw k sd)).testBit g = true ∧
      (∀ a, Memory.read t.mem a =
        if fabStack k ((4 * sd + g) * 2 ^ 32) ≤ a ∧ a < fabStack k ((4 * sd + g) * 2 ^ 32) + 2 ^ 32 then 0#8 else Memory.read s.mem a) ∧
      RegsBut [.stkStat] s t ∧ t.cores = s.cores ∧ t.stitch = s.stitch ∧ t.cc = s.cc))

/-- R312-R314, R317, R318: a request is BUSY, SPACING or given the next generation at a stitch at least 64 st ahead; a die reached too late, or dark,
takes no part; at T every counter of a die's powered units stands in its shadow as the cycles before left it; the last report makes the
cinch done.
Completes: CINCH_REQUEST, CINCH_BROADCAST, CINCH_COPY and CINCH_REPORT. -/
def Obligations.Cinches : Prop :=
  (∀ (s : State) (T : BitVec 64),
    let g := s.get F.nirCinchResult.gen Ix.mod
    let at_ := max T.toNat (s.stitch + 64)
    let busy := s.bit F.nirCinchResult.pending Ix.mod = true
    let close := g ≠ 0 ∧ at_ < s.get F.nirCinchT.stitch Ix.mod + s.get F.nirCinchCfg.min_spacing Ix.mod
    ((busy ∨ close) → ∃ t, exec (.cinchRequest T) s = .next t ∧ (busy → t.get F.nirCinchResult.status Ix.mod = 1) ∧
      (¬ busy → t.get F.nirCinchResult.status Ix.mod = 2) ∧
      t.get F.nirCinchCount.refused Ix.mod = min (s.get F.nirCinchCount.refused Ix.mod + 1) 0xFFFF ∧ t.cinchLatch = s.cinchLatch ∧
      t.cinchWait = s.cinchWait ∧ RegsBut [.nirCinchAt, .nirCinchResult, .nirCinchCount] s t ∧ Quiet s t) ∧
    (¬ busy → ¬ close → ∃ t, exec (.cinchRequest T) s = .next t ∧ t.get F.nirCinchResult.status Ix.mod = 0 ∧
      t.get F.nirCinchResult.pending Ix.mod = 1 ∧ t.get F.nirCinchResult.gen Ix.mod = (if g = 0xFFFF then 1 else (g + 1) % 0x10000) ∧
      t.get F.nirCinchT.stitch Ix.mod = at_ % 2 ^ 64 ∧ (∀ d < s.dieCount, (d, false) ∈ t.cinchWait) ∧
      Map.find t.cinchLatch none = some (at_, if g = 0xFFFF then 1 else g + 1) ∧
      RegsBut [.nirCinchAt, .nirCinchResult, .nirCinchT, .nirCinchMiss] s t ∧ Quiet s t)) ∧
  (∀ (s : State) (d : DieIx),
    let T := s.get F.nirCinchT.stitch Ix.mod
    let waits := (d.val, false) ∈ s.cinchWait ∧ Map.find s.cinchLatch (some d.val) = none
    (¬ waits → exec (.cinchBroadcast d) s = .next s) ∧
    (waits → s.dieDark d = false → s.stitch + 2 < T → exec (.cinchBroadcast d) s = .next
      { s with cinchLatch := Map.put s.cinchLatch (some d.val) (T, s.get F.nirCinchResult.gen Ix.mod) }) ∧
    (waits → (s.dieDark d = true ∨ T ≤ s.stitch + 2) → ∃ t, exec (.cinchBroadcast d) s = .next t ∧
      (t.get F.nirCinchMiss.dies Ix.mod).testBit d = true ∧ (∀ b, (d.val, b) ∉ t.cinchWait) ∧ Map.find t.cinchLatch (some d.val) = none ∧
      Quiet s t)) ∧
  (∀ (s : State) (d : Option DieIx) (T gen : Nat), Map.find s.cinchLatch (d.map Fin.val) = some (T, gen) →
    ((s.stitch ≠ T ∨ s.cc ≠ 0) → exec (.cinchCopy d) s = .next s) ∧
    (s.stitch = T → s.cc = 0 → (∀ k, d = some k → s.dieDark k = false) → ∃ t, exec (.cinchCopy d) s = .next t ∧
      (∀ (f : Fld) (ix : Ix), isCounter f.reg f.lo = true → s.settleSync.copies d f.reg ix = true →
        Map.getD t.shadow (fkey f ix) (resetOf f.reg f.lo ix) = s.settleSync.before.get f ix) ∧
      (∀ (f : Fld) (ix : Ix), s.settleSync.copies d f.reg ix = false → Map.find t.shadow (fkey f ix) = Map.find s.shadow (fkey f ix)) ∧
      Map.find t.cinchLatch (d.map Fin.val) = none ∧
      (∀ k, d = some k → t.get F.stwTallyGen.gen (Ix.stw k) = gen % 0x10000 ∧ ∀ b, (k.val, b) ∈ t.cinchWait → b = true) ∧ Quiet s t) ∧
    (∀ k, d = some k → s.stitch = T → s.cc = 0 → s.dieDark k = true → ∃ t, exec (.cinchCopy d) s = .next t ∧
      (t.get F.nirCinchMiss.dies Ix.mod).testBit k = true ∧ (∀ b, (k.val, b) ∉ t.cinchWait) ∧ t.shadow = s.shadow ∧ Quiet s t)) ∧
  (∀ (s : State) (d : Option DieIx), Map.find s.cinchLatch (d.map Fin.val) = none → exec (.cinchCopy d) s = .next s) ∧
  (∀ (s : State) (d : DieIx),
    ((d.val, true) ∉ s.cinchWait → exec (.cinchReport d) s = .next s) ∧
    ((d.val, true) ∈ s.cinchWait → ∃ t, exec (.cinchReport d) s = .next t ∧ t.cinchWait = s.cinchWait.filter (fun p => decide (p.1 ≠ d.val)) ∧
      (t.cinchWait = [] → s.bit F.nirCinchResult.pending Ix.mod = true → t.get F.nirCinchResult.pending Ix.mod = 0 ∧
        t.get F.nirCinchResult.done Ix.mod = 1 ∧ t.get F.nirCinchCount.done Ix.mod = min (s.get F.nirCinchCount.done Ix.mod + 1) 0xFFFF) ∧
      (t.cinchWait ≠ [] → t.regs = s.regs) ∧ RegsBut [.nirCinchResult, .nirCinchCount] s t ∧ Quiet s t))

/-! ## Partitions, harnesses and swaps (chapter 10), partition halts (chapter 05) -/

/-- R320, R325-R330: a partition's set of dies is taken, or refused and left as it is; a load is refused BUSY, or runs and ends READY or REFUSED with the
code of Table 10.8; a key record that verifies under an operator key is held.
Completes: PARTITION_WRITE, HARNESS_LOAD_GO, HARNESS_LOAD_DONE and KEY_RECORD. -/
def Obligations.PartitionsAndLoads : Prop :=
  (∀ (s : State) (p : PartIx) (m : BitVec 24),
    let refused := m.toNat = s.get F.hrnPart.dies (Ix.mod p) ∨ s.readyHeld = true ∨ Map.find s.active p.val ≠ none ∨ 2 ^ s.dieCount ≤ m.toNat ∨
      ∃ q < 8, q ≠ p.val ∧ (s.get F.hrnPart.dies (Ix.mod q) &&& m.toNat) ≠ 0
    (refused → exec (.partitionWrite p m) s = .next s) ∧
    (¬ refused → ∃ t, exec (.partitionWrite p m) s = .next t ∧ t.get F.hrnPart.dies (Ix.mod p) = m.toNat ∧
      (m = 0 → FieldsBut [(F.hrnPart.dies, Ix.mod p)] s t ∧ Quiet s t) ∧
      (∀ q, q ≠ p.val → t.get F.hrnPart.dies (Ix.mod q) = s.get F.hrnPart.dies (Ix.mod q)) ∧ t.stitch = s.stitch ∧ t.cc = s.cc)) ∧
  (∀ (s : State) (p : PartIx),
    let st := s.get F.hrnStat.shadow (Ix.mod p)
    let busy := st = shLoading ∨ st = shCommitted ∨ s.bit F.hrnSwapResult.committed (Ix.mod p) = true
    let hrnRegs := [Reg.hrnLoadResult, .hrnLoadRecord, .hrnCnt, .hrnStat, .hrnShadowId]
    (busy → ∃ t, exec (.harnessLoadGo p) s = .next t ∧ t.get F.hrnLoadResult.code (Ix.mod p) = 0x12 ∧ t.get F.hrnStat.shadow (Ix.mod p) = st ∧
      t.shadowHrn = s.shadowHrn ∧ t.get F.hrnCnt.load_ref (Ix.mod p) = min (s.get F.hrnCnt.load_ref (Ix.mod p) + 1) 0xFFFF ∧
      RegsBut hrnRegs s t ∧ Quiet s t) ∧
    (¬ busy → ∃ t, exec (.harnessLoadGo p) s = .next t ∧ t.get F.hrnStat.shadow (Ix.mod p) = shLoading ∧
      t.get F.hrnLoadResult.done (Ix.mod p) = 0 ∧ Map.find t.shadowHrn p.val = none ∧ RegsBut hrnRegs s t ∧ Quiet s t) ∧
    (st ≠ shLoading → exec (.harnessLoadDone p) s = .next s) ∧
    (st = shLoading → let r := s.loadHarness p
      ∃ t, exec (.harnessLoadDone p) s = .next t ∧ t.get F.hrnLoadResult.done (Ix.mod p) = 1 ∧ t.get F.hrnLoadResult.code (Ix.mod p) = r.code % 32 ∧
      (r.code ≠ 0 → t.get F.hrnStat.shadow (Ix.mod p) = 3 ∧ t.shadowHrn = s.shadowHrn ∧
        t.get F.hrnCnt.load_ref (Ix.mod p) = min (s.get F.hrnCnt.load_ref (Ix.mod p) + 1) 0xFFFF) ∧
      (r.code = 0 → ∀ h, r.h = some h → t.get F.hrnStat.shadow (Ix.mod p) = shReady ∧ Map.find t.shadowHrn p.val = some h ∧
        t.get F.hrnCnt.loads (Ix.mod p) = min (s.get F.hrnCnt.loads (Ix.mod p) + 1) 0xFFFF ∧
        t.get F.hrnLoadResult.nclamp (Ix.mod p) = h.clamps.length % 2 ^ 32) ∧ t.active = s.active ∧ RegsBut hrnRegs s t ∧ Quiet s t)) ∧
  (∀ (s : State) (slot : Fin 36) (x y : BitVec 384) (signer : Fin 4) (sig : List Byte),
    let good := ∃ op, Map.find s.keys signer.val = some op ∧ ecdsaVerify op sig (Config.keyRecordBytes slot x.toNat y.toNat) = true
    (¬ good → exec (.keyRecord slot x y signer sig) s = .next s) ∧
    (good → ∃ t, exec (.keyRecord slot x y signer sig) s = .next t ∧ Map.find t.keys slot.val = some (x.toNat, y.toNat) ∧
      t.get F.nirKeyStat.loaded (Ix.mod slot) = 1 ∧ (∀ k, k ≠ slot.val → Map.find t.keys k = Map.find s.keys k) ∧
      RegsBut [.nirKeySlot, .nirKeyStat] s t ∧ Quiet s t))

/-- R338, R339, R342: a swap request is BUSY, LATE or set for its stitch, as early as the lead allows; 48 st before it the swap is committed, with every
pass that has not started withdrawn, or refused; in cycle 0 of its stitch the shadow is the active harness; a paused swap's pause withdraws what
has not started.
Completes: SWAP_REQUEST, SWAP_COMMIT, SWAP_ACTIVATION and PAUSE_START. -/
def Obligations.Swaps : Prop :=
  (∀ (s : State) (p : PartIx) (T : BitVec 64),
    let ix := Ix.mod p
    let lead := 64 + (if s.bit F.hrnSwapCtl.paused ix then ((Map.find s.active p.val).map fun h => h.drain).getD 64 else 0)
    let at_ := max T.toNat (s.stitch + lead)
    (s.bit F.hrnSwapResult.committed ix = true → ∃ t, exec (.swapRequest p T) s = .next t ∧ t.get F.hrnSwapResult.status ix = swBusy ∧
      t.swaps = s.swaps ∧ t.get F.hrnCnt.swap_ref ix = min (s.get F.hrnCnt.swap_ref ix + 1) 0xFFFF ∧ RegsBut [.hrnSwapResult, .hrnCnt] s t ∧ Quiet s t) ∧
    (s.bit F.hrnSwapResult.committed ix = false →
      (T.toNat < s.stitch + lead → s.bit F.hrnSwapCtl.movable ix = false → ∃ t, exec (.swapRequest p T) s = .next t ∧
        t.get F.hrnSwapResult.status ix = swLate ∧ t.get F.hrnSwapResult.done ix = 1 ∧ Map.find t.swaps p.val = none ∧ Quiet s t) ∧
      ((s.stitch + lead ≤ T.toNat ∨ s.bit F.hrnSwapCtl.movable ix = true) → ∃ t, exec (.swapRequest p T) s = .next t ∧
        Map.find t.swaps p.val = some { at_ := at_, asked := s.stitch, paused := s.bit F.hrnSwapCtl.paused ix } ∧
        t.get F.hrnSwapT.stitch ix = at_ % 2 ^ 64 ∧ t.get F.hrnSwapResult.done ix = 0 ∧ RegsBut [.hrnSwapAt, .hrnSwapT, .hrnSwapResult] s t ∧ Quiet s t))) ∧
  (∀ (s : State) (p : PartIx) (w : Swap), Map.find s.swaps p.val = some w →
    let ix := Ix.mod p
    ((w.committed = true ∨ s.stitch + 48 < w.at_) → exec (.swapCommit p) s = .next s) ∧
    (w.committed = false → w.at_ ≤ s.stitch + 48 →
      (s.swapRefusal p w ≠ swOk → ∃ t, exec (.swapCommit p) s = .next t ∧ Map.find t.swaps p.val = none ∧ t.active = s.active ∧
        t.get F.hrnSwapResult.status ix = s.swapRefusal p w ∧ t.get F.hrnSwapResult.done ix = 1 ∧
        t.get F.hrnCnt.swap_ref ix = min (s.get F.hrnCnt.swap_ref ix + 1) 0xFFFF ∧ RegsBut [.hrnSwapResult, .hrnCnt] s t ∧ Quiet s t) ∧
      (s.swapRefusal p w = swOk → ∃ t, exec (.swapCommit p) s = .next t ∧ Map.find t.swaps p.val = some { w with committed := true } ∧
        t.get F.hrnSwapResult.committed ix = 1 ∧ t.get F.hrnStat.shadow ix = shCommitted ∧ (∀ q ∈ t.passes, q.part = p.val → q.started = true) ∧
        t.active = s.active ∧ RegsBut [.hrnSwapResult, .hrnStat, .hrnShadowId, .srvKvResult] s t ∧ Quiet s t)) ∧
    ((w.committed = false ∨ s.stitch < w.at_ ∨ s.cc ≠ 0) → exec (.swapActivation p) s = .next s) ∧
    (w.committed = true → w.at_ ≤ s.stitch → s.cc = 0 →
      (s.swapCut p w = true → ∃ t, exec (.swapActivation p) s = .next t ∧ t.get F.hrnSwapResult.status ix = swHalted ∧ Map.find t.swaps p.val = none ∧
        t.active = s.active ∧ t.get F.hrnStat.shadow ix = shReady ∧ Quiet s t) ∧
      (∀ h, s.swapCut p w = false → Map.find s.shadowHrn p.val = some h → ∃ t, exec (.swapActivation p) s = .next t ∧
        Map.find t.active p.val = some h ∧ t.get F.hrnActiveId.id ix = h.hid % 2 ^ 64 ∧ t.get F.hrnActAt.stitch ix = s.stitch % 2 ^ 64 ∧
        t.get F.hrnSwapResult.status ix = swOk ∧ t.get F.hrnSwapResult.done ix = 1 ∧ t.get F.hrnSwapResult.committed ix = 0 ∧
        Map.find t.swaps p.val = none ∧ t.stitch = s.stitch ∧ t.cc = s.cc)) ∧
    (∀ h, Map.find s.active p.val = some h →
      let due := w.paused = true ∧ w.cut = false ∧ w.at_ ≤ s.stitch + h.drain ∧ s.stitch < w.at_
      (¬ due → exec (.pauseStart p) s = .next s) ∧
      (due → ∃ t, exec (.pauseStart p) s = .next t ∧ Map.find t.pauseUntil p.val = some w.at_ ∧
        (∀ q ∈ t.passes, q.part = p.val → q.started = true) ∧ (∀ q ∈ s.passes, q.started = true → q ∈ t.passes) ∧
        t.regs = s.regs ∧ Quiet s t)))

/-- R190, R192, R343, R391, R392: at its stitch a halt stops every core that is not IDLE, and its event names the first fault; a launch sets the
launch stitch of the cores not launched automatically, and of every core after a halt; an array written at activation leaves DBAD only after
a second mismatch.
Completes: PARTITION_HALT, SCHEDULE_FAULT_EVENT, HRN_LAUNCH and ACT_ARRAY_WRITE_DONE. -/
def Obligations.HaltsAndLaunches : Prop :=
  (∀ (s : State) (p : PartIx) (h : Halt), Map.find s.halts p.val = some h →
    ((h.taken = true ∨ s.stitch < h.haltAt) → exec (.partitionHalt p) s = .next s) ∧
    (h.taken = false → h.haltAt ≤ s.stitch → ∃ t, exec (.partitionHalt p) s = .next t ∧
      Map.find t.halts p.val = some { h with taken := true } ∧ (∀ c ∈ s.busyCores (s.diesOf p), t.get F.coreSeqTask.state c.ix = qHalted) ∧
      (∀ q ∈ t.passes, q.part = p.val → q.started = true ∧ q.endAt < h.sf) ∧ t.get F.srvFaultHalt.sf (Ix.mod p) = h.sf % 2 ^ 64 ∧
      t.stitch = s.stitch ∧ t.cc = s.cc) ∧
    ((h.reported = true ∨ s.stitch < h.haltAt) → exec (.scheduleFaultEvent p) s = .next s) ∧
    (h.reported = false → h.haltAt ≤ s.stitch → h.byCore = true → ∃ t, exec (.scheduleFaultEvent p) s = .next t ∧
      Map.find t.halts p.val = some { h with reported := true } ∧ t.eventSeq = (s.eventSeq + 1) % 2 ^ 32 ∧
      t.get F.stwSchedHalt.stitch (Ix.stw (s.leadDie p)) = h.haltAt % 2 ^ 64 ∧
      t.get F.stwSchedFirst.die (Ix.stw (s.leadDie p)) = h.first.die % 32 ∧ t.get F.stwSchedFirst.core (Ix.stw (s.leadDie p)) = h.first.core % 4 ∧
      t.get F.stwSchedFirst.code (Ix.stw (s.leadDie p)) = s.get F.coreSfltRec.code (coreAt h.first) % 64 ∧
      RegsBut [.stwSchedHalt, .stwSchedFirst, .stwSchedFstitch, .nirEvqCnt] s t ∧ Quiet s t)) ∧
  (∀ (s : State) (p : PartIx) (T : BitVec 64),
    ((Map.find s.active p.val = none ∨ s.partClearing p = true) → exec (.hrnLaunch p T) s = .next s) ∧
    (∀ h, Map.find s.active p.val = some h → s.partClearing p = false → s.readyHeld = false → ∃ t, exec (.hrnLaunch p T) s = .next t ∧
      (∀ c ofs auto, (c, ofs, auto) ∈ s.usableCores h → (auto = false ∨ Map.find s.halts p.val ≠ none) → s.get F.coreSeqTask.state c.ix ∈ [qIdle, qDone, qHalted] →
        t.get F.coreSeqLaunch.stitch c.ix = max T.toNat (s.stitch + 64) % 2 ^ 64 ∧ t.get F.coreSeqTask.state c.ix = qWaitLaunch) ∧
      RegsBut [.hrnLaunch, .coreSeqLaunch, .coreSeqTask] s t ∧ Quiet s t)) ∧
  (∀ (s : State) (i : Nat) (w : ActWrite), s.actWrites[i]? = some w →
    (s.acceptsWrite w.arr = false → exec (.actArrayWriteDone i) s = .next s) ∧
    (s.acceptsWrite w.arr = true → ∃ t, exec (.actArrayWriteDone i) s = .next t ∧
      let ok := sha256 (t.bytes (planeAddr w.arr 0) 8192) = t.bytes w.dig 32
      (ok → t.actWrites = s.actWrites.eraseIdx i ∧ t.get F.coreWptrArr.dbad (w.arr.coreId.ix w.arr.arr) = 0) ∧
      (¬ ok → w.tries = 0 → t.actWrites = s.actWrites.set i { w with tries := 1 }) ∧
      (¬ ok → w.tries ≠ 0 → t.actWrites = s.actWrites.eraseIdx i ∧ t.get F.coreWptrArr.dbad (w.arr.coreId.ix w.arr.arr) = 1 ∧
        t.eventSeq = (s.eventSeq + 1) % 2 ^ 32) ∧ t.stitch = s.stitch ∧ t.cc = s.cc))

/-! ## The serving unit (chapter 11) -/

/-- R350, R352, R353, R378: a tail write is stored; the next descriptor in queue order is read, one a stitch, once its prompt fits the store; a completed
prompt copy, from the partition's stacks or from the host, advances HEAD and makes a QUEUED context, or is refused and counted; CANCEL and
RELEASE wait for the next stitch boundary.
Completes: SUBQ_TAIL_WRITE, DESCRIPTOR_READ, PROMPT_COPY_DONE, CANCEL and RELEASE. -/
def Obligations.Submission : Prop :=
  (∀ (s : State) (p : PartIx) (v : Word32), ∃ t, exec (.subqTailWrite p v) s = .next t ∧ t.get F.srvSubqTail.tail (Ix.mod p) = v.toNat ∧
    FieldsBut [(F.srvSubqTail.tail, Ix.mod p)] s t ∧ Quiet s t) ∧
  (∀ (s : State) (p : PartIx) (raw : List Byte),
    let ix := Ix.mod p
    let next := (s.get F.srvSubqHead.head ix + (s.promptCopies.filter fun c => decide (c.part = p.val)).length) % 2 ^ 32
    let a := s.get F.srvSubqBase.addr ix + 512 * (next % 2 ^ s.get F.srvSubqCfg.size_log2 ix)
    let d := if s.bit F.srvSubqCfg.space ix = true ∧ s.ownStack p a 512 = true then s.bytes a 512 else raw
    let ready := s.bit F.srvCfg.en ix = true ∧ s.partEmber p = false ∧ next ≠ s.get F.srvSubqTail.tail ix ∧ Map.find s.descAt p.val ≠ some s.stitch
    let fits := s.storeUsed p + descLen d ≤ promptStore ∨ s.storeUsed p = 0
    (¬ (ready ∧ fits) → exec (.descriptorRead p raw) s = .next s) ∧
    (ready → fits → exec (.descriptorRead p raw) s =
      .next { s with promptCopies := s.promptCopies ++ [⟨p, d⟩], descAt := Map.put s.descAt p.val s.stitch })) ∧
  (∀ (s : State) (p : PartIx) (status : Fin 16) (ids : List Word32),
    ((∀ c ∈ s.promptCopies, c.part ≠ p.val) → exec (.promptCopyDone p status ids) s = .next s) ∧
    (∀ pre c rest, s.promptCopies = pre ++ c :: rest → c.part = p.val → (∀ q ∈ pre, q.part ≠ p.val) →
      let n := descLen c.desc
      let own := descPspace c.desc = 1 ∧ s.ownStack p (descAddr c.desc) (4 * n) = true
      let toks := if own then (List.range n).map fun k => leNat (s.bytes (descAddr c.desc) (4 * n)) (4 * k) 4
        else ((ids.take n).map fun w => w.toNat) ++ List.replicate (n - ids.length) 0
      let st := if own then (if (s.ueIn (descAddr c.desc) (4 * n)).isSome then xEccUe else xOk) else status.val
      let why := s.descRefusal p c.desc toks st
      ∃ t, exec (.promptCopyDone p status ids) s = .next t ∧ t.promptCopies = pre ++ rest ∧
        t.get F.srvSubqHead.head (Ix.mod p) = (s.get F.srvSubqHead.head (Ix.mod p) + 1) % 2 ^ 32 ∧
        (why ≠ 0 → t.get F.srvCnt.refused (Ix.mod p) = min (s.get F.srvCnt.refused (Ix.mod p) + 1) 0xFFFF ∧ t.accepted = s.accepted ∧
          (0 < s.bufferFree p → ∃ r, t.recs = s.recs ++ [⟨p, r, false, completionRecord 6 (descCtx c.desc) 0 (descTag c.desc) why 0 0xFFFFFFFF s.stitch,
            s.stitch⟩])) ∧
        (why = 0 → t.get F.srvCtx.state (Ix.mod p (descCtx c.desc)) = cQueued ∧
          t.get F.srvCtx.accept (Ix.mod p (descCtx c.desc)) = s.stitch % 2 ^ 64 ∧ (∃ x, t.ctx p (descCtx c.desc) = some x ∧ x.desc = c.desc ∧
            x.prompt = toks ∧ x.admitted = false ∧ x.order = Map.getD s.accepted p.val 0 + 1) ∧ t.recs = s.recs) ∧
        t.mem = s.mem ∧ t.cores = s.cores ∧ t.engines = s.engines ∧ t.stitch = s.stitch ∧ t.cc = s.cc)) ∧
  (∀ (s : State) (p : PartIx) (x : Fin 4096), ∀ q ∈ [(Instr.cancel p x, 1), (.release p x, 2)], ∃ t, exec q.1 s = .next t ∧
    t.reqQ = s.reqQ ++ [(p.val, x.val, q.2)] ∧ t.ctxs = s.ctxs ∧ t.passes = s.passes ∧ RegsBut [.srvReqCmd] s t ∧ Quiet s t)

/-- R354, R361, R362, R365, R366: the first QUEUED context that fits takes a seat and its SEAT_OPEN; BOOK_LEAD before an entry the first prefill job
that fits books its next position there; a stream is admitted unless admission is withheld; a job PROMOTE_FR frames old is promoted.
Completes: SEAT_ADMISSION, PREFILL_BOOKING, STREAM_ADMISSION and PREFILL_PROMOTION. -/
def Obligations.AdmissionAndBooking : Prop :=
  (∀ (s : State) (p : PartIx),
    let open_ := s.hasFrames p = true ∧ s.bit F.srvCfg.en (Ix.mod p) = true ∧ s.servHeld p = false ∧ s.partEmber p = false
    let waiting := sortOn classOrder ((s.ctxsIn p cQueued).filter fun e => !e.2.admitted)
    (¬ open_ → exec (.seatAdmission p) s = .next s) ∧
    (open_ → firstDone (tryAdmit p) s waiting = none → exec (.seatAdmission p) s = .next s) ∧
    (open_ → ∀ e rest σ, waiting = e :: rest → e.2.forked = false → e.2.rebuild = false → s.freeSeat p = some σ →
      s.reservationFits p e.2 = true → ∃ t cmd, exec (.seatAdmission p) s = .next t ∧ t.get F.srvCtx.seat (Ix.mod p e.1) = σ ∧
        (∃ x, t.ctx p e.1 = some x ∧ x.admitted = true) ∧ t.kvCmds = insertCmd cmd s.kvCmds ∧ cmd.op = kvSeatOpen ∧ cmd.seat = σ ∧ cmd.part = p.val ∧
        s.stitch + 64 ≤ cmd.at_ ∧ t.cores = s.cores ∧ t.engines = s.engines ∧ t.stitch = s.stitch ∧ t.cc = s.cc)) ∧
  (∀ (s : State) (p : PartIx),
    let lead := s.get F.srvFrameCfg1.book_lead (Ix.mod p)
    let g := s.entryFrom p (s.stitch + lead)
    let due := s.serving p = true ∧ s.entryStart p g = s.stitch + lead ∧ Map.getD s.nextBook p.val 0 ≤ g
    (¬ due → exec (.prefillBooking p) s = .next s) ∧
    (due → s.ctxsIn p cGenerate = [] → ∀ e rest k, s.bookOrder p = e :: rest → s.ctx p e.1 = some e.2 → e.2.booked < e.2.prefillEnd → s.ctxStalled p e.2 = false →
      s.seatCopying p (s.ctxSeat p e.1) = false → s.passClass p (s.ctxSeat p e.1) (e.2.booked + 1) = some k →
      s.fits p g k (e.2.samplesAt e.2.booked) (s.get F.srvCtx.smpdie (Ix.mod p e.1)) = true →
      ∃ t q, exec (.prefillBooking p) s = .next t ∧ q ∈ t.passes ∧ q.part = p.val ∧ q.ctx = e.1 ∧ q.pos = e.2.booked ∧ q.entry = g ∧ q.cls = k ∧
        q.start = s.stitch + lead ∧ q.started = false ∧ (∀ r ∈ s.passes, r ∈ t.passes) ∧
        (∃ x, t.ctx p e.1 = some x ∧ x.booked = e.2.booked + 1) ∧ Map.find t.nextBook p.val = some (g + 1) ∧ RegsBut [.srvCtx, .srvCnt] s t ∧ Quiet s t)) ∧
  (∀ (s : State) (p : PartIx),
    ((s.serving p = false ∨ s.withheld p = true ∨ s.waiting p = []) → exec (.streamAdmission p) s = .next s) ∧
    (s.serving p = true → s.withheld p = false → ∀ e rest, s.waiting p = e :: rest →
      ∃ t, exec (.streamAdmission p) s = .next t ∧ t.get F.srvCtx.state (Ix.mod p e.1) = cGenerate ∧
        (∀ r ∈ s.passes, r ∈ t.passes) ∧ RegsBut [.srvCtx] s t ∧ Quiet s t)) ∧
  (∀ (s : State) (p : PartIx) (x : Fin 4096) (c : ReqCtx), s.ctx p x = some c →
    let due := s.ctxState p x = cPrefill ∧ c.promoted = none ∧ c.entered + s.get F.srvCfg.promote_fr (Ix.mod p) * s.frameSt p ≤ s.stitch
    (¬ due → exec (.prefillPromotion p x) s = .next s) ∧
    (due → ∃ t, exec (.prefillPromotion p x) s = .next t ∧ t.get F.srvCtx.promoted (Ix.mod p x) = 1 ∧
      t.get F.srvCnt.promoted (Ix.mod p) = min (s.get F.srvCnt.promoted (Ix.mod p) + 1) 0xFFFF ∧
      t.ctx p x = some { c with promoted := some s.stitch } ∧ RegsBut [.srvCtx, .srvCnt] s t ∧ Quiet s t))

/-- R359-R361, R363, R370, R374, R375: a pass starts at its stitch, or is withdrawn where it may not; the sampler takes one pass every 128 cycles,
draws from the candidates and updates the record; at its emit stitch the token is appended and reported; a pass that does not sample only
extends the committed length.
Completes: PASS_START, SAMPLER_SAMPLE, PASS_EMIT and PASS_COMPLETE. -/
def Obligations.TokenPasses : Prop :=
  (∀ (s : State) (q : Pass) (x : ReqCtx), s.passes.find? (fun r => decide (r.id = q.id)) = some q → s.ctx q.part q.ctx = some x →
    ((q.started = true ∨ s.stitch < q.start) → exec (.passStart q.id) s = .next s) ∧
    (q.started = false → q.start ≤ s.stitch →
      (s.stitch = q.start → s.serving q.part = true → s.ctxStalled q.part x = false → s.seatCopying q.part q.seat = false →
        s.spillCount q.part q.seat ≤ s.clsZ q.part q.cls → ∃ t, exec (.passStart q.id) s = .next t ∧ { q with started := true } ∈ t.passes ∧ t.get F.srvCtx.class_ (Ix.mod q.part q.ctx) = q.cls % 16 ∧
          (∃ y, t.ctx q.part q.ctx = some y ∧ y.lastEntry = q.entry) ∧ RegsBut [.srvCtx] s t ∧ Quiet s t) ∧
      ((q.start < s.stitch ∨ s.serving q.part = false ∨ s.ctxStalled q.part x = true ∨ s.seatCopying q.part q.seat = true ∨
          s.clsZ q.part q.cls < s.spillCount q.part q.seat) →
        ∃ t, exec (.passStart q.id) s = .next t ∧ (∀ r ∈ t.passes, r.part = q.part → r.ctx = q.ctx → r.started = true) ∧
          t.regs = s.regs ∧ Quiet s t))) ∧
  (∀ (s : State) (q : Pass) (x : ReqCtx) (cands : List (Word32 × Word32)), Sound s → s.passes.find? (fun r => decide (r.id = q.id)) = some q →
    s.ctx q.part q.ctx = some x → s.upsets = [] →
    let die := s.get F.srvCtx.smpdie (Ix.mod q.part q.ctx)
    let a := s.recAddr die q.ctx
    let rcd := s.bytes a recBytes
    let cs := validCands cands
    let due := q.samples = true ∧ q.started = true ∧ q.drawn = none ∧ s.stitch ≤ q.endAt ∧
      ∀ t0, Map.find s.samplerAt die = some t0 → t0 + 128 ≤ s.now
    (¬ due → exec (.samplerSample q.id cands) s = .next s) ∧
    (due → ∃ t, exec (.samplerSample q.id cands) s = .next t ∧
      t.get F.smpCnt.samples (Ix.stw die) = (s.get F.smpCnt.samples (Ix.stw die) + 1) % 2 ^ 32 ∧
      (sampleToken rcd cs (q.pos + 1) = none → t.mem = s.mem ∧
        { q with drawn := some ⟨none, some (8, 0), candShort rcd cs, recFull rcd⟩ } ∈ t.passes) ∧
      (∀ w, sampleToken rcd cs (q.pos + 1) = some w → StoresAt s t a (recordAfter rcd w (candShort rcd cs)).1 ∧
        ∃ r ∈ t.passes, r.id = q.id ∧ ∃ dr, r.drawn = some dr ∧ dr.token = some w ∧ dr.ends = endCondition rcd (descMax x.desc) w) ∧
      Map.find t.samplerAt die = some s.now ∧ RegsBut [.smpCnt] s t ∧ t.cores = s.cores ∧ t.engines = s.engines ∧ t.stitch = s.stitch ∧ t.cc = s.cc)) ∧
  (∀ (s : State) (p : PartIx),
    ((s.passDue p true = none ∨ ∃ q, s.passDue p true = some q ∧ q.drawn = none) → exec (.passEmit p) s = .next s) ∧
    (∀ q c w dr, s.passDue p true = some q → s.ctx p q.ctx = some c → q.drawn = some dr → dr.token = some w → dr.ends = none →
      s.haltDrops p q.endAt = false → s.ctxState p q.ctx = cGenerate → s.brokenFor q c = none → 0 < s.bufferFree p →
      ∃ t x, exec (.passEmit p) s = .next t ∧ (∀ r ∈ t.passes, r.id ≠ q.id) ∧ t.ctx p q.ctx = some x ∧ x.gen = c.gen ++ [w] ∧ x.len = q.pos + 1 ∧
        t.recs = s.recs ++ [⟨p, descRing c.desc, descEth c.desc, tokenRecord (decide ((c.gen ++ [w]).length = 1)) false dr.short dr.full q.ctx w
          (descTag c.desc) (q.pos + 1) (c.gen ++ [w]).length q.endAt, s.stitch⟩] ∧
        t.get F.srvCtx.delivered (Ix.mod p q.ctx) = (s.get F.srvCtx.delivered (Ix.mod p q.ctx) + 1) % 2 ^ 16 ∧
        t.get F.srvCtx.state (Ix.mod p q.ctx) = cGenerate ∧ t.mem = s.mem ∧ t.cores = s.cores ∧ t.stitch = s.stitch ∧ t.cc = s.cc) ∧
    (s.passDue p false = none → exec (.passComplete p) s = .next s) ∧
    (∀ q c, s.passDue p false = some q → s.ctx p q.ctx = some c → s.ctxState p q.ctx = cPrefill → s.haltDrops p q.endAt = false →
      s.brokenFor q c = none → c.rebuild = false → c.promoted = none → ∃ t x, exec (.passComplete p) s = .next t ∧ (∀ r ∈ t.passes, r.id ≠ q.id) ∧
        t.ctx p q.ctx = some x ∧ x.len = q.pos + 1 ∧ x.gen = c.gen ∧ t.recs = s.recs ∧
        t.get F.srvCtx.state (Ix.mod p q.ctx) = (if q.pos + 1 = c.prefillEnd ∧ descRoot c.desc = true then cHold
          else if q.pos + 1 = c.prefillEnd ∧ c.promptEnd ≤ c.replay then cGenerate else cPrefill) ∧ Quiet s t))

/-- R377, R380, R382, R435: the oldest record of a ring is written at BASE + 32 × (PROD mod SIZE), then PROD; a message follows MOD_N records or MOD_ST
stitches; datagrams carry at most 255 records; intervals that have ended are reported.
Completes: RING_RECORD_WRITE, RING_CONS_WRITE, RING_MSIX, TOKEN_DATAGRAM_SEND and LATENCY_GOAL_INTERVAL. -/
def Obligations.RingsAndLatency : Prop :=
  (∀ (s : State) (p : PartIx) (r : Fin 16),
    let ix := Ix.mod p r
    let ready := s.bit F.srvRingCfg.en ix = true ∧ s.bit F.hstPcieStat.bme Ix.mod = true ∧ s.ringUsed p r < s.ringSize p r
    let mine := fun (q : RingRec) => q.part = p.val ∧ q.ring = r.val ∧ q.eth = false
    ((¬ ready ∨ ∀ q ∈ s.recs, ¬ mine q) → exec (.ringRecordWrite p r) s = .next s) ∧
    (ready → ∀ pre q rest, s.recs = pre ++ q :: rest → (∀ y ∈ pre, ¬ mine y) → mine q → ∃ t more, exec (.ringRecordWrite p r) s = .next t ∧
      t.recs = pre ++ rest ∧
      t.out = s.out ++ [.hostWrite (s.get F.srvRingBase.addr ix + 32 * (s.get F.srvRingProd.prod ix % s.ringSize p r)) q.data,
        .hostWrite (s.get F.srvRingProdaddr.addr ix) (natToBytes 8 ((s.get F.srvRingProd.prod ix + 1) % 2 ^ 32))] ++ more ∧
      t.get F.srvRingProd.prod ix = (s.get F.srvRingProd.prod ix + 1) % 2 ^ 32 ∧ RegsBut [.srvRingProd, .srvStat, .nirEvqCnt] s t ∧ Quiet s t) ∧
    (∀ v : Word32, ∃ t, exec (.ringConsWrite p r v) s = .next t ∧ t.get F.srvRingCons.cons ix = v.toNat ∧
      RegsBut [.srvRingCons, .srvStat, .nirEvqCnt] s t ∧ t.recs = s.recs ∧ Quiet s t) ∧
    (let sig := Map.getD s.ringSig (p.val, r.val) (0, 0)
     let due := sig.1 ≠ 0 ∧ (s.get F.srvRingCfg.mod_n ix ≤ sig.1 ∨ sig.2 + s.get F.srvRingCfg.mod_st ix ≤ s.stitch)
     (¬ due → exec (.ringMsix p r) s = .next s) ∧
     (due → ∃ t, exec (.ringMsix p r) s = .next t ∧ Map.find t.ringSig (p.val, r.val) = none ∧
       (s.bit F.hstPcieStat.bme Ix.mod = true → s.bit F.hstMsix.mask (Ix.mod (s.get F.srvRingCfg.vec ix)) = false →
         t.out = s.out ++ [.msix (s.get F.srvRingCfg.vec ix)] ∧ t.regs = s.regs) ∧ RegsBut [.hstPba] s t ∧ Quiet s t))) ∧
  (∀ (s : State) (p : PartIx) (r : Fin 16),
    let ix := Ix.mod p r
    let mine := fun (q : RingRec) => decide (q.part = p.val) && decide (q.ring = r.val) && q.eth
    ((s.recs.filter mine = [] ∨ s.bit F.hstTflow.en ix = false ∨ s.flowPaused ix = true) → exec (.tokenDatagramSend p r) s = .next s) ∧
    (∀ q rest, s.recs.filter mine = q :: rest → s.bit F.hstTflow.en ix = true → s.flowPaused ix = false →
      let due := min (s.get F.srvRingCfg.mod_n ix) 255 ≤ rest.length + 1 ∨ q.entered + s.get F.srvRingCfg.mod_st ix ≤ s.stitch
      let seq := Map.getD s.net.flowSeq (p.val, r.val) 0
      (¬ due → exec (.tokenDatagramSend p r) s = .next s) ∧
      (due → ∃ t more, exec (.tokenDatagramSend p r) s = .next t ∧
        t.out = s.out ++ [.datagram (s.get F.hstTflow.port ix) (natToBytes 1 1 ++ natToBytes 1 p ++ natToBytes 1 r ++
          natToBytes 1 (min (rest.length + 1) 255) ++ natToBytes 4 seq ++ natToBytes 8 s.stitch ++
          ((q :: rest).take 255).flatMap fun x => x.data)] ++ more ∧
        t.recs.filter mine = (q :: rest).drop 255 ∧ Map.find t.net.flowSeq (p.val, r.val) = some ((seq + 1) % 2 ^ 32) ∧
        RegsBut [.srvStat, .nirEvqCnt] s t ∧ Quiet s t))) ∧
  (∀ (s : State) (p : PartIx),
    ((∀ e ∈ s.latWins, e.1.1 = p.val → s.stitch < e.1.2.2 + 4096) → exec (.latencyGoalInterval p) s = .next s) ∧
    (∃ t, exec (.latencyGoalInterval p) s = .next t ∧
      (∀ e ∈ t.latWins, e.1.1 = p.val → e.1.2.1 < 8 → s.stitch < e.1.2.2 + 4096) ∧
      (∀ k, (k.1 ≠ p.val ∨ s.stitch < k.2.2 + 4096) → Map.find t.latWins k = Map.find s.latWins k) ∧
      (∀ k, k.1 = p.val → k.2.1 < 8 → k.2.2 + 4096 ≤ s.stitch → Map.find s.latWins k ≠ none → t.out.length ≠ s.out.length) ∧
      RegsBut [.nirEvqCnt] s t ∧ Quiet s t))

/-! ## Weight shards, reload, digests and check values (chapter 12) -/

/-- R386-R389, R395: a fetch or verification is refused BUSY, WINDOW or IN_USE, or begins; landed data are posted to the stacks in order; the hash
ends it VERIFIED, DIGEST or FORMAT; an abort lets what is outstanding come in; a queue pair in error ends its fetches; a reload line goes to its
core's weight plane, or is lost where the buffer was full.
Completes: SHARD_FETCH, SHARD_VERIFY, SHARD_ABORT, RDMA_READ_RESPONSE, SHARD_HASH_DONE, QP_ERROR and RELOAD_LINE_LAND. -/
def Obligations.ShardCommands : Prop :=
  (∀ (s : State) (d : DieIx) (q : Fin 256), s.dieDark d = true → exec (.shardFetch d q) s = .next s ∧ exec (.shardVerify d) s = .next s) ∧
  (∀ (s : State) (d : DieIx) (q : Fin 256), s.dieDark d = false →
    let ix := Ix.stw d
    let lo := s.get F.stwShardLocal.value ix
    let n := s.get F.stwShardLen.value ix
    let used := ∃ a ∈ s.namedAreas d, rangesMeet lo n a.1 a.2 = true
    let stat := fun (i : Instr) (st : Nat) => ∃ t, exec i s = .next t ∧ t.get F.stwShardStat.status ix = st ∧ t.wts = s.wts ∧ t.areas = s.areas ∧
      FieldsBut [(F.stwShardStat.status, ix)] s t ∧ Quiet s t
    (s.shardJob d ≠ none → stat (.shardFetch d q) shsBusy ∧ stat (.shardVerify d) shsBusy) ∧
    (s.shardJob d = none → s.stackWindow d 5 lo n = false → stat (.shardFetch d q) shsWindow) ∧
    (s.shardJob d = none → s.stackWindow d 5 lo n = true → used → stat (.shardFetch d q) shsInUse) ∧
    (s.shardJob d = none → s.stackWindow d 5 lo n = true → ¬ used →
      (s.qpServes q d = true → ∃ t j more, exec (.shardFetch d q) s = .next t ∧ t.shardJob d = some j ∧ j.verify = false ∧ j.ofs = lo ∧ j.len = n ∧
        j.landed = 0 ∧ j.expect = s.expected d ∧ t.get F.stwShardStat.state ix = shFetching ∧ t.get F.stwShardStat.status ix = shsOk ∧
        t.out = s.out ++ more ∧ (0 < n → s.qpPaused q = false → more.head? = some (.rdmaRead q (s.qp q).sPsn
          (s.get F.stwShardRaddr.va ix % 2 ^ 64) (s.get F.stwShardRkey.rkey ix) (min (2 ^ 20) n))) ∧
        RegsBut [.stwShardStat] s t ∧ Quiet s t) ∧
      (s.qpServes q d = false → ∃ t, exec (.shardFetch d q) s = .next t ∧ t.shardJob d = none ∧ t.get F.stwShardStat.state ix = shBad ∧
        t.get F.stwShardStat.status ix = shsNetFail ∧ RegsBut [.stwShardStat] s t ∧ Quiet s t)) ∧
    (s.shardJob d = none → ∃ t j, exec (.shardVerify d) s = .next t ∧ t.shardJob d = some j ∧ j.verify = true ∧ j.ofs = lo ∧ j.len = n ∧
      t.get F.stwShardStat.state ix = shHashing ∧ t.areas = s.areas ∧ RegsBut [.stwShardStat] s t ∧ Quiet s t)) ∧
  (∀ (s : State) (d : DieIx) (data : List Byte),
    (s.shardJob d = none → exec (.shardAbort d) s = .next s ∧ exec (.rdmaReadResponse d data) s = .next s ∧ exec (.shardHashDone d) s = .next s) ∧
    (∀ j, s.shardJob d = some j →
      (j.verify = true → exec (.shardAbort d) s = .next s) ∧
      (j.verify = false → j.outs ≠ [] → exec (.shardAbort d) s = .next (s.setJob d { j with aborting := true })) ∧
      (j.verify = false → j.outs = [] → j.refetch = none → ∃ t, exec (.shardAbort d) s = .next t ∧ t.shardJob d = none ∧
        t.get F.stwShardStat.status (Ix.stw d) = shsAborted ∧ t.get F.stwShardStat.state (Ix.stw d) = shBad ∧ RegsBut [.stwShardStat] s t ∧ Quiet s t) ∧
      ((j.outs = [] ∨ data = []) → exec (.rdmaReadResponse d data) s = .next s) ∧
      (∀ n rest, j.outs = n :: rest → data ≠ [] → data.length < n → j.aborting = true → ∃ t k, exec (.rdmaReadResponse d data) s = .next t ∧
        (∀ w, w ∈ t.stackWrites ↔ (w ∈ s.stackWrites ∨ w = ⟨129, s.now, fabStack d (j.ofs + j.landed), data⟩)) ∧ t.shardJob d = some k ∧
        k.landed = j.landed + data.length ∧ k.outs = (n - data.length) :: rest ∧ Quiet s t) ∧
      (∀ n rest, j.outs = n :: rest → data.length = n → 0 < n → j.asked = j.len → j.aborting = false → j.refetch = none → ∃ t k,
        exec (.rdmaReadResponse d data) s = .next t ∧ t.shardJob d = some k ∧ k.landed = j.landed + n ∧ k.outs = rest ∧
        (∀ w, w ∈ t.stackWrites ↔ (w ∈ s.stackWrites ∨ w = ⟨129, s.now, fabStack d (j.ofs + j.landed), data⟩)) ∧
        t.get F.stwShardStat.landed (Ix.stw d) = (j.landed + n) % 2 ^ 39 ∧
        (j.landed + n = j.len → t.get F.stwShardStat.state (Ix.stw d) = shHashing) ∧ RegsBut [.stwShardStat] s t ∧ Quiet s t) ∧
      (let ready := j.aborting = false ∧ (j.verify = true ∨ (j.landed = j.len ∧ j.outs = []))
       (¬ ready → exec (.shardHashDone d) s = .next s) ∧
       (ready → s.stackWrites = [] → j.refetch = none →
         let hdr := s.bytes (fabStack d j.ofs) 256
         let want := (hdr.drop 0x38).take 32
         let good := sha256 (s.bytes (fabStack d j.ofs + 256) (j.len - 256)) = want ∧ want = j.expect
         ∃ t, exec (.shardHashDone d) s = .next t ∧ t.shardJob d = none ∧
           t.get F.stwShardStat.status (Ix.stw d) = (if shardHeaderOk hdr j.len = false then shsFormat else if good then shsOk else shsDigest) ∧
           t.get F.stwShardStat.state (Ix.stw d) = (if shardHeaderOk hdr j.len = true ∧ good then shVerified else shBad) ∧
           (shardHeaderOk hdr j.len = true → good → (⟨d, j.ofs, j.len, shVerified, want⟩ : ShardArea) ∈ t.areas ∧ t.eventSeq = s.eventSeq) ∧
           (¬ (shardHeaderOk hdr j.len = true ∧ good) → t.eventSeq = (s.eventSeq + 1) % 2 ^ 32) ∧
           RegsBut [.stwShardStat, .nirEvqCnt] s t ∧ Quiet s t)))) ∧
  (∀ (s : State) (q synd : Fin 256),
    (s.get F.hstQp.state (Ix.mod q) ≠ 1 → exec (.qpError q synd) s = .next s) ∧
    (s.get F.hstQp.state (Ix.mod q) = 1 → ∃ t, exec (.qpError q synd) s = .next t ∧ t.get F.hstQp.state (Ix.mod q) = 2 ∧
      t.get F.hstQp.synd (Ix.mod q) = synd.val ∧ t.get F.hstRdmaCnt.qperr Ix.mod = min (s.get F.hstRdmaCnt.qperr Ix.mod + 1) 0xFFFF ∧
      (∀ d j, s.shardJob d = some j → j.verify = false → j.qp = q.val → t.shardJob d = none) ∧ Quiet s t)) ∧
  (∀ (s : State) (x : Xfer) (c : CoreId) (a : Nat), s.flight x.id = some x → x.dst = some a → addrCoreId a = some c → x.isReload = true →
    x.granted = true → x.status = none → x.pos < x.total → x.pos + min 256 (x.total - x.pos) ≤ x.data.length →
    let n := min 256 (x.total - x.pos)
    let rows := rowsOf (addrOfs a + x.pos) ((x.data.drop x.pos).take n)
    let computing := s.bit F.coreArrstat.streaming c.ix = true ∧ ∃ r ∈ rows, s.computeSet c = (planeArr r.1).val / 32
    (x.lost.contains x.pos = true → ∃ t y, exec (.reloadLineLand x.id) s = .next t ∧ t.flight x.id = some y ∧ y.landed = x.landed ∧
      y.refused = x.refused + n ∧ t.mem = s.mem ∧ t.cores = s.cores ∧ t.stitch = s.stitch ∧ t.cc = s.cc) ∧
    (x.lost.contains x.pos = false → (computing ∨ s.now < (s.core c).portFree) → exec (.reloadLineLand x.id) s = .next s) ∧
    (x.lost.contains x.pos = false → ¬ computing → (s.core c).portFree ≤ s.now → ∃ t y, exec (.reloadLineLand x.id) s = .next t ∧ t.flight x.id = some y ∧
      y.landed + y.refused = x.landed + x.refused + n ∧ (t.core c).portFree = s.now + rows.length ∧ CoresBut c s t ∧ t.stitch = s.stitch ∧ t.cc = s.cc))

/-- R397-R401, R404: a digest slot reserves its group's arrays for 56 st and reads the next bound array of the sweep, or rewrites the one whose repair
waits, or is skipped; a mismatch sets DBAD and is counted and reported; the stack image is then hashed and the repair or a refetch follows; a
BUSY channel ignores check-value writes.
Completes: DIGEST_SLOT_START, DIGEST_READBACK_DONE, DIGEST_STACK_HASH_DONE, SHARD_SWEEP and CHK_REGISTER_WRITE. -/
def Obligations.DigestsAndCheckValues : Prop :=
  (∀ (s : State) (c : CoreId) (i : Fin 4),
    let due := s.cc = 0 ∧ s.digStarts c i = true ∧ s.regionOn c.cluId = true ∧ Map.find (s.dig c).slotAt i.val ≠ some s.stitch
    let idle := fun (a : Fin 64) => (s.idleFrom (c.arr a)).filter fun t => decide (t < s.now + 32)
    let skip := s.get F.coreWptrDigStat.skip c.ix
    (¬ due → exec (.digestSlotStart c i) s = .next s) ∧
    (due → ∃ t, exec (.digestSlotStart c i) s = .next t ∧ Map.find (t.dig c).slotAt i.val = some s.stitch ∧
      (∀ a ∈ s.groupArrays c (s.get F.coreWptrDigSlot.group (c.ix i)), 16 * (s.stitch + 56) ≤ (t.engine a).reissueAt) ∧
      ((s.dig c).repairs = [] → ∀ (a : Fin 64) img, s.sweepArray c = some (a.val, img) →
        t.get F.coreWptrDigStat.next c.ix = (a.val + 1) % 64 ∧
        (∀ t0, idle a = some t0 → (t.dig c).reads = (s.dig c).reads ++ [⟨a.val, img, false, t0, t0 + 512⟩] ∧
          t0 + 512 ≤ (t.engine (c.arr a)).accessEnd ∧ t.get F.coreWptrDigStat.skip c.ix = skip) ∧
        (idle a = none → (t.dig c).reads = (s.dig c).reads ∧ t.get F.coreWptrDigStat.skip c.ix = min (skip + 1) 0xFFFF)) ∧
      (∀ (a : Fin 64) img rest, (s.dig c).repairs = (a.val, img) :: rest →
        (∀ t0, idle a = some t0 → (t.dig c).reads = (s.dig c).reads ++ [⟨a.val, img, true, t0, t0 + 768⟩] ∧ (t.dig c).repairs = rest) ∧
        (idle a = none → (t.dig c).repairs = (s.dig c).repairs ∧ t.get F.coreWptrDigStat.skip c.ix = min (skip + 1) 0xFFFF)) ∧
      RegsBut [.coreWptrDigStat] s t ∧ t.cores = s.cores ∧ Still s t)) ∧
  (∀ (s : State) (c : CoreId), (∀ r ∈ (s.dig c).reads, s.now < r.endAt) → exec (.digestReadbackDone c) s = .next s) ∧
  (∀ (s : State) (c : CoreId) (a : Fin 64) (r : DigRead) (pre rest : List DigRead), (s.dig c).reads = pre ++ r :: rest → r.arr = a.val →
    r.endAt ≤ s.now → (∀ q ∈ pre, s.now < q.endAt) → s.stackWrites = [] →
    let dies := Ix.stw c.die
    let dbad := s.get F.coreWptrArr.dbad (c.ix a)
    (s.boundImage c a ≠ some r.img → ∃ t, exec (.digestReadbackDone c) s = .next t ∧ (t.dig c).reads = pre ++ rest ∧ t.regs = s.regs ∧ Quiet s t) ∧
    (s.boundImage c a = some r.img → r.fix = false → ∃ t, exec (.digestReadbackDone c) s = .next t ∧ (t.dig c).reads = pre ++ rest ∧
      t.get F.stwShardDcnt.swept dies = min (s.get F.stwShardDcnt.swept dies + 1) 0xFFFF ∧
      (s.arrayMatches (c.arr a) r.img = true → t.get F.coreWptrArr.dbad (c.ix a) = dbad ∧ t.events = s.events) ∧
      (s.arrayMatches (c.arr a) r.img = false → t.get F.coreWptrArr.dbad (c.ix a) = 1 ∧ (t.dig c).hashes = (s.dig c).hashes ++ [(a.val, r.img)] ∧
        t.get F.stwShardDcnt.mismatch dies = min (s.get F.stwShardDcnt.mismatch dies + 1) 0xFFFF ∧ t.eventSeq = (s.eventSeq + 1) % 2 ^ 32) ∧
      RegsBut [.coreWptrArr, .stwShardDcnt, .nirEvqCnt] s t ∧ Quiet s t) ∧
    (s.boundImage c a = some r.img → r.fix = true → ∃ t, exec (.digestReadbackDone c) s = .next t ∧ (t.dig c).reads = pre ++ rest ∧
      (t.arrayMatches (c.arr a) r.img = true → t.get F.coreWptrArr.dbad (c.ix a) = 0 ∧
        t.get F.stwShardDcnt.repaired dies = min (s.get F.stwShardDcnt.repaired dies + 1) 0xFFFF) ∧
      (t.arrayMatches (c.arr a) r.img = false → t.get F.coreWptrArr.dbad (c.ix a) = dbad) ∧ t.eventSeq = (s.eventSeq + 1) % 2 ^ 32 ∧
      t.cores = s.cores ∧ t.stitch = s.stitch ∧ t.cc = s.cc)) ∧
  (∀ (s : State) (c : CoreId),
    ((s.dig c).hashes = [] → exec (.digestStackHashDone c) s = .next s) ∧
    (∀ a img rest, (s.dig c).hashes = (a, img) :: rest → s.stackWrites = [] →
      let src := s.imageAddr c.die (s.refOfs c.die) img
      let good := sha256 (s.bytes src 8192) = s.bytes (s.digestAddr c.die (s.refOfs c.die) img) 32
      (good → ∃ t, exec (.digestStackHashDone c) s = .next t ∧ (t.dig c).hashes = rest ∧ (t.dig c).repairs = (s.dig c).repairs ++ [(a, img)] ∧
        t.get F.coreWptrDigStat.repair c.ix = 1 ∧ RegsBut [.coreWptrDigStat] s t ∧ Quiet s t) ∧
      (¬ good → ∃ t, exec (.digestStackHashDone c) s = .next t ∧ (t.dig c).hashes = rest ∧
        t.get F.stwShardDcnt.mismatch (Ix.stw c.die) = min (s.get F.stwShardDcnt.mismatch (Ix.stw c.die) + 1) 0xFFFF ∧
        t.get F.stwShardDcnt.refetch (Ix.stw c.die) = min (s.get F.stwShardDcnt.refetch (Ix.stw c.die) + 1) 0xFFFF ∧ Quiet s t))) ∧
  (∀ (s : State) (d : DieIx), s.stackWrites = [] →
    let per := 256 * s.get F.stwShardScfg.sper (Ix.stw d)
    let streaming := ∃ p h, s.partOf d = some p ∧ Map.find s.active p = some h ∧ h.streaming = true
    let due := 0 < per ∧ streaming ∧ s.dieDark d = false ∧ max (s.actStitch d) (Map.getD s.wts.sweepAt d.val 0) + per ≤ s.stitch
    (¬ due → exec (.shardSweep d) s = .next s) ∧
    (due → ∃ t, exec (.shardSweep d) s = .next t ∧ Map.find t.wts.sweepAt d.val = some s.stitch ∧
      t.get F.stwShardDcnt.swept (Ix.stw d) = min (s.get F.stwShardDcnt.swept (Ix.stw d) + 1) 0xFFFF ∧
      (t.get F.stwShardDcnt.mismatch (Ix.stw d) = s.get F.stwShardDcnt.mismatch (Ix.stw d) ∨ t.eventSeq = (s.eventSeq + 1) % 2 ^ 32) ∧
      RegsBut [.stwShardDcnt, .nirEvqCnt] s t ∧ Quiet s t)) ∧
  (∀ (s : State) (c : CluId) (ch : Fin 16) (v : Word64),
    ((s.chan c ch).cur ≠ none → ∀ run, ∃ t, exec (.chkRegisterWrite c ch run v) s = .next t ∧
      t.get F.chkCnt.ignwr (c.ix ch) = min (s.get F.chkCnt.ignwr (c.ix ch) + 1) 0xFFFF ∧ FieldsBut [(F.chkCnt.ignwr, c.ix ch)] s t ∧ Quiet s t) ∧
    ((s.chan c ch).cur = none → (∃ t, exec (.chkRegisterWrite c ch true v) s = .next t ∧
      t.get F.chkRun.reg (c.ix ch) = v.toNat % 2 ^ (polyOf (s.get F.chkCfg.poly (c.ix ch))).width ∧
      FieldsBut [(F.chkRun.reg, c.ix ch)] s t ∧ Quiet s t) ∧
      (∃ t, exec (.chkRegisterWrite c ch false v) s = .next t ∧ t.get F.chkCfg.poly (c.ix ch) = v.toNat % 4 ∧
        t.get F.chkCfg.acc (c.ix ch) = v.toNat / 4 % 2 ∧ t.get F.chkCfg.cont (c.ix ch) = v.toNat / 8 % 2 ∧ RegsBut [.chkCfg] s t ∧ Quiet s t)))

/-! ## Torus links (chapter 13) -/

/-- R411, R412, R415, R416, R504: training starts from alive value 0 and ends UP, MISWIRED or FAILED; a check failure sends NAK; ACK releases the frames
it covers, NAK resends the rest, and the sixteenth retry in a row fails the port; a lane lock lost fails it; an attachment moves to its alternate.
Completes: TORUS_ID_WRITE, LINK_TRAIN, LINK_TRAINING_DONE, LINK_FRAME_CHECK_FAIL, LANE_LOCK_LOST, LCTL_ACK, LCTL_NAK, LCTL_IDENT,
LCTL_SEND and ATTACHMENT_SWITCH. -/
def Obligations.LinkTrainingAndRetry : Prop :=
  ∀ (s : State) (p : Fin 6),
    let ix := Ix.mod p
    let failed := fun (t : State) => t.lkState p = lkFailed ∧ (t.port p).waiting = [] ∧ (t.port p).replay = []
    (∀ v : Word32, (s.kdl.k5 = true → ∃ t, exec (.torusIdWrite v) s = .next t ∧ t.net.idIgnored = s.net.idIgnored + 1 ∧ t.regs = s.regs ∧ Quiet s t) ∧
      (s.kdl.k5 = false → ∃ t, exec (.torusIdWrite v) s = .next t ∧ t.get F.nirTorusId.id Ix.mod = v.toNat % 2 ^ 16 ∧
        t.get F.nirTorusId.sx_m1 Ix.mod = v.toNat / 2 ^ 16 % 16 ∧ RegsBut [.nirTorusId] s t ∧ Quiet s t)) ∧
    (s.ringSize3 (p / 2) = 1 → ∃ t, exec (.linkTrain p) s = .next t ∧ t.lkState p = lkUnused ∧ RegsBut [.lnkStat, .nirEvqCnt] s t ∧ Quiet s t) ∧
    (s.ringSize3 (p / 2) ≠ 1 → ∃ t, exec (.linkTrain p) s = .next t ∧ t.lkState p = lkTraining ∧ t.port p = { alternate := (s.port p).alternate } ∧
      (∀ v < 4, t.get F.lnkChkAlive.tx (Ix.mod p v) = 0 ∧ t.get F.lnkChkAlive.exp (Ix.mod p v) = 0) ∧ t.stitch = s.stitch ∧ t.cc = s.cc) ∧
    (∀ locked : Bool, (s.lkState p ≠ lkTraining → exec (.linkTrainingDone p locked) s = .next s) ∧
      (s.lkState p = lkTraining → locked = false → ∃ t, exec (.linkTrainingDone p locked) s = .next t ∧ failed t ∧ t.cores = s.cores) ∧
      (s.lkState p = lkTraining → locked = true → (s.port p).ident = false → exec (.linkTrainingDone p locked) s = .next s) ∧
      (s.lkState p = lkTraining → locked = true → (s.port p).ident = true → ∃ t, exec (.linkTrainingDone p locked) s = .next t ∧
        t.lkState p = (if s.neighbourOk p then lkUp else lkMiswired) ∧ t.eventSeq = (s.eventSeq + 1) % 2 ^ 32 ∧
        RegsBut [.lnkStat, .nirEvqCnt] s t ∧ Quiet s t)) ∧
    (s.lkState p ≠ lkUp → exec (.linkFrameCheckFail p) s = .next s) ∧
    (s.lkState p = lkUp → ∃ t, exec (.linkFrameCheckFail p) s = .next t ∧ t.out = s.out ++ [.frame p (s.lctl p 1)] ∧
      t.get F.lnkChkCnt.checked ix = min (s.get F.lnkChkCnt.checked ix + 1) 0xFFFF ∧
      t.get F.lnkChkCnt.mismatch ix = min (s.get F.lnkChkCnt.mismatch ix + 1) 0xFFFF ∧ RegsBut [.lnkChkCnt] s t ∧ Quiet s t) ∧
    (s.lkState p ∉ [lkTraining, lkUp, lkMiswired] → exec (.laneLockLost p) s = .next s) ∧
    (s.lkState p ∈ [lkTraining, lkUp, lkMiswired] → ∃ t, exec (.laneLockLost p) s = .next t ∧ failed t ∧ t.cores = s.cores ∧ t.stitch = s.stitch) ∧
    (∀ f : Frame,
      ((s.lkState p ≠ lkUp ∨ f.ty ≠ 5 ∨ f.ext 80 4 ≠ 0) → exec (.lctlAck p f) s = .next s) ∧
      ((s.lkState p ≠ lkUp ∨ f.ty ≠ 5 ∨ f.ext 80 4 ≠ 1) → exec (.lctlNak p f) s = .next s) ∧
      (s.lkState p = lkUp → f.ty = 5 → f.ext 80 4 = 0 → (s.port p).waiting = [] → ∃ t, exec (.lctlAck p f) s = .next t ∧
        (t.port p).replay = (s.port p).replay.filter (fun g => !coveredBy g.alive (f.ext (84 + 8 * g.vc) 8)) ∧ t.out = s.out ∧ t.regs = s.regs ∧
        Quiet s t) ∧
      (s.lkState p = lkUp → f.ty = 5 → f.ext 80 4 = 1 → (s.port p).waiting = [] →
        let keep := (s.port p).replay.filter fun g => !coveredBy g.alive ((f.ext (84 + 8 * g.vc) 8 + 255) % 256)
        let tries := (if keep.length = (s.port p).replay.length then (s.port p).tries else 0) + 1
        (tries < 16 → ∃ t, exec (.lctlNak p f) s = .next t ∧ (t.port p).replay = keep ∧ t.out = s.out ++ keep.map (fun g => .frame p g) ∧
          t.lkState p = lkUp ∧ RegsBut [.lnkCnt] s t ∧ Quiet s t) ∧
        (16 ≤ tries → keep ≠ [] → ∃ t, exec (.lctlNak p f) s = .next t ∧ failed t ∧ t.stitch = s.stitch ∧ t.cc = s.cc)) ∧
      (¬ (s.lkState p = lkTraining ∧ f.ty = 5 ∧ f.ext 80 4 = 2) → exec (.lctlIdent p f) s = .next s) ∧
      (s.lkState p = lkTraining → f.ty = 5 → f.ext 80 4 = 2 → ∃ t, exec (.lctlIdent p f) s = .next t ∧ (t.port p).ident = true ∧
        t.get F.lnkStat.peer ix = f.src ∧ FieldsBut [(F.lnkStat.peer, ix)] s t ∧ Quiet s t)) ∧
    (let due := s.lkState p = lkUp ∧ ((∃ b < 8, Map.getD (s.port p).told b 0 + 64 ≤ Map.getD (s.port p).freed b 0) ∨ (s.port p).lctlAt + 3168 ≤ s.wall)
     (¬ due → exec (.lctlSend p) s = .next s) ∧
     (due → ∃ t, exec (.lctlSend p) s = .next t ∧ t.out = s.out ++ [.frame p (s.lctl p 0)] ∧ (t.port p).told = (s.port p).freed ∧
       (t.port p).lctlAt = s.wall ∧ t.regs = s.regs ∧ Quiet s t)) ∧
    (((s.port p).alternate = true ∨ s.dieDark (attachDie p) = false) → exec (.attachmentSwitch p) s = .next s) ∧
    ((s.port p).alternate = false → s.dieDark (attachDie p) = true → ∃ t, exec (.attachmentSwitch p) s = .next t ∧ (t.port p).alternate = true ∧
      (∀ w ∈ t.net.inWrites, w.port = p.val → w.status ≠ none) ∧ t.stitch = s.stitch ∧ t.cc = s.cc ∧ t.mem = s.mem)

/-- R406, R407, R417, R419, R420: a frame at a port that is not UP, or a repeat, changes nothing but counters; a WRITE for this module lands or is
rejected with one COMPL; a COMPL ends its transfer; a SIGNAL goes to its object's sync unit, or is counted; the module's own frames leave by their route.
Completes: WRITE_FRAME, COMPL_FRAME, SIGNAL_FRAME, BADTYPE_FRAME and FRAME_FORWARD. -/
def Obligations.TorusFrames : Prop :=
  (∀ (s : State) (p : Fin 6) (f : Frame) (t2 t3 : Word64),
    let all := [Instr.writeFrame p f, .complFrame p f, .signalFrame p f, .tsyncReq p f t2 t3, .tsyncResp p f t2, .tsyncStep p f, .badtypeFrame p f,
      .frameForward (some (p, f))]
    let d := (f.alive + 256 - s.get F.lnkChkAlive.exp (Ix.mod p f.vc)) % 256
    (s.lkState p ≠ lkUp → ∀ i ∈ all, exec i s = .next s) ∧
    (f.ty ≠ 1 → exec (.writeFrame p f) s = .next s) ∧ (f.ty ≠ 2 → exec (.complFrame p f) s = .next s) ∧
    (f.ty ≠ 3 → exec (.signalFrame p f) s = .next s) ∧ (1 ≤ f.ty → f.ty ≤ 5 → exec (.badtypeFrame p f) s = .next s) ∧
    (s.lkState p = lkUp → 128 ≤ d → ∀ i, i = (match f.ty with
        | 1 => .writeFrame p f
        | 2 => .complFrame p f
        | 3 => .signalFrame p f
        | 4 => .tsyncReq p f t2 t3
        | _ => .badtypeFrame p f) → f.ty ≠ 5 → ∃ t, exec i s = .next t ∧
      t.get F.lnkChkAlive.repeat_ (Ix.mod p f.vc) = min (s.get F.lnkChkAlive.repeat_ (Ix.mod p f.vc) + 1) 0xFFFF ∧
      t.get F.lnkChkAlive.exp (Ix.mod p f.vc) = s.get F.lnkChkAlive.exp (Ix.mod p f.vc) ∧ RegsBut [.lnkChkAlive, .lnkChkCnt] s t ∧ Quiet s t) ∧
    (s.lkState p = lkUp → d = 0 → (f.ty = 0 ∨ 5 < f.ty) → ∃ t, exec (.badtypeFrame p f) s = .next t ∧
      t.get F.lnkCnt.badtype (Ix.mod p) = min (s.get F.lnkCnt.badtype (Ix.mod p) + 1) 0xFF ∧
      t.get F.lnkChkAlive.exp (Ix.mod p f.vc) = (s.get F.lnkChkAlive.exp (Ix.mod p f.vc) + 1) % 256 ∧
      RegsBut [.lnkChkAlive, .lnkChkCnt, .lnkCnt] s t ∧ Quiet s t)) ∧
  (∀ (s : State) (p : Fin 6) (f : Frame), s.lkState p = lkUp → f.dst = s.ownId →
    (f.alive + 256 - s.get F.lnkChkAlive.exp (Ix.mod p f.vc)) % 256 = 0 →
    (f.ty = 3 → (∀ c, s.attached p = true → Map.find s.tack ⟨f.part, f.ext 80 5, f.ext 85 7⟩ ≠ some c) → ∃ t, exec (.signalFrame p f) s = .next t ∧
      t.get F.lnkCnt.drop (Ix.mod p) = min (s.get F.lnkCnt.drop (Ix.mod p) + 1) 0xFFFF ∧ t.syncQ = s.syncQ ∧ Quiet s t) ∧
    (∀ c, f.ty = 3 → s.attached p = true → Map.find s.tack ⟨f.part, f.ext 80 5, f.ext 85 7⟩ = some c → s.dieDark c.die = false →
      s.dieEmber c.die = false → ∃ t, exec (.signalFrame p f) s = .next t ∧
        (∃ u ∈ t.syncQ, u.clu = c ∧ u.obj = f.ext 92 7 ∧ u.inc = f.ext 99 8 ∧ u.reset = false ∧ u.port = 4 ∧ s.now ≤ u.due) ∧ Quiet s t) ∧
    (∀ c, f.ty = 3 → s.attached p = true → Map.find s.tack ⟨f.part, f.ext 80 5, f.ext 85 7⟩ = some c →
      (s.dieDark c.die = true ∨ s.dieEmber c.die = true) → ∃ t, exec (.signalFrame p f) s = .next t ∧
        t.get F.cluRtrCnt.sigdrop c.ix = min (s.get F.cluRtrCnt.sigdrop c.ix + 1) 0xFFFF ∧ t.syncQ = s.syncQ ∧ Quiet s t) ∧
    (f.ty = 2 → s.attached p = false → ∃ t, exec (.complFrame p f) s = .next t ∧ t.flights = s.flights ∧
        t.get F.lnkCnt.drop (Ix.mod p) = min (s.get F.lnkCnt.drop (Ix.mod p) + 1) 0xFFFF ∧ Quiet s t) ∧
    (f.ty = 2 → s.attached p = true →
      let wants := fun (x : Xfer) => x.torus.isSome && x.launched.isSome && x.status.isNone && decide (x.xid = f.xid)
      (s.flights.find? wants = none → ∃ t, exec (.complFrame p f) s = .next t ∧ t.flights = s.flights ∧
        t.get F.lnkCnt.dupcompl (Ix.mod p) = min (s.get F.lnkCnt.dupcompl (Ix.mod p) + 1) 0xFFFF ∧ Quiet s t) ∧
      (∀ x, s.flights.find? wants = some x → s.flight x.id = some x → ∃ t y, exec (.complFrame p f) s = .next t ∧ t.flight x.id = some y ∧
        y.status = some (f.ext 80 4) ∧ y.landed = f.ext 84 24 ∧ Quiet s t)) ∧
    (∀ a, Sound s → f.ty = 1 → f.first = true → f.last = true → s.attached p = true → s.frameDst f = some a → addrSpace a = 0 → f.src ≠ f.dst → s.upsets = [] →
      f.data.length = f.ext 141 24 → f.ext 165 1 = 0 →
      let r := (firstCheck f a (f.ext 141 24) s).1
      let compl := fun (st landed : Nat) => (⟨frameHdr 2 1 true true f.src s.ownId f.part 0 f.xid (st + landed * 2 ^ 4), []⟩ : Frame)
      (r = xOk → s.darkAt a = false → s.dieEmber (addrDie a) = false → s.gateShut a f.data.length = false →
        ∃ t, exec (.writeFrame p f) s = .next t ∧ StoresAt s t a f.data ∧ t.inject = s.inject ++ [compl xOk f.data.length] ∧
          t.cores = s.cores ∧ t.stitch = s.stitch ∧ t.cc = s.cc) ∧
      (r ≠ xOk → ∃ t, exec (.writeFrame p f) s = .next t ∧ t.inject = s.inject ++ [compl r 0] ∧ t.mem = s.mem ∧
          t.cores = s.cores ∧ t.stitch = s.stitch ∧ t.cc = s.cc))) ∧
  (∀ s : State, (s.inject = [] → exec (.frameForward none) s = .next s) ∧
    (∀ f rest, s.inject = f :: rest →
      ((f.dst / 4096 ≠ s.ownId / 4096 ∨ s.torusPort f.dst = none) → exec (.frameForward none) s = .next { s with inject := rest }) ∧
      (∀ p dl, f.dst / 4096 = s.ownId / 4096 → s.route f 6 = some (p, dl) →
        (s.lkState p ≠ lkUp → f.ty ≠ 1 → f.ty ≠ 2 → ∃ t, exec (.frameForward none) s = .next t ∧ t.inject = rest ∧
          t.get F.lnkCnt.drop (Ix.mod p) = min (s.get F.lnkCnt.drop (Ix.mod p) + 1) 0xFFFF ∧ t.out = s.out ∧ Quiet s t) ∧
        (s.lkState p = lkUp → (s.port p).waiting = [] → (s.port p).canSend (f.put 6 1 dl) = true →
          let g := (f.put 6 1 dl).put 8 8 (s.get F.lnkChkAlive.tx (Ix.mod p (f.put 6 1 dl).vc))
          ∃ t, exec (.frameForward none) s = .next t ∧ t.inject = rest ∧ t.out = s.out ++ [.frame p g] ∧ (t.port p).replay = (s.port p).replay ++ [g] ∧
            RegsBut [.lnkChkAlive] s t ∧ Quiet s t))))

/-- R421-R425: a module that is not the root asks its parent in K5 and every 65,536 st, answers a child's request with its receive and send times, and
loads its counters from the response once; a departure beyond 16 cc or a step told too late ends the alignment; a step in time is announced.
Completes: TIME_EXCHANGE, TSYNC_REQ, TSYNC_RESP and TSYNC_STEP. -/
def Obligations.TimebaseAlignment : Prop :=
  (∀ (s : State) (t1 : Word64),
    ((s.timeParent = none ∨ (s.aligning = false ∧ (s.aligned = false ∨ s.stitch < s.net.timeAt + 65536))) → exec (.timeExchange t1) s = .next s) ∧
    (∀ p, s.timeParent = some p → (s.aligning = true ∨ (s.aligned = true ∧ s.net.timeAt + 65536 ≤ s.stitch)) →
      ∃ t, exec (.timeExchange t1) s = .next t ∧ t.net.timeReq = some t1.toNat ∧ t.net.timeAt = s.stitch ∧
        RegsBut [.lnkChkAlive, .lnkCnt] s t ∧ Quiet s t)) ∧
  (∀ (s : State) (p : Fin 6) (f : Frame) (t2 t3 t4 : Word64), s.lkState p = lkUp → f.dst = s.ownId → f.ty = 4 →
    (f.alive + 256 - s.get F.lnkChkAlive.exp (Ix.mod p f.vc)) % 256 = 0 →
    (f.ext 80 4 = 0 → (s.port p).waiting = [] → Map.getD (s.port p).used 6 0 + 2 ≤ 1024 →
      ((s.port p).replay.filter fun g => decide (g.vc = 3)).length < 64 →
      ∃ t g, exec (.tsyncReq p f t2 t3) s = .next t ∧ (t.port p).child = true ∧ t.out = s.out ++ [.frame p g] ∧
        g.data = natToBytes 8 (f.word 0) ++ natToBytes 8 t2.toNat ++ natToBytes 8 t3.toNat ++
          natToBytes 8 (ofSigned 64 (toSigned 32 (s.get F.nirTorusTstat.resid Ix.mod))) ∧
        RegsBut [.lnkChkAlive, .lnkChkCnt] s t ∧ Quiet s t) ∧
    (f.ext 80 4 = 1 →
      let known := s.timeParent = some p.val ∧ s.net.timeReq = some (f.word 0)
      let off : Int := (((f.word 0 : Int) - f.word 1) + ((t4.toNat : Int) - f.word 2)) / 2 + toSigned 64 (f.word 3)
      (¬ known → ∃ t, exec (.tsyncResp p f t4) s = .next t ∧ t.stitch = s.stitch ∧ RegsBut [.lnkChkAlive, .lnkChkCnt] s t ∧ t.mem = s.mem) ∧
      (known → s.aligning = true → f.ext 89 1 = 1 → f.ext 84 5 < 24 → ∃ t, exec (.tsyncResp p f t4) s = .next t ∧
        t.stitch = ofSigned 64 ((s.stitch : Int) - (off + 64) / 128) ∧ t.get F.nirTorusTstat.aligned Ix.mod = 1 ∧
        t.get F.nirTorusTstat.depth Ix.mod = f.ext 84 5 + 1 ∧ t.get F.nirTorusTstat.resid Ix.mod = ofSigned 32 (off - 128 * ((off + 64) / 128)) ∧
        t.cc = s.cc ∧ t.mem = s.mem ∧ RegsBut [.nirTorusTstat, .lnkStat, .lnkChkAlive, .lnkChkCnt] s t) ∧
      (known → s.aligned = true → ∃ t, exec (.tsyncResp p f t4) s = .next t ∧
        t.get F.nirTorusTstat.aligned Ix.mod = (if 128 < off ∨ off < -128 then 0 else s.get F.nirTorusTstat.aligned Ix.mod) ∧
        t.stitch = s.stitch ∧ RegsBut [.nirTorusTstat, .lnkStat, .lnkChkAlive, .lnkChkCnt, .nirEvqCnt] s t ∧ Quiet s t)) ∧
    (f.ext 80 4 = 2 →
      let k := min (f.word 1) 5
      (s.lockstep = false → ∃ t, exec (.tsyncStep p f) s = .next t ∧ RegsBut [.lnkChkAlive, .lnkChkCnt] s t ∧ t.stepReqs = s.stepReqs ∧ Quiet s t) ∧
      (s.lockstep = true → s.timeRoot = true → ∃ t, exec (.tsyncStep p f) s = .next t ∧ Map.find t.stepReqs .root = some k ∧
        t.get F.nirTimeStep.cur_step Ix.mod = s.get F.nirTimeStep.cur_step Ix.mod ∧ Quiet s t) ∧
      (s.lockstep = true → s.get F.nirTorusTcfg.tparent Ix.mod = p →
        (f.word 0 < s.stitch + 64 → ∃ t, exec (.tsyncStep p f) s = .next t ∧ t.get F.nirTorusTstat.aligned Ix.mod = 0 ∧
          t.inject.length = s.inject.length + s.childPorts.length ∧ Quiet s t) ∧
        (s.stitch + 64 ≤ f.word 0 → f.word 0 < 2 ^ 64 → (s.curStep + 1 = k ∨ k + 1 = s.curStep) → s.canAnnounce k = true →
          ∃ t, exec (.tsyncStep p f) s = .next t ∧ t.get F.nirTimeStep.next_step Ix.mod = k ∧ t.get F.nirTimeStep.pending Ix.mod = 1 ∧
            t.get F.nirTimeStepAt.stitch Ix.mod = f.word 0 ∧ t.inject.length = s.inject.length + s.childPorts.length ∧ Quiet s t))))

/-! ## Registers and the host's interfaces (chapters 00, 10, 13, 17) -/

/-- R14, R28, R436: a write of a register that can be reached changes the bits its field types let it change; registers that submit a command act as that
command.  R16: a bit cleared by writing 1 stays set where hardware set it in this cycle.
Completes: REGISTER_WRITE. -/
def Obligations.RegisterWrites : Prop :=
  (∀ (s : State) (r : Reg) (ix : Ix) (w : Fin 16) (wide : Bool) (v : Word64),
    let lo := 32 * w.val
    let n := if wide = true then 64 else 32
    (s.unitUp r ix = false → exec (.registerWrite r ix w wide v) s = .next s) ∧
    (s.unitUp r ix = true → r ∉ [.nirTimeStep, .srvKvAt, .cluSbufInval, .stwWincmdAt, .cluSynHsig, .nirCinchAt, .hrnPart, .hrnLoadGo, .hrnSwapAt, .hrnLaunch,
        .srvSubqTail, .srvReqCmd, .srvRingCons, .stwShardCmd, .chkCfg, .chkRun, .nirTorusId, .lnkCtl, .nirPwrGov, .stwPwrSeqAt, .tlmRef, .tlmUrg, .tlmAccRange,
        .nirKindleCmd, .nirEvqCfg, .nirEvqCons, .nirEmberCmd, .hstQp, .hstMsix] →
      ∃ t, exec (.registerWrite r ix w wide v) s = .next t ∧ (∀ g jx, (g.reg ≠ r ∨ jx ≠ ix) → t.get g jx = s.get g jx) ∧
      (∀ f ∈ Reg.fields r,
        let g : Fld := ⟨r, f.lo, f.width⟩
        ((f.ty = .ro ∨ f.ty = .rc ∨ f.ty = .rwh) → t.get g ix = s.get g ix) ∧
        (∀ i < f.width,
          let hit := lo ≤ f.lo + i ∧ f.lo + i < lo + n
          let bit := v.toNat.testBit (f.lo + i - lo)
          ((f.ty = .wo ∨ f.ty = .rw ∧ ∀ y, storeRule g y = y) → (hit → (t.get g ix).testBit i = bit) ∧
            (¬ hit → (t.get g ix).testBit i = (s.get g ix).testBit i)) ∧
          (f.ty = .w1c → (hit → bit = true → (t.get g ix).testBit i = ((s.get g ix).testBit i && !(s.before.get g ix).testBit i)) ∧
            ((¬ hit ∨ bit = false) → (t.get g ix).testBit i = (s.get g ix).testBit i))) ∧
        (f.ty = .rw → lo ≤ f.lo → f.lo + f.width ≤ lo + n → s.get g ix < 2 ^ f.width →
          t.get g ix = storeRule g (bitsOf v.toNat (f.lo - lo) f.width) % 2 ^ f.width)) ∧
      (Reg.meetsRwh r lo n = true → Map.getD t.ignored (r, ix) 0 = Map.getD s.ignored (r, ix) 0 + 1) ∧
      (Reg.meetsRwh r lo n = false → t.ignored = s.ignored) ∧ Quiet s t)) ∧
  (∀ (s : State) (v : Word64) (p : PartIx) (q : Fin 16) (l : Fin 6),
    exec (.registerWrite .nirTorusId Ix.mod 0 false v) s = exec (.torusIdWrite (v.setWidth 32)) s ∧
    exec (.registerWrite .nirEvqCons Ix.mod 0 false v) s = exec (.eventConsWrite (v.setWidth 32)) s ∧
    exec (.registerWrite .srvSubqTail (Ix.mod p) 0 false v) s = exec (.subqTailWrite p (v.setWidth 32)) s ∧
    exec (.registerWrite .srvRingCons (Ix.mod p q) 0 false v) s = exec (.ringConsWrite p q (v.setWidth 32)) s ∧
    exec (.registerWrite .hrnPart (Ix.mod p) 0 false v) s = exec (.partitionWrite p (v.setWidth 24)) s ∧
    exec (.registerWrite .nirTimeStep Ix.mod 0 false v) s = exec (.ceilStepWrite ⟨v.toNat / 256 % 8, Nat.mod_lt _ (by decide)⟩) s ∧
    exec (.registerWrite .lnkCtl (Ix.mod l) 0 false v) s = (if v.toNat % 2 = 1 then exec (.linkTrain l) s else .next s) ∧
    exec (.registerWrite .hrnLoadGo (Ix.mod p) 0 false v) s = (if v.toNat % 2 = 1 then exec (.harnessLoadGo p) s else .next s) ∧
    exec (.registerWrite .nirKindleCmd Ix.mod 0 false v) s = (if v.toNat % 4 = 1 then exec .kindleFull s else .next s) ∧
    exec (.registerWrite .nirCinchAt Ix.mod 0 true v) s = exec (.cinchRequest v) (s.set F.nirCinchAt.stitch Ix.mod v.toNat) ∧
    exec (.registerWrite .hrnSwapAt (Ix.mod p) 0 true v) s = exec (.swapRequest p v) (s.set F.hrnSwapAt.stitch (Ix.mod p) v.toNat) ∧
    exec (.registerWrite .hrnLaunch (Ix.mod p) 0 true v) s = exec (.hrnLaunch p v) (s.set F.hrnLaunch.stitch (Ix.mod p) v.toNat) ∧
    (∀ r ∈ [Reg.nirCinchAt, .hrnSwapAt, .hrnLaunch], ∃ t, exec (.registerWrite r (Ix.mod (if r = .nirCinchAt then 0 else p)) 0 false v) s = .next t ∧
      RegsBut [r] s t ∧ Quiet s t) ∧
    (∃ t, exec (.registerWrite .nirPwrGov Ix.mod 0 false v) s = .next t ∧
      t.get F.nirPwrGov.plim Ix.mod = min (max (v.toNat % 2 ^ 16) 3000) s.gradeLimit ∧ RegsBut [.nirPwrGov] s t ∧ Quiet s t))

/-- R16, R303, R428, R430, R436, R437: a counter read answers the value before the increments of its cycle and leaves those; the host, the management network and
the console reach the same places; what the module refuses is counted for the host and answered as refused.
Completes: RC_COUNTER_READ, BAR0_ACCESS, MGMT_READ32, MGMT_WRITE32, MGMT_READ64, MGMT_WRITE64, MGMT_CONSOLE_BYTES, MGMT_BAD_OP,
CONSOLE_REGISTER_READ, CONSOLE_REGISTER_WRITE and CONSOLE_KINDLING_COMMAND. -/
def Obligations.RegisterAccess : Prop :=
  (∀ (s : State) (r : Reg) (ix : Ix) (lo : Fin 512) (inc : Bool),
    ((s.unitUp r ix = false ∨ ∀ f ∈ Reg.fields r, f.lo ≠ lo.val ∨ f.ty ≠ .rc) → exec (.rcCounterRead r ix lo inc) s = .next s) ∧
    (∀ f, s.unitUp r ix = true → r ≠ .tlmQ → f ∈ Reg.fields r → f.lo = lo.val → f.ty = .rc → ∃ t, exec (.rcCounterRead r ix lo inc) s = .next t ∧
      t.out = s.out ++ [.answer (bitsOf (s.viewReg r ix) f.lo f.width) true] ∧
      (s.get ⟨r, f.lo, f.width⟩ ix < 2 ^ f.width → t.get ⟨r, f.lo, f.width⟩ ix =
        min (s.get ⟨r, f.lo, f.width⟩ ix - s.before.get ⟨r, f.lo, f.width⟩ ix + (if inc = true ∧ isCounter r f.lo = true then 1 else 0)) (2 ^ f.width - 1)) ∧ FieldsBut [(⟨r, f.lo, f.width⟩, ix)] s t ∧ Quiet s t)) ∧
  (∀ (s : State) (ofs : BitVec 28) (v : Word64) (n : Nat),
    let o := ofs.toNat
    (s.pcieUp = false → exec (.bar0Access ofs none n) s = .next s ∧ exec (.bar0Access ofs (some v) n) s = .next s) ∧
    (s.pcieUp = true → s.barOk o n = false →
      (∃ t, exec (.bar0Access ofs (some v) n) s = .next t ∧ t.get F.hstPcieCnt.refwr Ix.mod = min (s.get F.hstPcieCnt.refwr Ix.mod + 1) 0xFFFF ∧
        t.get F.hstPcieRefaddr.addr Ix.mod = o ∧ t.get F.hstPcieRefaddr.bar Ix.mod = 0 ∧ t.out = s.out ∧
        RegsBut [.hstPcieCnt, .hstPcieRefaddr] s t ∧ Quiet s t) ∧
      (∃ t, exec (.bar0Access ofs none n) s = .next t ∧ t.get F.hstPcieCnt.refrd Ix.mod = min (s.get F.hstPcieCnt.refrd Ix.mod + 1) 0xFFFF ∧
        t.get F.hstPcieRefaddr.addr Ix.mod = o ∧ t.get F.hstPcieRefaddr.bar Ix.mod = 0 ∧ t.out = s.out ++ [.answer 0 false] ∧
        RegsBut [.hstPcieCnt, .hstPcieRefaddr] s t ∧ Quiet s t)) ∧
    (s.pcieUp = true → o % 4 = 0 → s.barPlace o = .reserved → exec (.bar0Access ofs (some v) 4) s = .next s ∧
      exec (.bar0Access ofs none 4) s = .next { s with out := s.out ++ [.answer 0 true] }) ∧
    (s.pcieUp = true → ∀ r ix, ∀ w : Fin 16, s.barPlace o = .reg r ix (4 * w.val) → s.unitUp r ix = true →
      (o % 4 = 0 → exec (.bar0Access ofs (some v) 4) s = exec (.registerWrite r ix w false v) s) ∧
      (o % 8 = 0 → s.barPlace (o + 4) = .reg r ix (4 * w.val + 4) → exec (.bar0Access ofs (some v) 8) s = exec (.registerWrite r ix w true v) s) ∧
      (o % 4 = 0 → r ≠ .tlmQ → r ≠ .nirTimeStitchLo → ∃ t, exec (.bar0Access ofs none 4) s = .next t ∧
        t.out = s.out ++ [.answer (bitsOf (s.viewReg r ix) (32 * w.val) 32) true] ∧
        (∀ f ∈ Reg.fields r, (f.ty = .rc ∧ 32 * w.val < f.lo + f.width ∧ f.lo + f.width ≤ 32 * w.val + 32 →
            t.get ⟨r, f.lo, f.width⟩ ix = (s.get ⟨r, f.lo, f.width⟩ ix - s.before.get ⟨r, f.lo, f.width⟩ ix) % 2 ^ f.width) ∧
          (f.ty ≠ .rc → t.get ⟨r, f.lo, f.width⟩ ix = s.get ⟨r, f.lo, f.width⟩ ix)) ∧ RegsBut [r] s t ∧ Quiet s t))) ∧
  (∀ (s : State) (src : BitVec 128) (tag op : Byte) (ofs : Word32) (v : Word64) (bs : List Byte),
    let o := ofs.toNat
    let answer := fun (t : State) (op st x : Nat) => { t with out := t.out ++ [Output.mgmt op tag.toNat st x] }
    (s.mgmtFrom src = false → ∀ i ∈ [Instr.mgmtRead32 src tag ofs, .mgmtWrite32 src tag ofs v, .mgmtRead64 src tag ofs, .mgmtWrite64 src tag ofs v,
      .mgmtConsoleBytes src tag bs, .mgmtBadOp src op tag], exec i s = .next s) ∧
    (s.mgmtFrom src = true →
      (s.barOk o 4 = false → exec (.mgmtRead32 src tag ofs) s = .next (answer s 1 1 0) ∧ exec (.mgmtWrite32 src tag ofs v) s = .next (answer s 2 1 0)) ∧
      (s.barOk o 8 = false → exec (.mgmtRead64 src tag ofs) s = .next (answer s 3 1 0) ∧ exec (.mgmtWrite64 src tag ofs v) s = .next (answer s 4 1 0)) ∧
      (o % 8 = 0 → s.barPlace o = .reserved → s.barPlace (o + 4) = .reserved →
        exec (.mgmtRead32 src tag ofs) s = .next (answer s 1 0 0) ∧ exec (.mgmtRead64 src tag ofs) s = .next (answer s 3 0 0)) ∧
      (∀ r ix, ∀ w : Fin 16, s.barPlace o = .reg r ix (4 * w.val) → s.unitUp r ix = true →
        (o % 4 = 0 → ∃ t, exec (.registerWrite r ix w false v) s = .next t ∧ exec (.mgmtWrite32 src tag ofs v) s = .next (answer t 2 0 0)) ∧
        (o % 8 = 0 → s.barPlace (o + 4) = .reg r ix (4 * w.val + 4) →
          (∃ t, exec (.registerWrite r ix w true v) s = .next t ∧ exec (.mgmtWrite64 src tag ofs v) s = .next (answer t 4 0 0)) ∧
          (r ≠ .tlmQ → r ≠ .nirTimeStitchLo → ∃ t, exec (.mgmtRead64 src tag ofs) s = .next t ∧
            t.out = s.out ++ [.mgmt 3 tag.toNat 0 (bitsOf (s.viewReg r ix) (32 * w.val) 64)] ∧ RegsBut [r] s t ∧ Quiet s t)) ∧
        (o % 4 = 0 → r ≠ .tlmQ → r ≠ .nirTimeStitchLo → ∃ t, exec (.mgmtRead32 src tag ofs) s = .next t ∧
          t.out = s.out ++ [.mgmt 1 tag.toNat 0 (bitsOf (s.viewReg r ix) (32 * w.val) 32)] ∧ RegsBut [r] s t ∧ Quiet s t)) ∧
      (∃ t, exec (.mgmtConsoleBytes src tag bs) s = .next t ∧ t.out = s.out ++ [.mgmt 5 tag.toNat 0 0] ∧
        t.net.conIn = s.net.conIn ++ bs.take 256 ∧ t.regs = s.regs ∧ Quiet s t) ∧
      (1 ≤ op.toNat → op.toNat ≤ 5 → exec (.mgmtBadOp src op tag) s = .next s) ∧
      ((op.toNat = 0 ∨ 5 < op.toNat) → exec (.mgmtBadOp src op tag) s = .next (answer s op.toNat 2 0)))) ∧
  (∀ (s : State) (ofs : Word32) (wide : Bool) (v : Word64) (k : ConsoleKindle),
    let o := ofs.toNat
    let n := if wide = true then 8 else 4
    (s.shut = true → exec (.consoleRegisterRead ofs wide) s = .next s ∧ exec (.consoleRegisterWrite ofs wide v) s = .next s) ∧
    (s.shut = false → s.barOk o n = false → exec (.consoleRegisterRead ofs wide) s = .next { s with out := s.out ++ [.answer 0 false] } ∧
      exec (.consoleRegisterWrite ofs wide v) s = .next { s with out := s.out ++ [.answer 0 false] }) ∧
    (s.shut = false → o % 8 = 0 → ∀ r ix, ∀ w : Fin 16, s.barPlace o = .reg r ix (4 * w.val) → s.barPlace (o + 4) = .reg r ix (4 * w.val + 4) →
      s.unitUp r ix = true → exec (.consoleRegisterWrite ofs wide v) s = exec (.registerWrite r ix w wide v) s ∧
      (r ≠ .tlmQ → r ≠ .nirTimeStitchLo → ∃ t, exec (.consoleRegisterRead ofs wide) s = .next t ∧
        t.out = s.out ++ [.answer (bitsOf (s.viewReg r ix) (32 * w.val) (8 * n)) true] ∧ RegsBut [r] s t ∧ Quiet s t)) ∧
    ((s.shut = true ∨ Config.consoleLists (ConsoleKindle.code k) = false) → exec (.consoleKindlingCommand k) s = .next s) ∧
    (s.shut = false → Config.consoleLists (ConsoleKindle.code k) = true → exec (.consoleKindlingCommand k) s = .next (match k with
      | .full => kindleFull s
      | .enter c => emberEnter c s
      | .leave c => emberExit c s)))

/-- R430-R434: BAR2 reaches the stack of the half's die or is refused and counted; a queue pair is enabled with its context and disabled to RESET; a request
in sequence is carried out or answered with an access NAK.  Repeats, the retry order and the pause time are the model's choices (entry 50);
so is the reply to a read whose data are uncorrectable (entry 190).  R277: a read of the stacks is counted where it was retried or failed.
Completes: BAR2_ACCESS, QP_ENABLE_WRITE, RDMA_WRITE_REQUEST, RDMA_READ_REQUEST, RDMA_INVALID_REQUEST, CNP_RECEIVE, QP_RETRY_TIMEOUT
and PFC_FRAME. -/
def Obligations.RdmaAndStackAccess : Prop :=
  (∀ (s : State) (ofs : BitVec 36) (bs : List Byte) (n : Nat) (e : ReadEcc),
    let d := s.before.get F.hstBar2sel.die (Ix.mod (ofs.toNat / 2 ^ 35))
    let o := ofs.toNat % 2 ^ 35
    let a := fabStack d o
    (s.pcieUp = false → exec (.bar2Access ofs none n e) s = .next s ∧ exec (.bar2Access ofs (some bs) n e) s = .next s) ∧
    (s.pcieUp = true →
      (s.stackAccess 4 d o bs.length = true → ∃ t, exec (.bar2Access ofs (some bs) n e) s = .next t ∧ (⟨129, s.now, a, bs⟩ : StackWr) ∈ t.stackWrites ∧
        t.stackWrites.length = s.stackWrites.length + 1 ∧ t.regs = s.regs ∧ t.out = s.out ∧ Quiet s t) ∧
      (s.stackAccess 4 d o bs.length = false → ∃ t, exec (.bar2Access ofs (some bs) n e) s = .next t ∧
        t.get F.hstPcieCnt.refwr Ix.mod = min (s.get F.hstPcieCnt.refwr Ix.mod + 1) 0xFFFF ∧ t.get F.hstPcieRefaddr.addr Ix.mod = ofs.toNat ∧
        t.get F.hstPcieRefaddr.bar Ix.mod = 1 ∧ t.out = s.out ∧ t.stackWrites = s.stackWrites ∧ RegsBut [.hstPcieCnt, .hstPcieRefaddr] s t ∧ Quiet s t) ∧
      (s.stackAccess 4 d o n = true → ∃ t, exec (.bar2Access ofs none n e) s = .next t ∧
        t.out = s.out ++ [if e = .failed then .dynDone a xEccUe [] else .dynDone a xOk (t.bytes a n)] ∧
        (∀ w ∈ t.stackWrites, sameSide w.addr a = false) ∧ ((∀ w ∈ s.stackWrites, sameSide w.addr a = false) → Quiet s t) ∧ EccCounted a e s t) ∧
      (s.stackAccess 4 d o n = false → ∃ t, exec (.bar2Access ofs none n e) s = .next t ∧
        t.get F.hstPcieCnt.refrd Ix.mod = min (s.get F.hstPcieCnt.refrd Ix.mod + 1) 0xFFFF ∧ t.get F.hstPcieRefaddr.addr Ix.mod = ofs.toNat ∧
        t.get F.hstPcieRefaddr.bar Ix.mod = 1 ∧ t.out = s.out ++ [.answer 0 false] ∧ RegsBut [.hstPcieCnt, .hstPcieRefaddr] s t ∧ Quiet s t))) ∧
  (∀ (s : State) (q : Fin 256),
    let ix := Ix.mod q
    (s.bit F.hstQp.en ix = true → exec (.qpEnableWrite q true) s = .next s) ∧
    (s.bit F.hstQp.en ix = false → ∃ t k, exec (.qpEnableWrite q true) s = .next t ∧ t.get F.hstQp.en ix = 1 ∧ t.get F.hstQp.state ix = 1 ∧
      Map.find t.net.qps q.val = some k ∧ k.ctx = t.peekReg .hstQp ix ∧ k.sPsn = s.get F.hstQp.spsn ix ∧ k.ePsn = s.get F.hstQp.rpsn ix ∧
      k.retries = s.get F.hstQp.retry ix ∧ FieldsBut [(F.hstQp.en, ix), (F.hstQp.state, ix)] s t ∧ Quiet s t) ∧
    (∃ t, exec (.qpEnableWrite q false) s = .next t ∧ t.get F.hstQp.en ix = 0 ∧ t.get F.hstQp.state ix = 0 ∧ Map.find t.net.qps q.val = none ∧
      ((∀ e ∈ s.wts.jobs, e.2.qp ≠ q.val) → FieldsBut [(F.hstQp.en, ix), (F.hstQp.state, ix)] s t ∧ Quiet s t))) ∧
  (∀ (s : State) (q : Fin 256) (psn : BitVec 24) (rkey : Word32) (va : Word64) (data : List Byte) (n : Nat) (e : ReadEcc),
    let ready := s.get F.hstQp.state (Ix.mod q) = 1
    let k := s.qp q
    let ahead := (psn.toNat + 2 ^ 24 - k.ePsn) % 2 ^ 24
    let write := fun ecn => Instr.rdmaWriteRequest q psn rkey va data ecn
    let read := fun ecn => Instr.rdmaReadRequest q psn rkey va n ecn e
    (¬ ready → ∀ ecn : Bool, ∀ i ∈ [write ecn, read ecn, .rdmaInvalidRequest q, .cnpReceive q, .qpRetryTimeout q], exec i s = .next s) ∧
    (ready →
      (exec (write true) s = exec (write false) (sendCnp q s) ∧ exec (read true) s = exec (read false) (sendCnp q s)) ∧
      ((∃ u, k.cnpAt = some u ∧ s.wall < u + 618750) → sendCnp q s = s) ∧
      ((∀ u, k.cnpAt = some u → u + 618750 ≤ s.wall) → (sendCnp q s).out = s.out ++ [.cnp q] ∧ ((sendCnp q s).qp q).cnpAt = some s.wall ∧
        (sendCnp q s).get F.hstRdmaCnt.cnp_tx Ix.mod = min (s.get F.hstRdmaCnt.cnp_tx Ix.mod + 1) 0xFFFF ∧ RegsBut [.hstRdmaCnt] s (sendCnp q s) ∧
        Quiet s (sendCnp q s)) ∧
      (ahead ≠ 0 → ahead < 2 ^ 23 → exec (write false) s = .next { s with out := s.out ++ [.rdmaReply q rdSequence []] } ∧
        exec (read false) s = .next { s with out := s.out ++ [.rdmaReply q rdSequence []] }) ∧
      (2 ^ 23 ≤ ahead → exec (write false) s = .next { s with out := s.out ++ [.rdmaReply q rdAck []] }) ∧
      (ahead = 0 → s.rdmaDie q true rkey.toNat va.toNat data.length = none → ∃ t, exec (write false) s = .next t ∧
        t.get F.hstRdmaCnt.accerr Ix.mod = min (s.get F.hstRdmaCnt.accerr Ix.mod + 1) 0xFFFF ∧ t.out = s.out ++ [.rdmaReply q rdAccess []] ∧
        t.net = s.net ∧ t.stackWrites = s.stackWrites ∧ RegsBut [.hstRdmaCnt] s t ∧ Quiet s t) ∧
      ((ahead = 0 ∨ 2 ^ 23 ≤ ahead) → s.rdmaDie q false rkey.toNat va.toNat n = none → ∃ t, exec (read false) s = .next t ∧
        t.get F.hstRdmaCnt.accerr Ix.mod = min (s.get F.hstRdmaCnt.accerr Ix.mod + 1) 0xFFFF ∧ t.out = s.out ++ [.rdmaReply q rdAccess []] ∧
        t.net = s.net ∧ RegsBut [.hstRdmaCnt] s t ∧ Quiet s t) ∧
      (∀ d, ahead = 0 → s.rdmaDie q true rkey.toNat va.toNat data.length = some d → ∃ t, exec (write false) s = .next t ∧
        (⟨129, s.now, fabStack d va.toNat, data⟩ : StackWr) ∈ t.stackWrites ∧ t.out = s.out ++ [.rdmaReply q rdAck []] ∧
        (t.qp q).ePsn = (psn.toNat + psnCount (bitsOf k.ctx 4 3) data.length) % 2 ^ 24 ∧ t.regs = s.regs ∧ Quiet s t) ∧
      (∀ d, (ahead = 0 ∨ 2 ^ 23 ≤ ahead) → s.rdmaDie q false rkey.toNat va.toNat n = some d → ∃ t, exec (read false) s = .next t ∧
        t.out = s.out ++ [if e = .failed then .rdmaReply q rdFailed [] else .rdmaReply q rdAck (t.bytes (fabStack d va.toNat) n)] ∧
        (t.qp q).ePsn = (if ahead = 0 then (psn.toNat + psnCount (bitsOf k.ctx 4 3) n) % 2 ^ 24 else k.ePsn) ∧ EccCounted (fabStack d va.toNat) e s t ∧
        ((∀ w ∈ s.stackWrites, sameSide w.addr (fabStack d va.toNat) = false) → Quiet s t)) ∧
      (∃ t, exec (.rdmaInvalidRequest q) s = .next t ∧ t.get F.hstRdmaCnt.invreq Ix.mod = min (s.get F.hstRdmaCnt.invreq Ix.mod + 1) 0xFFFF ∧
        t.out = s.out ++ [.rdmaReply q rdInvalid []] ∧ RegsBut [.hstRdmaCnt] s t ∧ Quiet s t) ∧
      (∃ t, exec (.cnpReceive q) s = .next t ∧ (t.qp q).rate = s.sendRate q / 2 ∧ (t.qp q).rateAt = s.wall ∧ t.regs = s.regs ∧ Quiet s t) ∧
      (k.retries = 0 → exec (.qpRetryTimeout q) s = .next s) ∧
      (∀ r, k.retries = r + 1 → ∃ t, exec (.qpRetryTimeout q) s = .next t ∧ (t.qp q).retries = r ∧ t.regs = s.regs ∧ t.wts = s.wts ∧ Quiet s t ∧
        ((∀ e ∈ s.wts.jobs, e.2.qp ≠ q.val) → t.out = s.out) ∧
        (∀ e m, s.wts.jobs = [e] → e.2.qp = q.val → e.2.outs = [m] → t.out = s.out ++ [.rdmaRead q
          ((k.sPsn + 2 ^ 24 - psnCount (bitsOf k.ctx 4 3) m) % 2 ^ 24) (e.2.raddr + e.2.landed) e.2.rkey m])))) ∧
  (∀ (s : State) (n : Fin 4) (prio : Fin 8) (quanta : Fin 65536), ∃ t, exec (.pfcFrame n prio quanta) s = .next t ∧
    Map.find t.net.pfc (n.val, prio.val) = (if quanta.val = 0 then none else some (s.wall + (quanta.val * 1584 + 99) / 100)) ∧
    ((quanta.val ≠ 0 ∨ s.wts.jobs = []) → t.out = s.out) ∧ t.regs = s.regs ∧ Quiet s t)

/-- R325, R427, R430, R436, R505, R506, R521: held events go to the ring oldest first as 128 B records, then PROD and a message; resets of the function clear
its tables and Bus Master Enable; PMBus and JTAG answer.  Data codings and register bits taken from the families are entries 51 and 52;
the speed and width a link trains to are free values (entry 206).
Completes: EVENT_WRITE, EVENT_CONS_WRITE, PCIE_CONFIG_WRITE, FUNCTION_LEVEL_RESET, PERST_ASSERT, PERST_DEASSERT, READ_VIN, READ_IIN, READ_PIN,
READ_TEMPERATURE_1, READ_TEMPERATURE_2, STATUS_WORD, CLEAR_FAULTS, PMBUS_REVISION, MFR_ID, MFR_MODEL, MFR_SERIAL, SMBUS_UNKNOWN_COMMAND,
JTAG_BYPASS, JTAG_IDCODE, JTAG_SAMPLE_PRELOAD, JTAG_EXTEST and JTAG_KEY_PROGRAM. -/
def Obligations.EventsPcieAndPmbus : Prop :=
  (∀ s : State,
    let n := min s.evqRoom s.events.length
    let size := 2 ^ min (max (s.get F.nirEvqCfg.size_log2 Ix.mod) 6) 16
    let prod := s.get F.nirEvqProd.count Ix.mod
    let vec := s.get F.nirEvqCfg.vec Ix.mod
    ((s.bit F.nirEvqCfg.en Ix.mod = false ∨ s.bit F.hstPcieStat.bme Ix.mod = false ∨ s.events = []) → exec .eventWrite s = .next s) ∧
    (n = 0 → exec .eventWrite s = .next s) ∧
    (n ≠ 0 → ∃ t, exec .eventWrite s = .next t ∧ t.events = s.events.drop n ∧ t.get F.nirEvqProd.count Ix.mod = (prod + n) % 2 ^ 32 ∧
      t.get F.nirEvqCnt.held Ix.mod = (s.events.length - n) % 2 ^ 11 ∧
      t.out = s.out ++ ((s.events.take n).zipIdx.map fun e => .hostWrite (s.get F.nirEvqBase.addr Ix.mod + 128 * ((prod + e.2) % 2 ^ 32 % size)) e.1.record) ++
        [.hostWrite (s.get F.nirEvqProdaddr.addr Ix.mod) (natToBytes 8 ((prod + n) % 2 ^ 32))] ++
        (if s.bit F.hstMsix.mask (Ix.mod vec) = true then [] else [.msix vec]) ∧
      RegsBut [.nirEvqProd, .nirEvqCnt, .hstPba] s t ∧ Quiet s t) ∧
    (∀ e ∈ s.events, e.record.length = 128) ∧
    (∀ v : Word32, exec (.eventConsWrite v) s = .next (eventWrite (s.set F.nirEvqCons.count Ix.mod v.toNat)) ∧
      exec .eventWrite s = .next (eventWrite s))) ∧
  (∀ (s : State) (ofs : Fin 1024) (v : Word32),
    ((s.net.perst = true ∨ s.net.answersAt = none) → exec (.pcieConfigWrite ofs v) s = .next s) ∧
    (s.net.perst = false → s.net.answersAt ≠ none → ∃ t, exec (.pcieConfigWrite ofs v) s = .next t ∧ Map.find t.net.pcieCfg ofs.val = some v.toNat ∧
      (ofs.val ≠ 1 → t.regs = s.regs ∧ t.out = s.out) ∧
      (ofs.val = 1 → t.get F.hstPcieStat.bme Ix.mod = v.toNat / 4 % 2) ∧
      (ofs.val = 1 → v.toNat / 4 % 2 = 0 → FieldsBut [(F.hstPcieStat.bme, Ix.mod)] s t ∧ t.out = s.out) ∧
      RegsBut [.hstPcieStat, .nirEvqProd, .nirEvqCnt, .hstPba, .srvRingProd, .srvStat] s t ∧ Quiet s t) ∧
    (∀ i ∈ [Instr.functionLevelReset, .perstAssert], ∃ t, exec i s = .next t ∧ t.get F.hstPcieStat.bme Ix.mod = 0 ∧ t.net.pcieCfg = [] ∧
      (∀ f ix, (f.reg = .hstMsix ∨ f.reg = .hstPba) → t.get f ix = resetOf f.reg f.lo ix) ∧ t.recs = s.recs ∧ t.events = s.events ∧
      RegsBut [.hstMsix, .hstPba, .hstPcieStat] s t ∧ Quiet s t ∧
      (i = .perstAssert → t.net.perst = true ∧ t.net.answersAt = none ∧ t.pcieUp = false ∧ t.get F.hstPcieStat.speed Ix.mod = 0 ∧
        t.get F.hstPcieStat.width Ix.mod = 0) ∧ (i = .functionLevelReset → t.pcieUp = s.pcieUp)) ∧
    (s.net.perst = false → exec .perstDeassert s = .next s) ∧
    (s.net.perst = true → 
      let fit := 5400 ≤ s.get F.nirPwrStat.vbus Ix.mod ∧ s.get F.nirPwrStat.vbus Ix.mod ≤ 6300 ∧ s.shut = false
      ∃ t, exec .perstDeassert s = .next t ∧ t.net.perst = false ∧ t.out = s.out ∧ Quiet s t ∧
        (¬ fit → t.regs = s.regs ∧ t.net.answersAt = s.net.answersAt) ∧
        (fit → t.net.answersAt = some s.wall ∧ 1 ≤ t.get F.hstPcieStat.speed Ix.mod ∧ t.get F.hstPcieStat.speed Ix.mod ≤ 5 ∧
          t.get F.hstPcieStat.width Ix.mod ∈ [1, 2, 4, 8, 16] ∧
          FieldsBut [(F.hstPcieStat.speed, Ix.mod), (F.hstPcieStat.width, Ix.mod)] s t))) ∧
  (∀ s : State,
    let answer := fun x => (.next { s with out := s.out ++ [Output.answer x true] } : Host.Outcome State Fault Refusal)
    (s.shut = true → ∀ i ∈ [Instr.readVin, .readIin, .readPin, .readTemperature1, .readTemperature2, .statusWord, .clearFaults, .pmbusRevision, .mfrId,
      .mfrModel, .mfrSerial, .smbusUnknownCommand], exec i s = .next s) ∧
    (s.shut = false →
      exec .readVin s = answer (Config.pmbusCode 0x88 (s.get F.nirPwrStat.vbus Ix.mod)) ∧
      exec .readIin s = answer (Config.pmbusCode 0x89 (s.get F.nirPwrPin.p1ms Ix.mod * 10000 / s.get F.nirPwrStat.vbus Ix.mod)) ∧
      exec .readPin s = answer (Config.pmbusCode 0x97 (s.get F.nirPwrPin.p1ms Ix.mod)) ∧
      exec .readTemperature1 s = answer (Config.pmbusCode 0x8D (s.get F.nirCoolMeas.tin Ix.mod)) ∧
      exec .readTemperature2 s = answer (Config.pmbusCode 0x8E (s.get F.nirThmStat.thot Ix.mod)) ∧
      exec .statusWord s = answer s.net.pmStatus ∧ exec .pmbusRevision s = answer (Config.pmbusCode 0x98 13) ∧
      exec .mfrId s = answer (Config.pmbusCode 0x99 0) ∧ exec .mfrModel s = answer (Config.pmbusCode 0x9A (s.peekReg .nirIdInfo Ix.mod)) ∧
      exec .mfrSerial s = answer (Config.pmbusCode 0x9E (s.get F.nirIdSerial.serial Ix.mod)) ∧
      exec .smbusUnknownCommand s = .next { s with out := s.out ++ [.nack] } ∧
      (∃ t, exec .clearFaults s = .next t ∧ t.net.pmStatus = 0 ∧ t.smbAlert = false ∧ t.regs = s.regs ∧ t.out = s.out ∧ Quiet s t))) ∧
  (∀ (s : State) (pins preload : Nat) (slot : Fin 4) (x y : BitVec 384),
    (∃ t, exec .jtagBypass s = .next t ∧ t.out = s.out ++ [.answer 0 true] ∧ t.net.jtagInstr = 1 ∧ t.net.jtagDrive = false ∧ t.regs = s.regs ∧ Quiet s t) ∧
    (∃ t, exec .jtagIdcode s = .next t ∧ t.out = s.out ++ [.answer Config.jtagId true] ∧ t.net.jtagInstr = 2 ∧ t.net.jtagDrive = false ∧
      t.regs = s.regs ∧ Quiet s t) ∧
    (∃ t, exec (.jtagSamplePreload pins preload) s = .next t ∧ t.out = s.out ++ [.answer pins true] ∧ t.net.jtagScan = preload ∧
      t.net.jtagDrive = false ∧ t.regs = s.regs ∧ Quiet s t) ∧
    (∃ t, exec (.jtagExtest pins) s = .next t ∧ t.out = s.out ++ [.answer pins true] ∧ t.net.jtagDrive = true ∧ t.net.jtagScan = s.net.jtagScan ∧
      t.regs = s.regs ∧ Quiet s t) ∧
    (s.net.mfgLock = true → exec (.jtagKeyProgram slot x y) s = .next { s with out := s.out ++ [.answer 0 false] }) ∧
    (s.net.mfgLock = false → ∃ t, exec (.jtagKeyProgram slot x y) s = .next t ∧ Map.find t.keys slot.val = some (x.toNat, y.toNat) ∧
      t.get F.nirKeyStat.loaded (Ix.mod slot) = 1 ∧ t.out = s.out ++ [.answer 0 true] ∧
      FieldsBut [(F.nirKeySlot.fpr, Ix.mod slot), (F.nirKeyStat.loaded, Ix.mod slot)] s t ∧ Quiet s t))

/-! ## Power delivery (chapter 14) -/

/-- R439, R459, R492, R513, R521: a bus condition is shown and reported once; a low bus raises the governor each millisecond, the ember range decides an ember
entry of the module, and a voltage outside the working range shuts the module down; a rise into range begins a full kindling.
Completes: BUS_LOW, BUS_LOW_REPEAT, BUS_EMBER_RANGE, BUS_HIGH, BUS_RESTORED, BUS_UNDERVOLTAGE, BUS_OVERVOLTAGE and BUS_POWER_ON. -/
def Obligations.BusConditions : Prop :=
  ∀ (s : State) (v : Fin 65536),
    let g := s.get F.nirPwrGov.gov_step Ix.mod
    let cond := s.get F.nirPwrStat.supply Ix.mod
    let shown := fun (c : Nat) (t : State) => t.get F.nirPwrStat.supply Ix.mod = c ∧ t.get F.nirPwrStat.vbus Ix.mod = v.val
    let raised := fun (t : State) => t.get F.nirPwrGov.gov_step Ix.mod = (if 5 ≤ g then g else g + 1) ∧
      (g < 5 → t.get F.nirPwrGovcnt.other Ix.mod = min (s.get F.nirPwrGovcnt.other Ix.mod + 1) 0xFFFF ∧ Map.find t.stepReqs .governor = some (g + 1)) ∧
      RegsBut [.nirPwrStat, .nirPwrGov, .nirPwrGovcnt, .nirTimeStep, .nirEvqCnt] s t ∧ Quiet s t
    let off := fun (h : Bool) (t : State) => t.shut = true ∧ t.running = false ∧ t.pending = s.pending ∧ t.billets = s.billets ∧ t.keys = s.keys ∧
      t.flashAges = s.flashAges ∧ t.flashWear = s.flashWear ∧ t.mem = State.reset.mem ∧ t.cores = State.reset.cores ∧ t.stitch = 0 ∧
      (∀ f ix, f.reg ≠ .nirThmSdrec → t.get f ix = resetOf f.reg f.lo ix) ∧
      (h = true → ∃ e, t.out = s.out ++ [.console e] ∧ e.code = 0x53 ∧ e.severity = 3) ∧ (h = false → t.out = s.out)
    ((v.val < 5100 ∨ 5400 ≤ v.val ∨ cond = 1 ∨ s.shut = true) → exec (.busLow v) s = .next s) ∧
    (5100 ≤ v.val → v.val < 5400 → cond ≠ 1 → s.shut = false → ∃ t, exec (.busLow v) s = .next t ∧ shown 1 t ∧ raised t) ∧
    (cond ≠ 1 → exec .busLowRepeat s = .next s) ∧
    (cond = 1 → ∃ t, exec .busLowRepeat s = .next t ∧ raised t ∧ t.get F.nirPwrStat.supply Ix.mod = 1) ∧
    ((v.val < 4500 ∨ 5100 ≤ v.val ∨ cond = 2 ∨ s.shut = true) → exec (.busEmberRange v) s = .next s) ∧
    (4500 ≤ v.val → v.val < 5100 → cond ≠ 2 → s.shut = false → ∃ t, exec (.busEmberRange v) s = .next t ∧ shown 2 t ∧
      (Map.find s.embers none = none → s.bit F.nirEmberStat.module Ix.mod = false → Map.find t.embers none = some (s.stitch + 64, 2)) ∧
      (∀ e, Map.find s.embers none = some e → Map.find t.embers none = some e) ∧
      RegsBut [.nirPwrStat, .nirEvqCnt, .nirKindleStat, .nirFpHead] s t ∧ Quiet s t) ∧
    ((v.val ≤ 6300 ∨ 6600 < v.val ∨ cond = 3 ∨ s.shut = true) → exec (.busHigh v) s = .next s) ∧
    (6300 < v.val → v.val ≤ 6600 → cond ≠ 3 → s.shut = false → ∃ t, exec (.busHigh v) s = .next t ∧ shown 3 t ∧
      t.eventSeq = (s.eventSeq + 1) % 2 ^ 32 ∧ RegsBut [.nirPwrStat, .nirEvqCnt] s t ∧ Quiet s t) ∧
    ((cond = 0 ∨ v.val < 5450 ∨ 6250 < v.val) → exec (.busRestored v) s = .next s) ∧
    (cond ≠ 0 → 5450 ≤ v.val → v.val ≤ 6250 → ∃ t, exec (.busRestored v) s = .next t ∧ shown 0 t ∧ t.eventSeq = (s.eventSeq + 1) % 2 ^ 32 ∧
      t.mon.busSince = some (s.mon.busSince.getD s.wall) ∧ RegsBut [.nirPwrStat, .nirEvqCnt] s t ∧ Quiet s t) ∧
    (∀ h : Bool,
      ((4500 ≤ v.val ∨ s.shut = true) → exec (.busUndervoltage v h) s = .next s) ∧
      (v.val < 4500 → s.shut = false → ∃ t, exec (.busUndervoltage v h) s = .next t ∧ off h t) ∧
      ((v.val ≤ 6600 ∨ s.shut = true) → exec (.busOvervoltage v h) s = .next s) ∧
      (6600 < v.val → s.shut = false → ∃ t, exec (.busOvervoltage v h) s = .next t ∧ off h t)) ∧
    (∀ (ident : List Byte) (lock : Bool) (sockets : List (Fin 48 × Option (List Byte))),
      let due := 5400 ≤ v.val ∧ v.val ≤ 6300 ∧ (s.shut = true ∨ s.get F.nirKindleStat.state Ix.mod = 0 ∧ s.kdl.kin = none)
      let sound := ident.length = 4096 ∧
        leNat ident 0xFFC 4 = chkFinal (polyOf 0) (chkBytes (polyOf 0) (polyOf 0).init (ident.take 0xFFC))
      (¬ due → exec (.busPowerOn v ident lock sockets) s = .next s) ∧
      (due → ∃ t, exec (.busPowerOn v ident lock sockets) s = .next t ∧ shown 0 t ∧ t.shut = false ∧ t.pending = s.pending ∧ t.ident = ident ∧
        t.get F.nirIdInfo.grade Ix.mod = leNat ident 8 1 ∧ t.get F.nirPwrGov.plim Ix.mod = leNat ident 0x20 4 % 2 ^ 16 ∧ t.running = false ∧
        t.stitch = 0 ∧
        (sound → t.get F.nirKindleStat.state Ix.mod = 1 ∧ t.curStep = 5 ∧ ∃ k, t.kdl.kin = some k ∧ k.stage = 0 ∧ k.warm = false ∧ k.since = s.wall) ∧
        (¬ sound → t.get F.nirKindleStat.state Ix.mod = 4 ∧ t.get F.nirKindleStat.cause Ix.mod = 7 ∧ t.kdl.kin = none ∧ t.faultPin = true)))

/-- R440, R441, R444-R447, R466, R523: a billet's reports are shown and its thermal cycles counted; its wear grows once a second and warns, derates or refuses
it at 0.9, 1.0 and 1.1; a trip takes its limit from the die's capacity and steps the clock down; a billet inserted stays off.
Completes: BILLET_REPORT, BILLET_TRIP, BILLET_WITHDRAWN, BILLET_INSERTED, BILLET_WEAR_UPDATE and BILLET_WEAR_SAVE. -/
def Obligations.Billets : Prop :=
  (∀ (s : State) (b : Fin 48) (iout iin : Fin 4096) (tbp : Fin 1024),
    ((Map.find s.billets b.val = none ∨ ∃ x, Map.find s.billets b.val = some x ∧ x.fitted = false) → exec (.billetReport b iout iin tbp) s = .next s) ∧
    (∀ x, Map.find s.billets b.val = some x → x.fitted = true → ∃ t y, exec (.billetReport b iout iin tbp) s = .next t ∧
      t.get F.nirBilMeas.iout (Ix.mod b) = iout.val ∧ t.get F.nirBilMeas.tbp (Ix.mod b) = tbp.val ∧ Map.find t.billets b.val = some y ∧
      y.iin = iin.val ∧ y.n = x.n + 1 ∧ y.sumI = x.sumI + iout.val ∧ y.sumT = x.sumT + tbp.val ∧
      y.wear = (match x.up, x.turn with
        | true, some hi => if tbp.val + 100 ≤ hi then { x.wear with cyc := x.wear.cyc + 1 } else x.wear
        | _, _ => x.wear) ∧
      FieldsBut [(F.nirBilMeas.iout, Ix.mod b), (F.nirBilMeas.tbp, Ix.mod b)] s t ∧ Quiet s t)) ∧
  (∀ (s : State) (b : Fin 48) (cause : Fin 4),
    let d := b.val / 2
    let g := s.get F.nirPwrGov.gov_step Ix.mod
    (s.bilOn b = false → exec (.billetTrip b cause) s = .next s) ∧
    (s.bilOn b = true → ∃ t, exec (.billetTrip b cause) s = .next t ∧ t = tripBillet b cause s ∧ t.get F.nirBilStat.state (Ix.mod b) = 4 ∧
      t.get F.nirBilStat.cause (Ix.mod b) = cause.val ∧ t.get F.nirBilStat.ilim (Ix.mod b) = 0 ∧ t.get F.stwPwrRail.cap_a (Ix.stw d) = t.capacity d % 2 ^ 10 ∧
      t.get F.nirPwrGov.gov_step Ix.mod = (if 5 ≤ g then g else g + 1) ∧ (g < 5 → Map.find t.stepReqs .governor = some (g + 1)) ∧
      ((∀ x ∈ dieSockets d, t.bilOn x = false) → s.dieDark d = false → Map.find t.dying d = some 0) ∧
      ((∃ x ∈ dieSockets d, t.bilOn x = true) → t.dying = s.dying) ∧
      RegsBut [.nirBilStat, .stwPwrRail, .nirFpDie, .nirFpHead, .cluCredCap, .nirEvqCnt, .nirPwrGov, .nirPwrGovcnt, .nirTimeStep] s t ∧ Quiet s t) ∧
    (Map.find s.billets b.val = none → exec (.billetWithdrawn b) s = .next s) ∧
    (∀ x, Map.find s.billets b.val = some x →
      exec (.billetWithdrawn b) s = .next (tripBillet b 3 { s with billets := Map.put s.billets b.val { x with fitted := false } }))) ∧
  (∀ (s : State) (b : Fin 48) (mem : List Byte),
    ((∃ x, Map.find s.billets b.val = some x ∧ x.fitted = true) → exec (.billetInserted b mem) s = .next s) ∧
    ((∀ x, Map.find s.billets b.val = some x → x.fitted = false) →
      exec (.billetInserted b mem) s = .next { s with billets := Map.put s.billets b.val { mem := mem } })) ∧
  (∀ s : State, (s.billets.map fun e => e.1).Nodup →
    (∃ t, exec .billetWearUpdate s = .next t ∧
      (∀ b x, (b, x) ∈ s.billets → s.bilOn b = false → Map.find t.billets b = some x) ∧
      (∀ b x, (b, x) ∈ s.billets → s.bilOn b = true → ∃ y, Map.find t.billets b = some y ∧ y.wear.eqh = x.wear.eqh + x.age ∧ y.wear.cyc = x.wear.cyc ∧
        y.n = 0 ∧ y.sumI = 0 ∧ y.sumT = 0 ∧ y.wear.warned = (x.wear.warned || decide (900 ≤ y.wear1000)) ∧
        y.wear.derated = (x.wear.derated || decide (1000 ≤ y.wear1000)) ∧ y.wear.refuse = (x.wear.refuse || decide (1100 ≤ y.wear1000)) ∧
        t.get F.nirBilWear.w (Ix.mod b) = min y.wear1000 0xFFFF ∧
        (1000 ≤ y.wear1000 → x.wear.derated = false → t.get F.nirBilStat.state (Ix.mod b) = 3 ∧ t.get F.nirBilStat.ilim (Ix.mod b) = 315)) ∧
      RegsBut [.nirBilWear, .nirBilStat, .stwPwrRail, .nirFpDie, .nirFpHead, .cluCredCap, .nirEvqCnt] s t ∧ Quiet s t) ∧
    (∃ t, exec .billetWearSave s = .next t ∧ (∀ b x, (b, x) ∈ s.billets →
        Map.find t.billets b = some (if s.bilOn b = true then x.save (s.get F.nirTorusId.id Ix.mod) else x)) ∧
      (∀ k, (∀ b x, (b, x) ∈ s.billets → s.bilOn b = true → x.serial ≠ k) → Map.find t.flashWear k = Map.find s.flashWear k) ∧
      (∀ b x, (b, x) ∈ s.billets → s.bilOn b = true → ∃ w, Map.find t.flashWear x.serial = some w) ∧ t.regs = s.regs ∧ Quiet s t))

/-- R454-R463: power commands are refused late, bound, dead or in the wrong state; a region goes through PREP, the header stages with their headroom checks,
WAIT, the slow ladder and CLEARING to ON; it goes down through its fence and the headers, and a third failed phase or a short takes it dark.
Completes: REGION_ON, REGION_OFF, PHASE_FAILURE, REGION_PREP_END, REGION_HEADER_STAGE, REGION_WAIT_RECHECK, REGION_SLOW_LADDER,
REGION_CLEARING_END, REGION_POWER_DOWN, REGION_HEADER_OPEN and REGION_SHORT. -/
def Obligations.RegionPower : Prop :=
  ∀ (s : State) (c : CluId),
    let q := s.seq c
    let st := s.regionState c
    let off := fun (code : Nat) (t : State) => t.regionState c = code ∧ t.get F.nirFpClu.region (Ix.mod c.die c.clu) = code ∧ t.seq c = { failed := q.failed } ∧
      Map.find t.fences (.region c) = none ∧ Map.find t.wins c = none ∧ (∀ k ∈ cluCores c, t.core k = {} ∧ t.get F.coreSeqTask.state k.ix = qIdle ∧
        (Sound s → ∀ x, spadAddr k 0 ≤ x → x < spadAddr k 0x40000 → Memory.read t.mem x = 0#8)) ∧ t.stitch = s.stitch ∧ t.cc = s.cc
    let stage := fun (len : Nat) (t : State) => t.regionState c = rLadder ∧ (t.seq c).stage = q.stage + 1 ∧ (t.seq c).len = len ∧
      (t.seq c).since = s.stitch ∧ (t.seq c).ready = false
    let tried := fun (t : State) => if s.headroom c (q.stage + 1) = true then stage 64 t ∧ FieldsBut [(F.cluPwrStat.state, c.ix)] s t ∧ Quiet s t
      else t.regionState c = rWait ∧ (t.seq c).since = s.stitch ∧ (t.seq c).firstWait = some (q.firstWait.getD s.stitch) ∧ (t.seq c).stage = q.stage ∧
        t.get F.stwPwrCnt.waits (Ix.stw c.die) = min (s.get F.stwPwrCnt.waits (Ix.stw c.die) + 1) 0xFFFF ∧
        t.get F.cluPwrCnt.waits c.ix = min (s.get F.cluPwrCnt.waits c.ix + 1) 0xFFFF ∧ RegsBut [.cluPwrStat, .stwPwrCnt, .cluPwrCnt] s t ∧ Quiet s t
    (∀ n : BitVec 64,
      let answered := fun (r : Nat) (t : State) => t.get F.stwPwrSeqResult.status (Ix.stw c.die) = r ∧ RegsBut [.stwPwrSeqResult, .nirEvqCnt] s t ∧ Quiet s t
      let hot := s.bit F.stwThmCt.heatoff (Ix.stw c.die c.clu) = true ∧ ∀ w, Map.find s.heatCool c = some w → s.wall < w + 12375000000
      (s.dieDark c.die = true → exec (.regionOn c n) s = .next s ∧ exec (.regionOff c n) s = .next s) ∧
      (s.dieDark c.die = false →
        (n.toNat ≤ s.stitch + 2 → (∃ t, exec (.regionOn c n) s = .next t ∧ answered 1 t ∧ t.seqs = s.seqs) ∧
          (∃ t, exec (.regionOff c n) s = .next t ∧ answered 1 t ∧ t.seqs = s.seqs)) ∧
        (s.stitch + 2 < n.toNat →
          (st = rDead → ∃ t, exec (.regionOn c n) s = .next t ∧ answered 3 t ∧ t.seqs = s.seqs) ∧
          ((st ≠ rDead ∧ (st ≠ rOff ∨ hot)) → ∃ t, exec (.regionOn c n) s = .next t ∧ answered 4 t ∧ t.seqs = s.seqs) ∧
          (st = rOff → ¬ hot → ∃ t, exec (.regionOn c n) s = .next t ∧ answered 0 t ∧ t.seq c = { q with onAt := some n.toNat }) ∧
          (s.regionBound c = true → ∃ t, exec (.regionOff c n) s = .next t ∧ answered 2 t ∧ t.seqs = s.seqs) ∧
          (s.regionBound c = false → st = rDead → ∃ t, exec (.regionOff c n) s = .next t ∧ answered 3 t ∧ t.seqs = s.seqs) ∧
          (s.regionBound c = false → st ≠ rDead → st ≠ rOn → ∃ t, exec (.regionOff c n) s = .next t ∧ answered 4 t ∧ t.seqs = s.seqs) ∧
          (s.regionBound c = false → st = rOn → ∃ t, exec (.regionOff c n) s = .next t ∧ answered 0 t ∧ t.seq c = { q with offAt := some n.toNat })))) ∧
    (∀ i : Fin 9,
      let m := q.failed ||| 2 ^ i.val
      ((st = rOff ∨ st = rDead ∨ s.dieDark c.die = true) → exec (.phaseFailure c i) s = .next s) ∧
      (st ≠ rOff → st ≠ rDead → s.dieDark c.die = false →
        (q.failed.testBit i.val = true → phases q.failed < 3 → exec (.phaseFailure c i) s = .next s) ∧
        (q.failed.testBit i.val = false → ∃ t, exec (.phaseFailure c i) s = .next t ∧ (t.seq c).failed = m ∧
          t.get F.cluPwrStat.phase_ok c.ix = 0x1FF - m ∧ t.get F.cluPwrStat.nfail c.ix = phases m ∧ t.get F.cluCredCap.cap c.ix = t.regionCap c ∧
          t.get F.stwPwrCnt.phasef (Ix.stw c.die) = min (s.get F.stwPwrCnt.phasef (Ix.stw c.die) + 1) 0xFFFF ∧
          (3 ≤ phases m → (t.seq c).toDead = true ∧ ∃ u, (t.seq c).offAt = some u ∧ u ≤ s.stitch + 1) ∧
          RegsBut [.cluPwrStat, .stwPwrCnt, .nirFpClu, .cluCredCap, .nirEvqCnt] s t ∧ Quiet s t))) ∧
    (∀ failing : BitVec 9,
      let due := st = rPrep ∧ q.ready = false ∧ q.since + 32 ≤ s.stitch
      let m := q.failed ||| failing.toNat
      (¬ due → exec (.regionPrepEnd c failing) s = .next s) ∧
      (due → ∃ t, exec (.regionPrepEnd c failing) s = .next t ∧ (t.seq c).failed = m ∧
        (phases m < 3 → t.regionState c = rPrep ∧ (t.seq c).ready = true) ∧
        (3 ≤ phases m → t.regionState c = rDead ∧ t.seq c = { failed := m } ∧ t.get F.nirFpClu.region (Ix.mod c.die c.clu) = rDead) ∧
        RegsBut [.cluPwrStat, .stwPwrCnt, .nirFpClu, .nirFpDie, .nirFpHead, .cluCredCap, .nirEvqCnt] s t ∧ Quiet s t)) ∧
    (let due := (st = rPrep ∧ q.ready = true) ∨ (st = rLadder ∧ q.since + q.len ≤ s.stitch)
     let slow := s.bit F.cluPwrStat.slow c.ix
     (¬ due → exec (.regionHeaderStage c) s = .next s) ∧
     (due → st = rLadder → q.stage = 4 → ∃ t, exec (.regionHeaderStage c) s = .next t ∧ t.regionState c = rClearing ∧ (t.seq c).since = s.stitch ∧
       (∀ k ∈ cluCores c, t.core k = {} ∧
         (∀ n, t.get F.coreCalrecStat.valid (k.arr n).ix = 0 ∧ (t.engine (k.arr n)).clearEnd = some (s.now + 256) ∧
           t.get F.arrState.state (k.arr n).ix = (if k.arr n ∈ s.mapOut then aMappedOut else aClearing)) ∧
         (Sound s → ∀ x, spadAddr k 0 ≤ x → x < spadAddr k 0x40000 → Memory.read t.mem x = 0#8)) ∧ t.stitch = s.stitch ∧ t.cc = s.cc) ∧
     (due → ¬ (st = rLadder ∧ q.stage = 4) →
       (slow = true → ∃ t, exec (.regionHeaderStage c) s = .next t ∧ stage 128 t ∧ FieldsBut [(F.cluPwrStat.state, c.ix)] s t ∧ Quiet s t) ∧
       (slow = false → (s.slowDue c = true ∨ s.lowerDue c = true) → exec (.regionHeaderStage c) s = .next s) ∧
       (slow = false → s.slowDue c = false → s.lowerDue c = false → ∃ t, exec (.regionHeaderStage c) s = .next t ∧ tried t)) ∧
     ((st ≠ rWait ∨ s.checkDue c = false ∨ s.lowerDue c = true) → exec (.regionWaitRecheck c) s = .next s) ∧
     (st = rWait → s.checkDue c = true → s.lowerDue c = false → ∃ t, exec (.regionWaitRecheck c) s = .next t ∧ tried t) ∧
     (¬ (s.slowDue c = true ∧ (st = rWait ∨ st = rLadder ∧ q.stage < 4)) → exec (.regionSlowLadder c) s = .next s) ∧
     (s.slowDue c = true → (st = rWait ∨ st = rLadder ∧ q.stage < 4) → ∃ t, exec (.regionSlowLadder c) s = .next t ∧ t.get F.cluPwrStat.slow c.ix = 1 ∧
       t.get F.stwPwrCnt.slow (Ix.stw c.die) = min (s.get F.stwPwrCnt.slow (Ix.stw c.die) + 1) 0xFFFF ∧ (st = rWait → stage 128 t) ∧
       (st = rLadder → t.seq c = q ∧ t.regionState c = rLadder) ∧ RegsBut [.cluPwrStat, .stwPwrCnt, .nirEvqCnt] s t ∧ Quiet s t)) ∧
    (let due := st = rClearing ∧ q.since + 16 ≤ s.stitch
     (¬ due → exec (.regionClearingEnd c) s = .next s) ∧
     (due → ∃ t, exec (.regionClearingEnd c) s = .next t ∧ t.regionState c = rOn ∧ t.get F.nirFpClu.region (Ix.mod c.die c.clu) = rOn ∧
       t.get F.cluPwrCnt.powerups c.ix = min (s.get F.cluPwrCnt.powerups c.ix + 1) 0xFFFF ∧ t.win c = {} ∧
       t.bit F.stwThmCt.heatoff (Ix.stw c.die c.clu) = false ∧
       RegsBut [.cluPwrStat, .cluPwrCnt, .cluSbufStat, .stwThmCt, .nirFpClu, .nirFpDie, .nirFpHead, .nirEvqCnt] s t ∧ Quiet s t)) ∧
    ((q.offAt = none ∨ ∃ d, q.offAt = some d ∧ s.stitch < d) → exec (.regionPowerDown c) s = .next s) ∧
    (∀ d, q.offAt = some d → d ≤ s.stitch →
      ((st = rPrep ∨ st = rWait ∨ st = rLadder) → ∃ t, exec (.regionPowerDown c) s = .next t ∧ t.regionState c = rDown ∧
        t.seq c = { q with offAt := none, ready := false, openAt := some s.stitch } ∧ FieldsBut [(F.cluPwrStat.state, c.ix)] s t ∧ Quiet s t) ∧
      ((st = rOn ∨ st = rClearing) → ∃ t, exec (.regionPowerDown c) s = .next t ∧ t.regionState c = rDown ∧
        t.seq c = { q with offAt := none, stage := 4, openAt := none } ∧ (∃ f, Map.find t.fences (.region c) = some f) ∧
        (∀ k ∈ cluCores c, t.core k = { stopAt := some s.now }) ∧ (∀ e ∈ t.chans, e.1.1 ≠ c) ∧ (∀ x ∈ t.flights, x.core.cluId ≠ c) ∧
        RegsBut [.cluPwrStat, .cluSbufStat] s t ∧ t.mem = s.mem ∧ t.engines = s.engines ∧ t.stitch = s.stitch ∧ t.cc = s.cc) ∧
      ((st = rOff ∨ st = rDead ∨ st = rDown) → exec (.regionPowerDown c) s = .next (s.setSeq c { q with offAt := none }))) ∧
    ((q.openAt = none → ∀ f, Map.find s.fences (.region c) = some f → f.closedAt = none) → q.openAt = none → exec (.regionHeaderOpen c) s = .next s) ∧
    (∀ u, (q.openAt = some u ∨ q.openAt = none ∧ ∃ f, Map.find s.fences (.region c) = some f ∧ f.closedAt = some u) →
      ((st ≠ rDown ∨ s.stitch < u) → exec (.regionHeaderOpen c) s = .next s) ∧
      (st = rDown → u ≤ s.stitch →
        (0 < q.stage → exec (.regionHeaderOpen c) s = .next (s.setSeq c { q with stage := q.stage - 1, openAt := some (u + 16) })) ∧
        (q.stage = 0 → ∃ t, exec (.regionHeaderOpen c) s = .next t ∧ off (if q.toDead = true then rDead else rOff) t))) ∧
    ((st = rOff ∨ st = rPrep ∨ st = rDead ∨ s.dieDark c.die = true) → exec (.regionShort c) s = .next s) ∧
    (st ≠ rOff → st ≠ rPrep → st ≠ rDead → s.dieDark c.die = false → ∃ t, exec (.regionShort c) s = .next t ∧ off rDead t ∧
      t.get F.stwPwrCnt.shorts (Ix.stw c.die) = min (s.get F.stwPwrCnt.shorts (Ix.stw c.die) + 1) 0xFFFF)

/-- R27, R28, R449, R451-R453, R464-R466, R529: stitch commands keep their lead; current reports sum over the window; the governor steps down on excess and
input power and releases after 2^20 quiet stitches; the window's start rolls credit use over and moves regulators and rail setpoints.
Completes: HOST_STITCH_REQUEST, STEWARD_COMMAND, REGION_CURRENT_REPORT, GOVERNOR_INPUT_CHECK, GOVERNOR_RELEASE and CREDIT_WINDOW_START. -/
def Obligations.PowerGovernor : Prop :=
  (∀ (s : State) (c : CluId) (on : Bool) (t : BitVec 64),
    exec (.hostStitchRequest c on t) s = .next { s with stwQ := s.stwQ ++ [(c.die.val, on, c.clu.val, max t.toNat (s.stitch + 64))]
                                                        out := s.out ++ [.answer (max t.toNat (s.stitch + 64)) true] } ∧
    ((∀ q ∈ s.stwQ, q.1 ≠ c.die.val) → exec (.stewardCommand c.die) s = .next s) ∧
    (∀ pre rest, s.stwQ = pre ++ (c.die.val, on, c.clu.val, t.toNat) :: rest → (∀ q ∈ pre, q.1 ≠ c.die.val) →
      exec (.stewardCommand c.die) s = .next (if on = true then regionOnCmd c t.toNat { s with stwQ := pre ++ rest }
        else regionOffCmd c t.toNat { s with stwQ := pre ++ rest }) ∧
      (s.dieDark c.die = false → t.toNat ≤ s.stitch + 2 → ∃ u, exec (.stewardCommand c.die) s = .next u ∧ u.stwQ = pre ++ rest ∧
        u.get F.stwPwrSeqResult.status (Ix.stw c.die) = 1 ∧ u.seqs = s.seqs ∧ u.eventSeq = (s.eventSeq + 1) % 2 ^ 32 ∧
        RegsBut [.stwPwrSeqResult, .nirEvqCnt] s u ∧ Quiet s u) ∧
      (on = true → s.dieDark c.die = false → s.stitch + 2 < t.toNat → s.regionState c = rOff → s.bit F.stwThmCt.heatoff (Ix.stw c.die c.clu) = false →
        ∃ u, exec (.stewardCommand c.die) s = .next u ∧ u.stwQ = pre ++ rest ∧ u.get F.stwPwrSeqResult.status (Ix.stw c.die) = 0 ∧
          u.seq c = { s.seq c with onAt := some t.toNat } ∧ RegsBut [.stwPwrSeqResult] s u ∧ Quiet s u) ∧
      (on = false → s.dieDark c.die = false → s.stitch + 2 < t.toNat → s.regionState c = rOn → s.regionBound c = false →
        ∃ u, exec (.stewardCommand c.die) s = .next u ∧ u.stwQ = pre ++ rest ∧ u.get F.stwPwrSeqResult.status (Ix.stw c.die) = 0 ∧
          u.seq c = { s.seq c with offAt := some t.toNat } ∧ RegsBut [.stwPwrSeqResult] s u ∧ Quiet s u)) ∧
    (∀ pre rest j, s.stwQ = pre ++ (c.die.val, on, j, t.toNat) :: rest → (∀ q ∈ pre, q.1 ≠ c.die.val) → 128 ≤ j →
      exec (.stewardCommand c.die) s = .next { s with stwQ := pre ++ rest })) ∧
  (∀ (s : State) (d : DieIx) (i : Option CluIx) (cur : Fin 65536) (droop : List Nat),
    ((s.stitch % 16 ≠ 0 ∨ s.dieDark d = true) → exec (.regionCurrentReport d i cur droop) s = .next s) ∧
    (s.stitch % 16 = 0 → s.dieDark d = false → ∃ t, exec (.regionCurrentReport d i cur droop) s = .next t ∧
      t.get F.stwPwrIdie.idie (Ix.stw d) = min (t.idie d / 25) 0xFFF ∧ RegsBut [.cluPwrMeas, .cluPwrStat, .stwPwrIdie] s t ∧ Quiet s t ∧
      (i = none → Map.find t.transitI d.val = some cur.val ∧ t.wins = s.wins ∧ RegsBut [.stwPwrIdie] s t) ∧
      (∀ j, i = some j →
        let c : CluId := ⟨d, j⟩
        let code := s.get F.cluPwrStat.code c.ix
        ((s.regionState c = rOff ∨ s.regionState c = rDead) → t.wins = s.wins ∧ RegsBut [.stwPwrIdie] s t) ∧
        (s.regionState c ≠ rOff → s.regionState c ≠ rDead → t.get F.cluPwrMeas.ireg c.ix = min cur.val 1023 ∧ (t.win c).sum = (s.win c).sum + cur.val ∧
          (t.win c).n = (s.win c).n + 1 ∧ (t.win c).excess = (s.win c).excess ∧
          (∀ k < 8, (t.get F.cluPwrMeas.valid c.ix).testBit k = true ↔ ∃ v, droop[k]? = some v ∧ 400 ≤ v ∧ v ≤ 1000) ∧
          (code < 50 → t.get F.cluPwrStat.code c.ix =
            (if s.standby < s.curStep ∧ code < vidCode s.standby then code + 1 else code)))))) ∧
  (∀ s : State,
    let g := s.get F.nirPwrGov.gov_step Ix.mod
    let touched := [Reg.nirPwrGov, .nirPwrGovcnt, .nirTimeStep, .nirEvqCnt]
    (∀ peak : Bool,
      let above := (if peak = true then s.mon.peakIn else s.mon.overIn) = some 0
      (¬ above → exec (.governorInputCheck peak) s = .next s) ∧
      (above → ∃ t, exec (.governorInputCheck peak) s = .next t ∧ t.get F.nirPwrGov.gov_step Ix.mod = (if 5 ≤ g then g else g + 1) ∧
        (g < 5 → t.get F.nirPwrGovcnt.input Ix.mod = min (s.get F.nirPwrGovcnt.input Ix.mod + 1) 0xFFFF ∧ t.govSince = s.stitch ∧
          Map.find t.stepReqs .governor = some (g + 1)) ∧ t.mon = (if peak = true then { s.mon with peakIn := some 10 } else { s.mon with overIn := some 100 }) ∧
        t.eventSeq = (s.eventSeq + 1) % 2 ^ 32 ∧ RegsBut touched s t ∧ Quiet s t)) ∧
    (let due := 0 < g ∧ s.govSince + 2 ^ 20 ≤ s.stitch ∧ 10 * s.get F.nirPwrPin.p1ms Ix.mod ≤ 9 * s.powerLimit ∧ ∀ e ∈ s.wins, e.2.droop = false
     (¬ due → exec .governorRelease s = .next s) ∧
     (due → g < 8 → ∃ t, exec .governorRelease s = .next t ∧ t.get F.nirPwrGov.gov_step Ix.mod = g - 1 ∧
       t.get F.nirPwrGovcnt.release Ix.mod = min (s.get F.nirPwrGovcnt.release Ix.mod + 1) 0xFFFF ∧ t.govSince = s.stitch ∧
       Map.find t.stepReqs .governor = some (min (g - 1) 5) ∧ RegsBut touched s t ∧ Quiet s t))) ∧
  (∀ s : State,
    let w := s.stitch / 256
    let due := s.stitch % 256 = 0 ∧ s.cc = 0 ∧ s.lastWin ≠ some w
    let judged := s.lastWin ≠ none ∧ ∀ n, s.lastStep = some n → s.stitch ≤ n + 256 → s.stitch ≤ n
    let g := s.get F.nirPwrGov.gov_step Ix.mod
    (¬ due → exec .creditWindowStart s = .next s) ∧
    (due → ∃ t, exec .creditWindowStart s = .next t ∧ t.lastWin = some w ∧ t.winStep = t.curStep ∧ t.curStep = s.curStep ∧
      t.mem = s.mem ∧ t.engines = s.engines ∧ t.stitch = s.stitch ∧ t.cc = s.cc ∧
      (∀ k ∈ s.creditCores, t.get F.coreCredLast.used k.ix = s.get F.coreCredUse.used k.ix % 2 ^ 15 ∧
        (∀ p ∈ (t.core k).charges, w ≤ p.1 / 256)) ∧
      (∀ d ∈ s.litDies, t.get F.stwPwrRail.set (Ix.stw d) = t.railTarget d % 64) ∧
      (∀ c, s.onRegions = [c] →
        let x := s.win c
        let m := x.low.getD 0
        let code := s.get F.cluPwrStat.code c.ix
        let few := ((List.range 8).filter fun i => (s.get F.cluPwrMeas.valid c.ix).testBit i).length < 4
        let floor := max (vidCode s.curStep - 4) (if s.standby < s.curStep then min code (vidCode s.standby) else 0)
        (t.win c).sum = 0 ∧ (t.win c).n = 0 ∧ (t.win c).low = none ∧
        (x.n = 0 → t.get F.cluPwrStat.code c.ix = code) ∧
        (x.n ≠ 0 → code ≤ 50 → (judged → x.over s.winStep = false ∧ x.droop = false) → t.get F.cluPwrStat.code c.ix = (if few then 50 else if m < vmin s.curStep + 10 then min 50 (code + 1)
          else if vmin s.curStep + 30 < m then max floor (code - 1) else code) % 64) ∧
        (judged → (x.over s.winStep = true ∨ x.droop = true) →
          t.get F.cluPwrCnt.excess c.ix = min (s.get F.cluPwrCnt.excess c.ix + 1) 0xFFFF ∧ (7 ≤ x.excess → g < 5 → g < t.get F.nirPwrGov.gov_step Ix.mod)) ∧
        (judged → x.over s.winStep = false → x.droop = false → t.get F.cluPwrCnt.excess c.ix = s.get F.cluPwrCnt.excess c.ix) ∧
        (¬ judged → t.get F.cluPwrCnt.excess c.ix = s.get F.cluPwrCnt.excess c.ix))))

/-! ## Telemetry, thermal protection and cooling (chapter 15) -/

/-- R470-R478: references, accumulators and the result queue; urgent requests are limited and abort the conversion in progress; each slot delivers its sample
or result and the next begins; a frame's end gives cluster, die and stack temperatures from the valid sensors.
R474, R489: a result of the cycle of a clear or of a read counts after it.  R473: a request reads its channel's entry as it was before the cycle.
Completes: MAIN_REF_ENABLE, MAIN_REF_SETTLED, FALLBACK_SELECT, FALLBACK_SETTLED, ACC_CLEAR, QUEUE_READ, TLM_URG_WRITE, CHANNEL_TRIGGER,
URGENT_CONVERSION, CONVERSION_SLOT and TELEMETRY_FRAME_END. -/
def Obligations.TelemetryChannels : Prop :=
  (∀ (s : State) (d : DieIx) (en : Bool) (v : Fin 4) (k : Fin 64),
    let ix := Ix.stw d
    let sel := if v.val = 3 then 0 else v.val
    let ax := Ix.stw d k
    (∃ t, exec (.mainRefEnable d en) s = .next t ∧ t.get F.tlmRef.main_en ix = boolNat en ∧
      (en = false → t.get F.tlmRef.main_ok ix = 0 ∧ (t.tlmOf d).mainBad = false) ∧
      FieldsBut ((F.tlmRef.main_en, ix) :: (if en = true then [] else [(F.tlmRef.main_ok, ix)])) s t ∧ Quiet s t) ∧
    ((s.bit F.tlmRef.main_en ix = false ∨ (s.tlmOf d).mainBad = true) → exec (.mainRefSettled d) s = .next s) ∧
    (s.bit F.tlmRef.main_en ix = true → (s.tlmOf d).mainBad = false → ∃ t, exec (.mainRefSettled d) s = .next t ∧ t.get F.tlmRef.main_ok ix = 1 ∧
      FieldsBut [(F.tlmRef.main_ok, ix)] s t ∧ Quiet s t) ∧
    (s.get F.tlmRef.fb_sel ix = sel → exec (.fallbackSelect d v) s = .next s) ∧
    (s.get F.tlmRef.fb_sel ix ≠ sel → ∃ t, exec (.fallbackSelect d v) s = .next t ∧ t.get F.tlmRef.fb_sel ix = sel ∧ t.get F.tlmRef.fb_ok ix = 0 ∧
      FieldsBut [(F.tlmRef.fb_sel, ix), (F.tlmRef.fb_ok, ix)] s t ∧ Quiet s t) ∧
    (∃ t, exec (.fallbackSettled d) s = .next t ∧ t.get F.tlmRef.fb_ok ix = 1 ∧ FieldsBut [(F.tlmRef.fb_ok, ix)] s t ∧ Quiet s t) ∧
    (let hs := ((s.tlmNow d).hits.filter fun h => decide (h.1 = k.val)).map fun h => h.2
     ∃ t, exec (.accClear d k) s = .next t ∧ t.get F.tlmAccSum.sum ax = min hs.sum 0xFFFFFFFF ∧ t.get F.tlmAccSum.count ax = min hs.length 0xFFFFF ∧
      t.get F.tlmAccRange.min ax = hs.foldl min 0xFFF ∧ ((∀ x ∈ hs, x < 4096) → t.get F.tlmAccRange.max ax = hs.foldl max 0) ∧
      FieldsBut [(F.tlmAccSum.sum, ax), (F.tlmAccSum.count, ax), (F.tlmAccRange.min, ax), (F.tlmAccRange.max, ax)] s t ∧ Quiet s t) ∧
    (let q := s.tlmNow d
     (q.queue.length ≤ q.fresh → exec (.queueRead d) s = .next { s with out := s.out ++ [.answer 0 true] }) ∧
     (q.fresh < q.queue.length → ∃ t, exec (.queueRead d) s = .next t ∧ t.out = s.out ++ [.answer (q.queue.headD 0) true] ∧
      (t.tlmOf d).queue = q.queue.tail ++ q.lost.take 1 ∧ t.get F.tlmQ.entry ix = (q.queue.tail ++ q.lost.take 1).headD 0 % 2 ^ 64 ∧
      (q.lost = [] → t.get F.tlmCnt.qovf ix = s.get F.tlmCnt.qovf ix) ∧
      (q.lost ≠ [] → t.get F.tlmCnt.qovf ix = (s.get F.tlmCnt.qovf ix - 1) % 2 ^ 8) ∧
      FieldsBut [(F.tlmQ.entry, ix), (F.tlmCnt.qovf, ix)] s t ∧ Quiet s t))) ∧
  (∀ (s : State) (d : DieIx) (ch : Fin 512),
    let ix := Ix.stw d
    let cx := Ix.stw d ch
    let old := s.before
    let k := old.get F.tlmCh.conv cx
    let c := (s.tlmOf d).conv k
    (s.dieDark d = true → exec (.tlmUrgWrite d ch) s = .next s ∧ exec (.channelTrigger d ch) s = .next s) ∧
    (old.get F.tlmCh.trig cx = 0 → exec (.channelTrigger d ch) s = .next s) ∧
    (s.dieDark d = false → ∀ i, (i = .tlmUrgWrite d ch ∨ i = .channelTrigger d ch ∧ old.get F.tlmCh.trig cx ≠ 0 ∧ old.bit F.tlmCh.urg cx = true) →
      ∃ t, exec i s = .next t ∧ Quiet s t ∧
        (c.urgent ≠ none → t.get F.tlmCnt.urg_busy ix = min (s.get F.tlmCnt.urg_busy ix + 1) 0xFFF ∧ FieldsBut [(F.tlmCnt.urg_busy, ix)] s t ∧ t.tlm = s.tlm) ∧
        (c.urgent = none → 8 ≤ c.urgents → t.get F.tlmCnt.urg_limit ix = min (s.get F.tlmCnt.urg_limit ix + 1) 0xFFF ∧
          FieldsBut [(F.tlmCnt.urg_limit, ix)] s t ∧ t.tlm = s.tlm) ∧
        (c.urgent = none → c.urgents < 8 → (t.tlmOf d).conv k = { c with urgent := some ch.val, urgents := c.urgents + 1 } ∧ t.regs = s.regs)) ∧
    (s.dieDark d = false → old.get F.tlmCh.trig cx ≠ 0 → old.bit F.tlmCh.urg cx = false → ∃ t, exec (.channelTrigger d ch) s = .next t ∧ Quiet s t ∧
      (8 ≤ c.waiting.length → t.get F.tlmCnt.trig_drop ix = min (s.get F.tlmCnt.trig_drop ix + 1) 0xFF ∧ FieldsBut [(F.tlmCnt.trig_drop, ix)] s t ∧
        t.tlm = s.tlm) ∧
      (c.waiting.length < 8 → (t.tlmOf d).conv k = { c with waiting := c.waiting ++ [ch.val] } ∧ t.regs = s.regs))) ∧
  (∀ (s : State) (d : DieIx) (k : Fin 2) (code : Fin 4096) (temp : Int),
    let ix := Ix.stw d
    let c := (s.tlmOf d).conv k
    let sample := fun (i : Nat) (t : State) => (t.tlmOf d).samples = (if 0 ≤ temp ∧ temp ≤ 760 ∧ (c.ref = 1 ∨ c.ref = 2) ∧
      ¬ (i < 256 ∧ s.lineFaulty d (sensorLine i) = true) then Map.put (s.tlmOf d).samples i temp.toNat else (s.tlmOf d).samples)
    let given := fun (ch ref : Nat) (urg restart : Bool) (t : State) =>
      let cx := Ix.stw d ch
      let x := if 40 ≤ s.get F.tlmCh.mux cx then 0 else code.val
      let ax := Ix.stw d (s.get F.tlmCh.acc cx)
      (s.get F.tlmCh.dest cx = 1 → (s.tlmOf d).queue.length < 256 → (t.tlmOf d).queue = (s.tlmOf d).queue ++ [queueEntry x ch ref s.stitch urg restart]) ∧
      (s.get F.tlmCh.dest cx = 1 → 256 ≤ (s.tlmOf d).queue.length → (t.tlmOf d).queue = (s.tlmOf d).queue ∧
        t.get F.tlmCnt.qovf ix = min (s.get F.tlmCnt.qovf ix + 1) 0xFF) ∧
      (s.get F.tlmCh.dest cx ≠ 1 → (t.tlmOf d).queue = (s.tlmOf d).queue ∧
        (ref ≠ 0 → t.get F.tlmAccSum.sum ax = min (s.get F.tlmAccSum.sum ax + x) 0xFFFFFFFF ∧
          t.get F.tlmAccSum.count ax = min (s.get F.tlmAccSum.count ax + 1) 0xFFFFF ∧
          t.get F.tlmAccRange.min ax = min (s.get F.tlmAccRange.min ax) x ∧ (s.get F.tlmAccRange.max ax < 4096 →
            t.get F.tlmAccRange.max ax = max (s.get F.tlmAccRange.max ax) x)) ∧
        (ref = 0 → t.get F.tlmAccSum.sum ax = s.get F.tlmAccSum.sum ax ∧ t.get F.tlmAccSum.count ax = s.get F.tlmAccSum.count ax))
    (c.urgent = none → exec (.urgentConversion d k code) s = .next s) ∧
    (∀ ch, c.urgent = some ch →
      let busy := c.slot < 132 ∨ c.test = true ∨ c.cur ≠ none
      ∃ t, exec (.urgentConversion d k code) s = .next t ∧ ((t.tlmOf d).conv k).urgent = none ∧ given ch (s.before.reference d) true false t ∧
        t.get F.tlmCnt.noref ix = (if s.before.reference d = 0 then min (s.get F.tlmCnt.noref ix + 1) 0xFF else s.get F.tlmCnt.noref ix) ∧
        (busy → t.get F.tlmCnt.aborts ix = min (s.get F.tlmCnt.aborts ix + 1) 0xFFFF ∧ ((t.tlmOf d).conv k).restarted = true) ∧
        (¬ busy → t.get F.tlmCnt.aborts ix = s.get F.tlmCnt.aborts ix ∧ ((t.tlmOf d).conv k).restarted = c.restarted) ∧
        RegsBut [.tlmCnt, .tlmQ, .tlmAccSum, .tlmAccRange] s t ∧ Quiet s t) ∧
    (s.dieDark d = true → exec (.conversionSlot d k code temp) s = .next s) ∧
    (s.dieDark d = false → ∃ t, exec (.conversionSlot d k code temp) s = .next t ∧
      ((t.tlmOf d).conv k).slot = (if 255 ≤ c.slot then 0 else c.slot + 1) ∧ ((t.tlmOf d).conv k).ref = t.before.reference d ∧
      ((t.tlmOf d).conv k).frames = (if 255 ≤ c.slot then c.frames + 1 else c.frames) ∧
      ((t.tlmOf d).conv k).test = decide (c.slot = 131 ∧ s.bit F.tlmDac.selftest ix = true ∧ t.bit F.tlmRef.main_ok ix = true ∧ c.testLine / 16 = k.val) ∧
      ((t.tlmOf d).conv k).restarted = false ∧ ((t.tlmOf d).conv k).urgent = c.urgent ∧
      t.get F.tlmCnt.noref ix = (if c.ref = 0 ∧ (c.slot < 132 ∨ c.test = true ∨ c.cur ≠ none) then min (s.get F.tlmCnt.noref ix + 1) 0xFF
        else s.get F.tlmCnt.noref ix) ∧
      (c.slot < 128 → sample (128 * k.val + c.slot) t) ∧ (c.slot = 128 → sample (256 + k.val) t) ∧ (128 < c.slot → (t.tlmOf d).samples = (s.tlmOf d).samples) ∧
      (132 ≤ c.slot → c.test = false → ∀ ch, c.cur = some ch → given ch c.ref false c.restarted t) ∧
      (132 ≤ c.slot → c.test = true →
        let l := c.testLine
        let want := 4 * c.testCode
        (max code.val want - min code.val want ≤ 12 → Map.find (t.tlmOf d).lines l = some 0 ∧ t.lineFaulty d l = s.lineFaulty d l) ∧
        (12 < max code.val want - min code.val want → 1 ≤ Map.getD (s.tlmOf d).lines l 0 → t.lineFaulty d l = true)) ∧
      ((c.slot = 130 ∧ k.val = 1 ∨ c.slot = 131 ∧ k.val = 0) → c.ref = 1 →
        let want := Config.bandgapCode d k
        (want < 100 * (max code.val want - min code.val want) → ((t.tlmOf d).conv k).gap = c.gap + 1 ∧ (1 ≤ c.gap → t.bit F.tlmRef.main_ok ix = false)) ∧
        (100 * (max code.val want - min code.val want) ≤ want → ((t.tlmOf d).conv k).gap = 0 ∧ t.get F.tlmRef.main_ok ix = s.get F.tlmRef.main_ok ix)) ∧
      RegsBut [.tlmCnt, .tlmQ, .tlmAccSum, .tlmAccRange, .tlmRef, .tlmDac, .tlmDacFaultyB, .nirEvqCnt] s t ∧ Quiet s t)) ∧
  (∀ (s : State) (d : DieIx) (r0 r1 : Option Int),
    let u := s.tlmOf d
    let due := s.dieDark d = false ∧ u.formed < min u.c0.frames u.c1.frames
    let failed := fun i => 16 ≤ Map.getD u.excluded i 0 + (if Map.find u.samples i = none then 1 else 0)
    let read := fun i => if failed i then none else Map.find u.samples i
    (¬ due → exec (.telemetryFrameEnd d r0 r1) s = .next s) ∧
    (due → ∃ t, exec (.telemetryFrameEnd d r0 r1) s = .next t ∧ (t.tlmOf d).formed = u.formed + 1 ∧ (t.tlmOf d).samples = [] ∧
      (∀ i : CluIx,
        let x := Ix.stw d i
        let code := fun j => if failed j then 2 else if Map.find u.samples j = none then 1 else 0
        t.get F.stwThmCt.a x = code i ∧ t.get F.stwThmCt.b x = code (128 + i.val) ∧
        t.get F.stwThmCt.t x = (if read i = none ∧ read (128 + i.val) = none then 540 else max ((read i).getD 0) ((read (128 + i.val)).getD 0)) % 2 ^ 10) ∧
      t.get F.stwThmDie.tdie (Ix.stw d) = (t.hottest d).1 % 2 ^ 10 ∧ t.mem = s.mem ∧ t.stitch = s.stitch ∧ t.cc = s.cc))

/-- R481-R483: a die in throttle for two reports raises the thermal ceiling, every 2 ms again while it lasts; 100 ms of the release conditions lower it by one;
a hard limit shuts the module down with a record.  R484-R488, R529: supply and coolant samples, flow, margin and the derated limit.
The counts of samples after which the governor acts are the model's choice (entry 217); so is the inlet's 1 s (entry 218).
Completes: THERMAL_REPORT, THERMAL_RAISE_REPEAT, THERMAL_RELEASE, NIRDO_SAMPLE, FLOW_PULSE, FLOW_LOSS, FLOW_EVALUATE, MARGIN_ESTIMATE and
INLET_EVALUATE. -/
def Obligations.ThermalAndCoolant : Prop :=
  (∀ (s : State) (d : DieIx) (holdup : Bool),
    let due := s.dieDark d = false ∧ (s.tlmOf d).told < (s.tlmOf d).formed
    let run := fun (u : Nat) => Map.getD s.thmRun (d.val, u) (0, 0)
    let temp := fun (u : Nat) => s.unitTemp (d.val, u)
    let warm := fun (u : Nat) => if (if u = 0 then 540 else 500) < temp u then (run u).1 + 1 else 0
    let hard := fun (u : Nat) => if (if u = 0 then 600 else 540) ≤ temp u then (run u).2 + 1 else 0
    let k := s.get F.nirThmStat.thm_step Ix.mod
    (¬ due → exec (.thermalReport d holdup) s = .next s) ∧
    (due → (∀ e ∈ s.thmRun, e.1.1 = d.val → e.1.2 < 3) →
      ((∀ u < 3, hard u < 2) → ∃ t, exec (.thermalReport d holdup) s = .next t ∧ (t.tlmOf d).told = (s.tlmOf d).formed ∧
        (∀ u < 3, Map.find t.thmRun (d.val, u) = some (warm u, hard u)) ∧
        (s.throttled ≠ [] → t.get F.nirThmStat.thm_step Ix.mod = k) ∧
        (s.throttled = [] → (∀ u < 3, warm u < 2) → t.get F.nirThmStat.thm_step Ix.mod = k) ∧
        (s.throttled = [] → (∃ u < 3, 2 ≤ warm u) → t.get F.nirThmStat.thm_step Ix.mod = (if 5 ≤ k then k else k + 1) ∧ t.thmAt = s.wall ∧
          (k < 5 → Map.find t.stepReqs .thermal = some (k + 1) ∧ Map.find t.praise (k + 1) = some s.mon.p1s)) ∧
        RegsBut [.nirThmStat, .nirTimeStep, .nirEvqCnt] s t ∧ Quiet s t) ∧
      (∀ u < 3, 2 ≤ hard u → (∀ w < 3, w ≠ u → hard w < 2) → ∃ t, exec (.thermalReport d holdup) s = .next t ∧ t.shut = true ∧ t.faultPin = true ∧
        t.running = false ∧ t.get F.nirThmSdrec.cause Ix.mod = (if u = 0 then 1 else 2) ∧ t.get F.nirThmSdrec.die Ix.mod = d.val ∧
        t.get F.nirThmSdrec.side Ix.mod = u - 1 ∧ t.get F.nirThmSdrec.temp Ix.mod = temp u % 2 ^ 10 ∧
        t.get F.nirThmSdrec.stitch Ix.mod = s.stitch % 2 ^ 32 ∧ t.sdRecs.length = min (s.sdRecs.length + 1) 64 ∧ t.pending = s.pending ∧
        (holdup = false → t.out = s.out)))) ∧
  (∀ s : State,
    let k := s.get F.nirThmStat.thm_step Ix.mod
    ((s.throttled = [] ∨ s.wall < s.thmAt + 24750000) → exec .thermalRaiseRepeat s = .next s) ∧
    (s.throttled ≠ [] → s.thmAt + 24750000 ≤ s.wall →
      (5 ≤ k → exec .thermalRaiseRepeat s = .next { s with thmAt := s.wall }) ∧
      (k < 5 → ∃ t, exec .thermalRaiseRepeat s = .next t ∧ t.get F.nirThmStat.thm_step Ix.mod = k + 1 ∧ t.thmAt = s.wall ∧
        Map.find t.stepReqs .thermal = some (k + 1) ∧ Map.find t.praise (k + 1) = some s.mon.p1s ∧
        RegsBut [.nirThmStat, .nirTimeStep, .nirEvqCnt] s t ∧ Quiet s t)) ∧
    (let due := 0 < k ∧ s.thermalCool = true ∧ ∃ w, s.coolSince = some w ∧ w + 1237500000 ≤ s.wall
     (¬ due → exec .thermalRelease s = .next s) ∧
     (due → k < 8 → ∃ t, exec .thermalRelease s = .next t ∧ t.get F.nirThmStat.thm_step Ix.mod = k - 1 ∧ t.coolSince = some s.wall ∧
       Map.find t.stepReqs .thermal = some (min (k - 1) 5) ∧ RegsBut [.nirThmStat, .nirTimeStep, .nirEvqCnt] s t ∧ Quiet s t)) ∧
    (s.thermalCool = true → ∀ e ∈ s.thermalDies, s.get F.stwThmDie.tdie (Ix.stw e) ≤ 520 ∧ s.get F.stwThmDie.ts0 (Ix.stw e) ≤ 480 ∧
      s.get F.stwThmDie.ts1 (Ix.stw e) ≤ 480)) ∧
  (∀ (s : State) (v i : Fin 65536) (temps : Option (Int × Int)) (ns : Nat),
    let ps := (v.val * i.val :: s.mon.powers).take 100
    (s.shut = true → exec (.nirdoSample v i temps) s = .next s) ∧
    (s.shut = false → ∃ t, exec (.nirdoSample v i temps) s = .next t ∧ t.get F.nirPwrStat.vbus Ix.mod = v.val ∧ t.mon.powers = ps ∧
      t.get F.nirPwrPin.p1ms Ix.mod = min (ps.foldl (· + ·) 0 / (10000 * ps.length)) 0xFFFF ∧
      t.get F.nirPwrPin.p100us Ix.mod = min ((ps.take 10).foldl (· + ·) 0 / (10000 * (ps.take 10).length)) 0xFFFF ∧ t.mon.sumP = s.mon.sumP + v.val * i.val ∧
      t.mon.overIn = overNext (decide (s.powerLimit < t.get F.nirPwrPin.p1ms Ix.mod)) 500 s.mon.overIn ∧
      t.mon.peakIn = overNext (decide (s.peakLimit < t.get F.nirPwrPin.p100us Ix.mod)) 0 s.mon.peakIn ∧
      (temps = none → t.mon.inHighAt = s.mon.inHighAt ∧ t.mon.inLowAt = s.mon.inLowAt) ∧
      (∀ a b, temps = some (a, b) →
        t.mon.inHighAt = (if thermistorOk a = true ∧ (s.inletRange.2 : Int) < a then some (s.mon.inHighAt.getD s.wall) else none) ∧
        t.mon.inLowAt = (if thermistorOk a = true ∧ a < (s.inletRange.1 : Int) then some (s.mon.inLowAt.getD s.wall) else none)) ∧
      (temps = none → RegsBut [.nirPwrStat, .nirPwrPin] s t ∧ t.out = s.out) ∧
      (∀ a b, temps = some (a, b) → (thermistorOk a = true → t.get F.nirCoolMeas.tin Ix.mod = a.toNat) ∧
        (thermistorOk a = false → t.get F.nirCoolMeas.tin Ix.mod = s.get F.nirCoolMeas.tin Ix.mod) ∧
        (thermistorOk b = true → t.get F.nirCoolMeas.tout Ix.mod = b.toNat) ∧
        t.get F.nirCoolMeas.thfault Ix.mod = (if thermistorOk a = true ∧ thermistorOk b = true then 0 else 1) ∧
        t.out.length = s.out.length + (if thermistorOk a = false ∧ s.mon.inBad = false then 1 else 0) +
          (if thermistorOk b = false ∧ s.mon.outBad = false then 1 else 0)) ∧
      RegsBut [.nirPwrStat, .nirPwrPin, .nirCoolMeas, .nirEvqCnt] s t ∧ Quiet s t) ∧
    ((ns < 20000 ∨ s.shut = true) → exec (.flowPulse ns) s = .next s) ∧
    (20000 ≤ ns → s.shut = false → exec (.flowPulse ns) s = .next { s with mon := { s.mon with pulses := s.mon.pulses + 1, flowLost := false } }) ∧
    ((s.mon.flowLost = true ∨ s.shut = true) → exec .flowLoss s = .next s) ∧
    (s.mon.flowLost = false → s.shut = false → ∃ t, exec .flowLoss s = .next t ∧ t.mon.flowLost = true ∧
      (Map.find s.embers none = none → s.bit F.nirEmberStat.module Ix.mod = false → Map.find t.embers none = some (s.stitch + 64, 1)) ∧
      RegsBut [.nirEvqCnt, .nirKindleStat, .nirFpHead] s t ∧ Quiet s t)) ∧
  (∀ s : State,
    let ppl := s.get F.nirCoolCfg.ppl Ix.mod
    let need := max 6000 (3 * s.mon.p1s)
    let low := 60000 * s.mon.pulses < need * ppl
    let shown := s.bit F.nirCoolMeas.lowflow Ix.mod
    (∃ t, exec .flowEvaluate s = .next t ∧ t.get F.nirCoolMeas.flow Ix.mod = min (600 * s.mon.pulses / max 1 ppl) 0xFFF ∧
      t.get F.nirCoolMeas.qreq Ix.mod = min (need / 100) 0xFFF ∧ t.mon.pulses = 0 ∧ t.mon.perSec = s.mon.pulses ∧
      (low → t.mon.lowRun = s.mon.lowRun + 1 ∧ t.mon.okRun = 0 ∧ t.bit F.nirCoolMeas.lowflow Ix.mod = (shown || decide (2 ≤ s.mon.lowRun))) ∧
      (¬ low → t.mon.lowRun = 0 ∧ t.mon.okRun = s.mon.okRun + 1 ∧ t.bit F.nirCoolMeas.lowflow Ix.mod = (shown && decide (s.mon.okRun < 2))) ∧
      RegsBut [.nirCoolMeas, .nirEvqCnt] s t ∧ Quiet s t) ∧
    (let o := s.mon
     let p : Rat := if o.n = 0 then o.p1s else o.sumP / 10000 / o.n
     let tin : Rat := if o.nT = 0 then s.get F.nirCoolMeas.tin Ix.mod / 4 - 40 else o.sumIn / 4 / o.nT - 40
     let hot : Rat := if o.nHot = 0 then s.get F.nirThmStat.thot Ix.mod / 4 - 40 else o.sumHot / 4 / o.nHot - 40
     let ok := 1000 ≤ p ∧ tin + 5 < hot ∧ o.inBad = false ∧ o.outBad = false
     let cap := (95 - tin) * p / (hot - tin)
     ∃ t, exec .marginEstimate s = .next t ∧ t.mon.n = 0 ∧ t.mon.sumP = 0 ∧ t.mon.nT = 0 ∧ t.mon.nHot = 0 ∧
       (ok → t.get F.nirCoolMargin.m Ix.mod = show16 (max 0 (cap - p)) ∧ t.get F.nirCoolMargin.pcap Ix.mod = show16 cap ∧
         t.get F.nirCoolMargin.rth Ix.mod = show16 ((hot - tin) / p * 1000000)) ∧
       (¬ ok → t.get F.nirCoolMargin.m Ix.mod = 0xFFFF ∧ t.get F.nirCoolMargin.pcap Ix.mod = 0xFFFF) ∧
       RegsBut [.nirCoolMargin, .nirEvqCnt] s t ∧ Quiet s t) ∧
    (let psus := s.get F.nirIdLimits.psus Ix.mod
     let grade := if psus = 0 then s.gradeLimit else psus
     let x := s.mon.in1s.getD s.inletRange.2
     ∃ t, exec .inletEvaluate s = .next t ∧ t.get F.nirIdLimits.pder Ix.mod = deratedLimit grade x % 2 ^ 16 ∧
       (x ≤ 300 → deratedLimit grade x = grade) ∧
       t.mon.inHigh = (s.mon.inHighAt.isSome && (s.mon.inHigh || s.forSecond s.mon.inHighAt)) ∧
       t.mon.inLow = (s.mon.inLowAt.isSome && (s.mon.inLow || s.forSecond s.mon.inLowAt)) ∧
       t.out.length = s.out.length + (if s.forSecond s.mon.inHighAt = true ∧ s.mon.inHigh = false then 1 else 0) +
         (if s.forSecond s.mon.inLowAt = true ∧ s.mon.inLow = false then 1 else 0) ∧
       RegsBut [.nirIdLimits, .nirEvqCnt] s t ∧ Quiet s t))

/-! ## Kindling, lost dies and ember mode (chapter 16) -/

/-- R30, R45, R412, R447, R459, R492-R499, R515: each stage runs once in its turn, reports, and hands on to the next; a missing supply, coolant, billet or
reference fails the module; K1 starts the counters at 0; K7 gives or withholds READY and ends ember mode.  The operands carry what was measured (entry 40).
Completes: KINDLE_STAGE_K0, KINDLE_STAGE_K1, KINDLE_STAGE_K2, KINDLE_STAGE_K3, KINDLE_STAGE_K4, KINDLE_STAGE_K5, KINDLE_STAGE_K6,
KINDLE_STAGE_K7, STAGE_TIME_LIMIT and KINDLE_FULL. -/
def Obligations.KindlingStages : Prop :=
  ∀ (s : State) (us : Word32),
    let fails := fun (cause : Nat) (t : State) => t.get F.nirKindleStat.state Ix.mod = 4 ∧ t.get F.nirKindleStat.cause Ix.mod = cause ∧ t.kdl.kin = none ∧
      t.faultPin = true ∧ t.running = false ∧ t.stitch = s.stitch
    let ended := fun (k : Kindling) (t : State) => t.get F.nirKindleStat.stage Ix.mod = k.stage + 1 ∧
      t.get F.nirKindleRep.stage (Ix.mod k.stage) = k.stage ∧ t.get F.nirKindleRep.end_us (Ix.mod k.stage) = (k.us + us.toNat) % 2 ^ 32 ∧
      ∃ n, t.kdl.kin = some n ∧ n.stage = k.stage + 1 ∧ n.us = k.us + us.toNat ∧ n.begun = false ∧ n.warm = k.warm ∧ n.scope = k.scope ∧ n.dies = k.dies
    let idle := fun (n : Nat) => ∀ k, s.kdl.kin = some k → k.stage ≠ n
    let fresh := fun (t : State) => t.pending = s.pending ∧ t.running = false ∧ t.stitch = 0 ∧ t.cores = State.reset.cores ∧ t.mem = State.reset.mem ∧
      (s.identOk = true → t.get F.nirKindleStat.state Ix.mod = 1 ∧ t.curStep = 5 ∧ ∃ k, t.kdl.kin = some k ∧ k.stage = 0 ∧ k.warm = false)
    (∀ (supply coolant : Bool) (mute : BitVec 48) (bad : BitVec 24),
      let i := Instr.kindleStageK0 us supply coolant mute bad
      (idle 0 → exec i s = .next s) ∧
      (∀ k, s.kdl.kin = some k → k.stage = 0 →
        (supply = false → ∃ t, exec i s = .next t ∧ fails 1 t) ∧
        (supply = true → coolant = false → ∃ t, exec i s = .next t ∧ fails 2 t) ∧
        (supply = true → coolant = true → ∃ t, exec i s = .next t ∧ ((∀ d ∈ k.dies, d ∉ t.litDies) → fails 3 t) ∧ ((∃ d ∈ k.dies, d ∈ t.litDies) → ended k t) ∧
          (∀ d ∈ k.dies, (t.capacity d = 0 ∨ d < 24 ∧ bad.getLsbD d = true) → d ∉ t.litDies) ∧
          (∀ b < 48, s.dieCount ≤ b / 2 → t.get F.nirBilStat.state (Ix.mod b) = 5) ∧
          (∀ b < 48, b / 2 < s.dieCount → Map.find s.billets b = none → t.get F.nirBilStat.state (Ix.mod b) = 0) ∧
          (∀ b < 48, b / 2 < s.dieCount → ∀ x, Map.find s.billets b = some x → x.fitted = true →
            let y : Billet := { mem := x.mem, wear := s.wearOf x }
            (∀ why, y.refusal (!mute.getLsbD b) = some why → t.get F.nirBilStat.state (Ix.mod b) = 1 ∧ t.get F.nirBilStat.cause (Ix.mod b) = why % 8) ∧
            (y.refusal (!mute.getLsbD b) = none → t.get F.nirBilStat.state (Ix.mod b) = (if y.wear.derated = true ∨ 1000 ≤ y.wear1000 then 3 else 2)))))) ∧
    (∀ (ref : Bool) (m : BitVec 24),
      let i := Instr.kindleStageK1 us ref m
      (idle 1 → exec i s = .next s) ∧
      (∀ k, s.kdl.kin = some k → k.stage = 1 → (ref = false → ∃ t, exec i s = .next t ∧ fails 4 t) ∧
        (ref = true → ∃ t, exec i s = .next t ∧ ended k t ∧ t.running = true ∧ t.stitch = 0 ∧ t.cc = 0 ∧ t.curStep = 5 ∧
          t.wall = s.wall + (if s.running = true then 0 else 12375 * us.toNat) ∧
          (∀ d < 24, m.getLsbD d = true → d ∈ k.dies → d ∉ t.litDies) ∧ (∀ d, d ∈ t.pllLock ↔ d ∈ t.litDies)))) ∧
    (∀ m ok : BitVec 24,
      let i := Instr.kindleStageK2 us m ok
      (idle 2 → exec i s = .next s) ∧
      (∀ k, s.kdl.kin = some k → k.stage = 2 → ∃ t, exec i s = .next t ∧ ended k t ∧ t.stitch = s.stitch ∧
        (∀ d < 24, m.getLsbD d = true → d ∈ k.dies → d ∉ t.litDies) ∧
        (∀ d ∈ k.dies, d ∈ t.litDies → t.get F.tlmRef.main_en (Ix.stw d) = 1 ∧ (ok.getLsbD d = true → (t.tlmOf d).mainBad = false →
          t.get F.tlmRef.main_ok (Ix.stw d) = 1)))) ∧
    (∀ tests : List SideTest,
      let i := Instr.kindleStageK3 us tests
      (idle 3 → exec i s = .next s) ∧
      (∀ k, s.kdl.kin = some k → k.stage = 3 → ∃ t, exec i s = .next t ∧ ended k t ∧ t.stitch = s.stitch ∧
        ∀ d ∈ k.dies, d ∈ s.litDies → ∀ sd < 2,
          let good := ∃ x ∈ tests, x.die.val = d ∧ x.side.val = sd ∧ x.trained = true
          let shown := t.get (if sd = 0 then F.nirFpDie.stk0 else F.nirFpDie.stk1) (Ix.mod d)
          (good → t.get F.stkStat.grp_ready (Ix.stw d sd) = 15 ∧ shown = 0) ∧ (¬ good → t.get F.stkStat.grp_ready (Ix.stw d sd) = 0 ∧ shown = 1) ∧
          (Sound s → ∀ x, fabStack d (sd * 2 ^ 34) ≤ x → x < fabStack d (sd * 2 ^ 34) + 2 ^ 34 → Memory.read t.mem x = 0#8))) ∧
    (∀ x : LinkTests,
      let i := Instr.kindleStageK4 us x
      (idle 4 → exec i s = .next s) ∧
      (∀ k, s.kdl.kin = some k → k.stage = 4 → ∃ t, exec i s = .next t ∧ ended k t ∧ t.stitch = s.stitch ∧ t.mem = s.mem ∧
        t.curStep = (if k.keepsClock = true then s.curStep else s.effCeil % 8))) ∧
    (let i := Instr.kindleStageK5 us
     let training := ∃ p < 6, s.lkState p = lkTraining
     (idle 5 → exec i s = .next s) ∧
     (∀ k, s.kdl.kin = some k → k.stage = 5 →
       let waits := training ∨ (s.awaitsParent = true ∧ s.wall < k.since + 1237500000 * s.get F.nirKindleCfg.talign Ix.mod)
       (k.keepsClock = false → k.begun = false → ∃ t, exec i s = .next t ∧ t.kdl.k5 = true ∧ t.kdl.kin = some { k with begun := true, since := s.wall } ∧
         (∀ p < 6, t.lkState p = (if s.ringSize3 (p / 2) = 1 then lkUnused else lkTraining)) ∧ t.stitch = s.stitch) ∧
       (k.keepsClock = false → k.begun = true → waits → exec i s = .next s) ∧
       ((k.keepsClock = true ∨ k.begun = true ∧ ¬ waits) → ∃ t, exec i s = .next t ∧ ended k t ∧ t.mem = s.mem ∧ t.stitch = s.stitch ∧
         (s.aligning = true → s.timeParent = none → t.get F.nirTorusTstat.aligned Ix.mod = 1 ∧ t.get F.nirTorusTstat.depth Ix.mod = 0)))) ∧
    (∀ r : KnownAnswers,
      let i := Instr.kindleStageK6 us r
      (idle 6 → exec i s = .next s) ∧
      (∀ k, s.kdl.kin = some k → k.stage = 6 →
        let waits := ∃ c ∈ s.kinRegions k, s.regionState c ≠ rOn ∧ c ∉ r.unpowerable
        (k.begun = false → ∃ t, exec i s = .next t ∧ t.kdl.kin = some { k with begun := true, since := s.wall } ∧
          (∀ c ∈ s.kinRegions k, (t.seq c).onAt = some (s.stitch + 512 * (c.clu.val / 16))) ∧ t.stitch = s.stitch ∧ t.mem = s.mem) ∧
        (k.begun = true → waits → exec i s = .next s) ∧
        (k.begun = true → ¬ waits → ∃ t, exec i s = .next t ∧ ended k t ∧ (∀ n, t.kdl.kin = some n → n.known = r.complete) ∧
          (∀ a ∈ r.arrays, a.die.val ∈ k.dies → a.die.val ∈ s.litDies → a ∈ t.mapOut) ∧ (∀ a ∈ s.mapOut, a ∈ t.mapOut) ∧ t.stitch = s.stitch))) ∧
    (let i := Instr.kindleStageK7 us
     (idle 7 → exec i s = .next s) ∧
     (∀ k, s.kdl.kin = some k → k.stage = 7 →
       let ok := s.withheldCause k = 0 ∧ (k.warm = false ∨ s.kdl.ready = true)
       ∃ t, exec i s = .next t ∧ t.kdl.kin = none ∧ (ok → t.get F.nirKindleStat.state Ix.mod = 2 ∧ t.kdl.ready = true) ∧
         (¬ ok → t.get F.nirKindleStat.state Ix.mod = 3 ∧ t.kdl.ready = false) ∧ t.get F.nirKindleStat.cause Ix.mod = s.withheldCause k ∧
         (k.keepsClock = false → t.get F.nirPwrStat.mode Ix.mod = 1) ∧
         (k.warm = true → k.scope = none → t.get F.nirEmberStat.module Ix.mod = 0 ∧ t.get F.nirEmberStat.parts Ix.mod = 0) ∧
         (∀ p, k.warm = true → k.scope = some p → (t.get F.nirEmberStat.parts Ix.mod).testBit p = false) ∧
         (k.warm = false → t.get F.nirEmberStat.parts Ix.mod = s.get F.nirEmberStat.parts Ix.mod) ∧
         RegsBut [.nirKindleRep, .nirKindleStat, .nirFpHead, .nirPwrStat, .nirEmberStat, .nirEvqCnt] s t ∧ t.pending = s.pending ∧ t.mem = s.mem ∧
         t.cores = s.cores ∧ t.engines = s.engines ∧ t.stitch = s.stitch ∧ t.cc = s.cc)) ∧
    (∀ m : BitVec 24, (s.kdl.kin = none → exec (.stageTimeLimit m) s = .next s) ∧
      (∀ k, s.kdl.kin = some k → ∃ t, exec (.stageTimeLimit m) s = .next t ∧ t.stitch = s.stitch ∧
        (∀ d ∈ k.dies, d < 24 → m.getLsbD d = true → s.dieDark d = false → t.get F.nirFpDie.state (Ix.mod d) = 2 ∧
          t.get F.nirFpDie.dark_cause (Ix.mod d) = 4 ∧ d ∉ t.litDies))) ∧
    (let st := s.get F.nirKindleStat.state Ix.mod
     let now := s.bit F.nirEmberStat.module Ix.mod = true ∨ s.running = false
     ((s.shut = true ∨ st = 0) → exec .kindleFull s = .next s) ∧
     (s.shut = false → st ≠ 0 → now → ∃ t, exec .kindleFull s = .next t ∧ fresh t) ∧
     (s.shut = false → st ≠ 0 → ¬ now → ∃ t, exec .kindleFull s = .next t ∧ t.kdl.fullAsked = true ∧
       (Map.find s.embers none = none → Map.find t.embers none = some (s.stitch + 64, 0)) ∧ RegsBut [.nirKindleStat, .nirFpHead] s t ∧ Quiet s t))

/-- R494, R508-R516: a steward that stops answering makes its die dark; a dark die's regions, stacks and transfers are lost and its partition halts and waits
its grace; resumption keeps each context or returns it to the queue; ember mode is decided 64 st ahead, entered at its gate and left by a warm kindling.
Completes: STEWARD_POLL_TIMEOUT, DIE_DARK, GRACE_EXPIRY, SERVING_RESUME, EMBER_ENTER, EMBER_EXIT and EMBER_GATE. -/
def Obligations.LostDiesAndEmber : Prop :=
  (∀ (s : State) (d : DieIx),
    let watched := s.running = true ∧ s.get F.nirFpDie.state (Ix.mod d) = 1 ∧ s.dieDark d = false
    (¬ watched → exec (.stewardPollTimeout d) s = .next s) ∧
    (watched → exec (.stewardPollTimeout d) s = .next { s with dying := Map.put s.dying d.val 1 }) ∧
    (Map.find s.dying d.val = none → exec (.dieDark d) s = .next s) ∧
    (∀ cause, Map.find s.dying d.val = some cause → ∃ t, exec (.dieDark d) s = .next t ∧ t.get F.nirFpDie.state (Ix.mod d) = 2 ∧
      t.get F.nirFpDie.dark_cause (Ix.mod d) = cause % 256 ∧ d.val ∉ t.litDies ∧ Map.find t.dying d.val = none ∧
      (∀ c : CluId, c.die = d → s.regionState c ≠ rDead → t.regionState c = rOff) ∧ (∀ x ∈ t.flights, x.core.die ≠ d) ∧
      (∀ b ∈ dieSockets d, t.get F.nirBilStat.ilim (Ix.mod b) = 0) ∧
      (Sound s → ∀ x, fabStack d 0 ≤ x → x < fabStack d 0 + 0x800000000 → Memory.read t.mem x = 0#8) ∧
      (s.partOf d = none → t.kdl.owed = s.kdl.owed) ∧
      (∀ p, s.partOf d = some p → (∀ w, Map.find s.swaps p = some w → w.committed = false) → (d.val, s.stitch) ∈ t.kdl.owed ∧
        Map.find t.kdl.grace p = some (s.wall + 12375000 * s.get F.nirEmberCfg.grace Ix.mod) ∧
        (s.get F.nirEmberCfg.grace Ix.mod = 0 → Map.find s.embers (some p) = none → Map.find s.embers none = none → s.shut = false →
          s.bit F.nirEmberStat.module Ix.mod = false → Map.find t.embers (some p) = some (s.stitch + 64, 3))) ∧
      t.stitch = s.stitch ∧ t.cc = s.cc)) ∧
  (∀ (s : State) (p : PartIx),
    ((Map.find s.kdl.grace p.val = none ∨ ∃ w, Map.find s.kdl.grace p.val = some w ∧ s.wall < w) → exec (.graceExpiry p) s = .next s) ∧
    (∀ w, Map.find s.kdl.grace p.val = some w → w ≤ s.wall → ∃ t, exec (.graceExpiry p) s = .next t ∧ Map.find t.kdl.grace p.val = none ∧
      (Map.find s.embers (some p.val) = none → Map.find s.embers none = none → s.shut = false → s.bit F.nirEmberStat.module Ix.mod = false →
        Map.find t.embers (some p.val) = some (s.stitch + 64, 3)) ∧ RegsBut [.nirKindleStat, .nirFpHead] s t ∧ Quiet s t) ∧
    ((∀ h n, Map.find s.servHalt p.val = some h → h.resumeAt = some n → h.resumed = true ∨ s.stitch < n) →
      ((∀ n, Map.find s.pauseUntil p.val = some n → s.stitch < n) → exec (.servingResume p) s = .next s) ∧
      (∀ n, Map.find s.pauseUntil p.val = some n → n ≤ s.stitch → s.serving p = true → ∃ t, exec (.servingResume p) s = .next t ∧
        Map.find t.pauseUntil p.val = none ∧ (∀ q ∈ s.passes, q ∈ t.passes) ∧ t.ctxs = s.ctxs ∧ RegsBut [.srvStat] s t ∧ Quiet s t)) ∧
    (∀ h n, Map.find s.servHalt p.val = some h → h.resumeAt = some n → h.resumed = false → n ≤ s.stitch → (s.ctxs.map fun e => e.1).Nodup →
      ∃ t, exec (.servingResume p) s = .next t ∧ (∀ h2, Map.find t.servHalt p.val = some h2 → h2.resumed = true) ∧ t.stitch = s.stitch ∧ t.cc = s.cc ∧
      (∀ x c, s.ctx p x = some c → s.ctxState p x ≠ cClosing →
        (s.mustRebuild p h (x, c) = false → t.ctx p x = some c ∧ t.ctxState p x = s.ctxState p x) ∧
        (s.mustRebuild p h (x, c) = true → t.ctxState p x = cQueued ∧ ∃ y, t.ctx p x = some y ∧ y.admitted = false ∧ y.rebuild = true ∧ y.desc = c.desc ∧
          y.gen = c.gen ∧ y.len = 0 ∧ y.replay = max c.replay c.len ∧ y.promoted = some (c.promoted.getD s.stitch)) ∧
        (c.admitted = true → s.bit F.srvKvLen.active (Ix.mod p (s.ctxSeat p x)) = true →
          (∀ y e, s.ctx p y = some e → e.admitted = true → y ≠ x → s.ctxSeat p y ≠ s.ctxSeat p x) →
          t.get F.srvKvLen.len (Ix.mod p (s.ctxSeat p x)) = c.len % 2 ^ 17)))) ∧
  (∀ (s : State) (scope : Option PartIx),
    let sc := scope.map fun p => p.val
    let st := s.get F.nirKindleStat.state Ix.mod
    let decided := Map.find s.embers sc ≠ none ∨ Map.find s.embers none ≠ none
    let busy := decided ∨ ∃ k, s.kdl.kin = some k ∧ k.warm = false
    let wrong := st = 0 ∨ st = 4 ∨ (s.inEmber sc = true ∧ s.leaving sc = false) ∨ ∃ p, scope = some p ∧ s.get F.hrnPart.dies (Ix.mod p) = 0
    let inScope := match scope with
      | none => s.bit F.nirEmberStat.module Ix.mod = true
      | some p => s.bit F.nirEmberStat.module Ix.mod = false ∧ (s.get F.nirEmberStat.parts Ix.mod).testBit p.val = true
    let answers := fun (r : Nat) (t : State) => t.get F.nirEmberStat.result Ix.mod = r ∧ FieldsBut [(F.nirEmberStat.result, Ix.mod)] s t ∧ Quiet s t
    (s.shut = true → exec (.emberEnter scope) s = .next s ∧ exec (.emberExit scope) s = .next s) ∧
    (s.shut = false →
      (busy → ∃ t, exec (.emberEnter scope) s = .next t ∧ answers 3 t ∧ t.embers = s.embers) ∧
      (¬ busy → wrong → ∃ t, exec (.emberEnter scope) s = .next t ∧ answers 2 t ∧ t.embers = s.embers) ∧
      (¬ busy → ¬ wrong → ∃ t, exec (.emberEnter scope) s = .next t ∧ t.get F.nirEmberStat.result Ix.mod = 0 ∧
        Map.find t.embers sc = some (s.stitch + 64, 0) ∧ RegsBut [.nirEmberStat, .nirKindleStat, .nirFpHead] s t ∧ Quiet s t) ∧
      ((decided ∨ s.kdl.kin ≠ none) → ∃ t, exec (.emberExit scope) s = .next t ∧ answers 3 t ∧ t.kdl = s.kdl) ∧
      (¬ decided → s.kdl.kin = none →
        (¬ inScope → ∃ t, exec (.emberExit scope) s = .next t ∧ answers 2 t ∧ t.kdl = s.kdl) ∧
        (inScope → s.emberClear = false → ∃ t, exec (.emberExit scope) s = .next t ∧ answers 1 t ∧ t.kdl = s.kdl) ∧
        (inScope → s.emberClear = true → ∃ t k, exec (.emberExit scope) s = .next t ∧ t.get F.nirEmberStat.result Ix.mod = 0 ∧ t.kdl.kin = some k ∧
          k.stage = 3 ∧ k.warm = true ∧ k.scope = sc ∧ (∀ d, d ∈ k.dies ↔ d ∈ s.litDies ∧ ∀ p, scope = some p → d ∈ s.diesOf p) ∧
          t.get F.nirKindleStat.state Ix.mod = 1 ∧ RegsBut [.nirEmberStat, .nirKindleStat, .nirKindleRep, .nirFpHead] s t ∧ Quiet s t))) ∧
    (∀ g cause, Map.find s.embers sc = some (g, cause) →
      let waits := s.stitch < g ∨ ∃ k, s.kdl.kin = some k ∧ k.warm = false
      (waits → exec (.emberGate scope) s = .next s) ∧
      (¬ waits → (∀ p, scope = some p → ∃ t, exec (.emberGate scope) s = .next t ∧ Map.find t.embers (some p.val) = none ∧
          (t.get F.nirEmberStat.parts Ix.mod).testBit p.val = true ∧ t.get F.nirEmberStat.cause Ix.mod = cause % 8 ∧ Map.find t.active p.val = none ∧
          t.get F.hrnStat.active_valid (Ix.mod p) = 0 ∧ p.val ∈ t.mustClear ∧
          (∀ c : CluId, c.die.val ∈ s.diesOf p → c.die.val ∈ s.litDies → s.regionState c ≠ rOff → s.regionState c ≠ rDead →
            ∃ u, (t.seq c).offAt = some u ∧ u ≤ g) ∧ t.stitch = s.stitch ∧ t.cc = s.cc) ∧
        (scope = none → s.kdl.fullAsked = false → ∃ t, exec (.emberGate scope) s = .next t ∧ t.embers = [] ∧
          t.get F.nirEmberStat.module Ix.mod = 1 ∧ t.get F.nirEmberStat.cause Ix.mod = cause % 8 ∧ t.get F.nirKindleStat.state Ix.mod = 5 ∧
          t.get F.nirPwrStat.mode Ix.mod = 2 ∧ Map.find t.stepReqs .ember = some 5 ∧
          (∀ d ∈ s.litDies, t.get F.stwPwrRail.set (Ix.stw d) = 0 ∧ ∀ c : CluId, c.die.val = d → s.regionState c ≠ rOff → s.regionState c ≠ rDead →
            ∃ u, (t.seq c).offAt = some u ∧ u ≤ g) ∧
          (∀ p : PartIx, s.get F.hrnPart.dies (Ix.mod p) ≠ 0 → Map.find t.active p.val = none) ∧ t.stitch = s.stitch ∧ t.cc = s.cc) ∧
        (scope = none → s.kdl.fullAsked = true → ∃ t, exec (.emberGate scope) s = .next t ∧ t.running = false ∧ t.stitch = 0 ∧ t.pending = s.pending))) ∧
    (Map.find s.embers sc = none → exec (.emberGate scope) s = .next s))
end

