-- ==== Sys2Proof/Laws/Bytes.lean ====
section
/-!
SUPPORT. Laws of byte strings: their lengths, and the length of a digest.
-/

namespace Sys2Proof.Machine
open Sys2Proof

@[simp] theorem natToBytes_length (n v : Nat) : (natToBytes n v).length = n := by
  induction n generalizing v with
  | zero => rfl
  | succ n ih => simp [natToBytes, ih]

@[simp] theorem beBytes_length (n v : Nat) : (beBytes n v).length = n := by simp [beBytes]

theorem Memory.readN_length (m : Memory) (a n : Nat) : (Memory.readN m a n).length = n := by
  induction n generalizing a with
  | zero => rfl
  | succ n ih => simp [Memory.readN, ih]

theorem Sha.round_length (h : Sha) (v : List Nat) (kw : Nat × Nat) (hv : v.length = 8) : (h.round v kw).length = 8 := by
  unfold Sha.round
  split <;> simp_all

theorem Sha.rounds_length (h : Sha) (l : List (Nat × Nat)) (v : List Nat) (hv : v.length = 8) : (l.foldl h.round v).length = 8 := by
  induction l generalizing v with
  | nil => exact hv
  | cons x l ih => exact ih _ (h.round_length v x hv)

theorem Sha.block_length (h : Sha) (hs : List Nat) (bs : List Byte) (hv : hs.length = 8) : (h.block hs bs).length = 8 := by
  simp [Sha.block, h.rounds_length _ _ hv, hv]

theorem Sha.blocks_length (h : Sha) (hs : List Nat) (n : Nat) (bs : List Byte) (hv : hs.length = 8) : (h.blocks hs n bs).length = 8 := by
  induction n generalizing hs bs with
  | zero => exact hv
  | succ n ih => exact ih _ _ (h.block_length hs _ hv)

theorem flatMap_bytes_length (l : List Nat) (n : Nat) : (l.flatMap (beBytes n)).length = n * l.length := by
  induction l with
  | nil => rfl
  | cons x l ih => simp [ih, Nat.mul_add]; omega

theorem sha256_length (bs : List Byte) : (sha256 bs).length = 32 := by
  simp only [sha256]
  rw [flatMap_bytes_length, Sha.blocks_length _ _ _ _ rfl]

end Sys2Proof.Machine
end

