-- ==== Sys2Proof/Laws/Map.lean ====
section
/-!
SUPPORT. Laws of finite maps and of byte memory: reading after writing, and the canonical form kept by every operation.
-/

namespace Sys2Proof.Machine

variable {κ ν : Type} [DecidableEq κ]

@[simp] theorem Map.find_nil (k : κ) : Map.find ([] : Map κ ν) k = none := rfl

theorem Map.find_del_same (m : Map κ ν) (k : κ) : Map.find (Map.del m k) k = none := by
  induction m with
  | nil => rfl
  | cons p t ih =>
    obtain ⟨k', v⟩ := p
    by_cases h : k' = k <;> simp [Map.del, Map.find, h, ih]

theorem Map.find_del_ne (m : Map κ ν) (k j : κ) (h : k ≠ j) : Map.find (Map.del m k) j = Map.find m j := by
  induction m with
  | nil => rfl
  | cons p t ih =>
    obtain ⟨k', v⟩ := p
    by_cases hk : k' = k
    · subst hk; simp [Map.del, Map.find, h, ih]
    · simp only [Map.del, hk, if_false, Map.find]
      by_cases hj : k' = j <;> simp [hj, ih]

@[simp] theorem Map.find_put_same (m : Map κ ν) (k : κ) (v : ν) : Map.find (Map.put m k v) k = some v := by
  simp [Map.put, Map.find]

theorem Map.find_put_ne (m : Map κ ν) (k j : κ) (v : ν) (h : k ≠ j) : Map.find (Map.put m k v) j = Map.find m j := by
  simp [Map.put, Map.find, h, Map.find_del_ne m k j h]

@[simp] theorem Map.getD_put_same (m : Map κ ν) (k : κ) (v d : ν) : Map.getD (Map.put m k v) k d = v := by
  simp [Map.getD]

theorem Map.getD_put_ne (m : Map κ ν) (k j : κ) (v d : ν) (h : k ≠ j) : Map.getD (Map.put m k v) j d = Map.getD m j d := by
  simp [Map.getD, Map.find_put_ne m k j v h]

/-! ### Byte memory -/

/-- The canonical form with addresses above a bound, as a plain recursion. -/
theorem Memory.wfFrom_cons (lo : Option Nat) (a : Nat) (b : BitVec 8) (t : Memory) :
    Memory.wfFrom lo ((a, b) :: t) = true ↔ (∀ l, lo = some l → l < a) ∧ b ≠ Memory.blank ∧ Memory.wfFrom (some a) t = true := by
  cases lo <;> simp [Memory.wfFrom, and_assoc]

theorem Memory.wfFrom_mono {lo hi : Option Nat} {m : Memory} (h : Memory.wfFrom hi m = true) (hl : ∀ l, lo = some l → ∃ k, hi = some k ∧ l ≤ k) :
    Memory.wfFrom lo m = true := by
  cases m with
  | nil => rfl
  | cons p t =>
    obtain ⟨a, b⟩ := p
    rw [Memory.wfFrom_cons] at h ⊢
    refine ⟨fun l hl' => ?_, h.2⟩
    obtain ⟨k, hk, hlk⟩ := hl l hl'
    exact Nat.lt_of_le_of_lt hlk (h.1 k hk)

/-- Below the bound of a canonical list every address reads blank. -/
theorem Memory.read_below {m : Memory} {lo : Nat} (h : Memory.wfFrom (some lo) m = true) {a : Nat} (ha : a ≤ lo) :
    Memory.read m a = Memory.blank := by
  cases m with
  | nil => rfl
  | cons p t =>
    obtain ⟨a', b⟩ := p
    rw [Memory.wfFrom_cons] at h
    have := h.1 lo rfl
    have h1 : a' ≠ a := by omega
    have h2 : a < a' := by omega
    simp [Memory.read, h1, h2]

theorem Memory.write_wfFrom {m : Memory} {lo : Option Nat} (h : Memory.wfFrom lo m = true) {a : Nat} (b : BitVec 8)
    (ha : ∀ l, lo = some l → l < a) : Memory.wfFrom lo (Memory.write m a b) = true := by
  induction m generalizing lo with
  | nil =>
    by_cases hb : b = Memory.blank
    · simp [Memory.write, hb, Memory.wfFrom]
    · simp only [Memory.write, hb, if_false]; rw [Memory.wfFrom_cons]; exact ⟨ha, hb, rfl⟩
  | cons p t ih =>
    obtain ⟨a', b'⟩ := p
    have hc := h
    rw [Memory.wfFrom_cons] at h
    simp only [Memory.write]
    split
    · rename_i hlt
      split
      · exact hc
      · rename_i hb
        rw [Memory.wfFrom_cons]
        refine ⟨ha, hb, ?_⟩
        rw [Memory.wfFrom_cons]
        exact ⟨fun l hl => by cases hl; exact hlt, h.2⟩
    · split
      · rename_i heq
        split
        · exact Memory.wfFrom_mono h.2.2 (fun l hl => ⟨a', rfl, Nat.le_of_lt (h.1 l hl)⟩)
        · rename_i hb
          subst heq
          rw [Memory.wfFrom_cons]
          exact ⟨ha, hb, h.2.2⟩
      · rename_i h1 h2
        rw [Memory.wfFrom_cons]
        exact ⟨h.1, h.2.1, ih h.2.2 (fun l hl => by cases hl; omega)⟩

/-- Writing a byte keeps the canonical form. -/
theorem Memory.write_wf {m : Memory} (h : Memory.wf m = true) (a : Nat) (b : BitVec 8) : Memory.wf (Memory.write m a b) = true :=
  Memory.write_wfFrom h b (fun _ hl => by cases hl)

theorem Memory.writeList_wf {m : Memory} (h : Memory.wf m = true) (a : Nat) (bs : List (BitVec 8)) :
    Memory.wf (Memory.writeList m a bs) = true := by
  induction bs generalizing m a with
  | nil => exact h
  | cons b t ih => exact ih (Memory.write_wf h a b) (a + 1)

theorem Memory.filter_wfFrom {m : Memory} {lo : Option Nat} (h : Memory.wfFrom lo m = true) (f : Nat × BitVec 8 → Bool) :
    Memory.wfFrom lo (m.filter f) = true := by
  induction m generalizing lo with
  | nil => rfl
  | cons p t ih =>
    obtain ⟨a, b⟩ := p
    rw [Memory.wfFrom_cons] at h
    by_cases hp : f (a, b) = true
    · rw [List.filter_cons_of_pos hp, Memory.wfFrom_cons]; exact ⟨h.1, h.2.1, ih h.2.2⟩
    · rw [List.filter_cons_of_neg hp]
      exact ih (Memory.wfFrom_mono h.2.2 (fun l hl => ⟨a, rfl, Nat.le_of_lt (h.1 l hl)⟩))

theorem Memory.clearRange_wf {m : Memory} (h : Memory.wf m = true) (lo hi : Nat) : Memory.wf (Memory.clearRange m lo hi) = true :=
  Memory.filter_wfFrom h _

/-- Reading the address just written. -/
theorem Memory.read_write_same {m : Memory} {lo : Option Nat} (h : Memory.wfFrom lo m = true) (a : Nat) (b : BitVec 8) :
    Memory.read (Memory.write m a b) a = b := by
  induction m generalizing lo with
  | nil => by_cases hb : b = Memory.blank <;> simp [Memory.write, Memory.read, hb]
  | cons p t ih =>
    obtain ⟨a', b'⟩ := p
    rw [Memory.wfFrom_cons] at h
    simp only [Memory.write]
    split
    · rename_i hlt
      have h1 : a' ≠ a := by omega
      split
      · rename_i hb; simp [Memory.read, h1, hlt, hb]
      · simp [Memory.read]
    · split
      · rename_i heq
        split
        · rename_i hb
          rw [hb]; exact Memory.read_below h.2.2 (by omega)
        · simp [Memory.read]
      · rename_i h1 h2
        have h3 : a' ≠ a := fun e => h2 e.symm
        simp only [Memory.read, h3, if_false, h1]
        exact ih h.2.2

/-- A write leaves every other address alone. -/
theorem Memory.read_write_ne {m : Memory} {lo : Option Nat} (h : Memory.wfFrom lo m = true) {a c : Nat} (b : BitVec 8) (hac : c ≠ a) :
    Memory.read (Memory.write m a b) c = Memory.read m c := by
  induction m generalizing lo with
  | nil =>
    by_cases hb : b = Memory.blank
    · simp [Memory.write, hb]
    · have h1 : a ≠ c := fun e => hac e.symm
      simp [Memory.write, hb, Memory.read, h1]
  | cons p t ih =>
    obtain ⟨a', b'⟩ := p
    rw [Memory.wfFrom_cons] at h
    have h1 : a ≠ c := fun e => hac e.symm
    simp only [Memory.write]
    split
    · rename_i hlt
      split
      · rfl
      · by_cases hc : c < a
        · have h2 : a' ≠ c := by omega
          have h3 : c < a' := by omega
          simp [Memory.read, h1, h2, h3, hc]
        · simp [Memory.read, h1, hc]
    · split
      · rename_i heq
        subst heq
        split
        · by_cases hc : c < a
          · rw [Memory.read_below h.2.2 (by omega)]; simp [Memory.read, h1, hc]
          · simp [Memory.read, h1, hc]
        · by_cases hc : c < a <;> simp [Memory.read, h1, hc]
      · by_cases hc : a' = c
        · simp [Memory.read, hc]
        · by_cases hlt : c < a'
          · simp [Memory.read, hc, hlt]
          · simp only [Memory.read, hc, if_false, hlt]; exact ih h.2.2

/-- A write of bytes leaves an address outside them alone. -/
theorem Memory.read_writeList_ne {m : Memory} (h : Memory.wf m = true) {a c : Nat} (bs : List (BitVec 8)) (hc : c < a ∨ a + bs.length ≤ c) :
    Memory.read (Memory.writeList m a bs) c = Memory.read m c := by
  induction bs generalizing m a with
  | nil => rfl
  | cons b t ih =>
    rw [List.length_cons] at hc
    rw [Memory.writeList, ih (Memory.write_wf h a b) (by omega)]
    exact Memory.read_write_ne h b (by omega)

theorem Memory.readN_congr {m k : Memory} {a n : Nat} (h : ∀ c, a ≤ c → c < a + n → Memory.read m c = Memory.read k c) :
    Memory.readN m a n = Memory.readN k a n := by
  induction n generalizing a with
  | zero => rfl
  | succ n ih => rw [Memory.readN, Memory.readN, h a (by omega) (by omega), ih fun c h1 h2 => h c (by omega) (by omega)]

/-- Bytes just written read back. -/
theorem Memory.readN_writeList {m : Memory} (h : Memory.wf m = true) (a : Nat) (bs : List (BitVec 8)) :
    Memory.readN (Memory.writeList m a bs) a bs.length = bs := by
  induction bs generalizing m a with
  | nil => rfl
  | cons b t ih =>
    rw [List.length_cons, Memory.readN, Memory.writeList, ih (Memory.write_wf h a b), Memory.read_writeList_ne (Memory.write_wf h a b) t (by omega),
      Memory.read_write_same h]

/-- A range that a write does not meet reads as before. -/
theorem Memory.readN_writeList_ne {m : Memory} (h : Memory.wf m = true) {a c n : Nat} (bs : List (BitVec 8)) (hc : c + n ≤ a ∨ a + bs.length ≤ c) :
    Memory.readN (Memory.writeList m a bs) c n = Memory.readN m c n :=
  Memory.readN_congr fun _ _ _ => Memory.read_writeList_ne h bs (by omega)

end Sys2Proof.Machine
end

