-- ==== Sys2Proof/Laws/State.lean ====
section
/-!
SUPPORT. What each update of the state leaves alone: one lemma per field and update, and the laws of the register file.
-/

namespace Sys2Proof.Machine
open Sys2Proof

/-! ### `State.set` -/

@[simp] theorem State.set_pending (s : State) (g : Fld) (ix : Ix) (v : Nat) : (s.set g ix v).pending = s.pending := rfl
@[simp] theorem State.set_stitch (s : State) (g : Fld) (ix : Ix) (v : Nat) : (s.set g ix v).stitch = s.stitch := rfl
@[simp] theorem State.set_cc (s : State) (g : Fld) (ix : Ix) (v : Nat) : (s.set g ix v).cc = s.cc := rfl
@[simp] theorem State.set_draws (s : State) (g : Fld) (ix : Ix) (v : Nat) : (s.set g ix v).draws = s.draws := rfl
@[simp] theorem State.set_shadow (s : State) (g : Fld) (ix : Ix) (v : Nat) : (s.set g ix v).shadow = s.shadow := rfl
@[simp] theorem State.set_ignored (s : State) (g : Fld) (ix : Ix) (v : Nat) : (s.set g ix v).ignored = s.ignored := rfl
@[simp] theorem State.set_cycleRegs (s : State) (g : Fld) (ix : Ix) (v : Nat) : (s.set g ix v).cycleRegs = s.cycleRegs := rfl
@[simp] theorem State.set_ignoredStore (s : State) (g : Fld) (ix : Ix) (v : Nat) : (s.set g ix v).ignoredStore = s.ignoredStore := rfl
@[simp] theorem State.set_mem (s : State) (g : Fld) (ix : Ix) (v : Nat) : (s.set g ix v).mem = s.mem := rfl
@[simp] theorem State.set_marks (s : State) (g : Fld) (ix : Ix) (v : Nat) : (s.set g ix v).marks = s.marks := rfl
@[simp] theorem State.set_released (s : State) (g : Fld) (ix : Ix) (v : Nat) : (s.set g ix v).released = s.released := rfl
@[simp] theorem State.set_samplerAt (s : State) (g : Fld) (ix : Ix) (v : Nat) : (s.set g ix v).samplerAt = s.samplerAt := rfl
@[simp] theorem State.set_laneUse (s : State) (g : Fld) (ix : Ix) (v : Nat) : (s.set g ix v).laneUse = s.laneUse := rfl
@[simp] theorem State.set_spadClear (s : State) (g : Fld) (ix : Ix) (v : Nat) : (s.set g ix v).spadClear = s.spadClear := rfl
@[simp] theorem State.set_addrFaults (s : State) (g : Fld) (ix : Ix) (v : Nat) : (s.set g ix v).addrFaults = s.addrFaults := rfl
@[simp] theorem State.set_planeQ (s : State) (g : Fld) (ix : Ix) (v : Nat) : (s.set g ix v).planeQ = s.planeQ := rfl
@[simp] theorem State.set_tempSum (s : State) (g : Fld) (ix : Ix) (v : Nat) : (s.set g ix v).tempSum = s.tempSum := rfl
@[simp] theorem State.set_breaks (s : State) (g : Fld) (ix : Ix) (v : Nat) : (s.set g ix v).breaks = s.breaks := rfl
@[simp] theorem State.set_stageAt (s : State) (g : Fld) (ix : Ix) (v : Nat) : (s.set g ix v).stageAt = s.stageAt := rfl
@[simp] theorem State.set_upsets (s : State) (g : Fld) (ix : Ix) (v : Nat) : (s.set g ix v).upsets = s.upsets := rfl
@[simp] theorem State.set_writebacks (s : State) (g : Fld) (ix : Ix) (v : Nat) : (s.set g ix v).writebacks = s.writebacks := rfl
@[simp] theorem State.set_cores (s : State) (g : Fld) (ix : Ix) (v : Nat) : (s.set g ix v).cores = s.cores := rfl
@[simp] theorem State.set_engines (s : State) (g : Fld) (ix : Ix) (v : Nat) : (s.set g ix v).engines = s.engines := rfl
@[simp] theorem State.set_halts (s : State) (g : Fld) (ix : Ix) (v : Nat) : (s.set g ix v).halts = s.halts := rfl
@[simp] theorem State.set_chans (s : State) (g : Fld) (ix : Ix) (v : Nat) : (s.set g ix v).chans = s.chans := rfl
@[simp] theorem State.set_flights (s : State) (g : Fld) (ix : Ix) (v : Nat) : (s.set g ix v).flights = s.flights := rfl
@[simp] theorem State.set_xferSeq (s : State) (g : Fld) (ix : Ix) (v : Nat) : (s.set g ix v).xferSeq = s.xferSeq := rfl
@[simp] theorem State.set_stackReads (s : State) (g : Fld) (ix : Ix) (v : Nat) : (s.set g ix v).stackReads = s.stackReads := rfl
@[simp] theorem State.set_stackWrites (s : State) (g : Fld) (ix : Ix) (v : Nat) : (s.set g ix v).stackWrites = s.stackWrites := rfl
@[simp] theorem State.set_lastReq (s : State) (g : Fld) (ix : Ix) (v : Nat) : (s.set g ix v).lastReq = s.lastReq := rfl
@[simp] theorem State.set_cache (s : State) (g : Fld) (ix : Ix) (v : Nat) : (s.set g ix v).cache = s.cache := rfl
@[simp] theorem State.set_claims (s : State) (g : Fld) (ix : Ix) (v : Nat) : (s.set g ix v).claims = s.claims := rfl
@[simp] theorem State.set_scrubRow (s : State) (g : Fld) (ix : Ix) (v : Nat) : (s.set g ix v).scrubRow = s.scrubRow := rfl
@[simp] theorem State.set_rwq (s : State) (g : Fld) (ix : Ix) (v : Nat) : (s.set g ix v).rwq = s.rwq := rfl
@[simp] theorem State.set_fences (s : State) (g : Fld) (ix : Ix) (v : Nat) : (s.set g ix v).fences = s.fences := rfl
@[simp] theorem State.set_winUpdates (s : State) (g : Fld) (ix : Ix) (v : Nat) : (s.set g ix v).winUpdates = s.winUpdates := rfl
@[simp] theorem State.set_capDue (s : State) (g : Fld) (ix : Ix) (v : Nat) : (s.set g ix v).capDue = s.capDue := rfl
@[simp] theorem State.set_capSeen (s : State) (g : Fld) (ix : Ix) (v : Nat) : (s.set g ix v).capSeen = s.capSeen := rfl
@[simp] theorem State.set_clearing (s : State) (g : Fld) (ix : Ix) (v : Nat) : (s.set g ix v).clearing = s.clearing := rfl
@[simp] theorem State.set_zeroing (s : State) (g : Fld) (ix : Ix) (v : Nat) : (s.set g ix v).zeroing = s.zeroing := rfl
@[simp] theorem State.set_msgs (s : State) (g : Fld) (ix : Ix) (v : Nat) : (s.set g ix v).msgs = s.msgs := rfl
@[simp] theorem State.set_syncQ (s : State) (g : Fld) (ix : Ix) (v : Nat) : (s.set g ix v).syncQ = s.syncQ := rfl
@[simp] theorem State.set_rerouted (s : State) (g : Fld) (ix : Ix) (v : Nat) : (s.set g ix v).rerouted = s.rerouted := rfl
@[simp] theorem State.set_reported (s : State) (g : Fld) (ix : Ix) (v : Nat) : (s.set g ix v).reported = s.reported := rfl
@[simp] theorem State.set_tack (s : State) (g : Fld) (ix : Ix) (v : Nat) : (s.set g ix v).tack = s.tack := rfl
@[simp] theorem State.set_cinchLatch (s : State) (g : Fld) (ix : Ix) (v : Nat) : (s.set g ix v).cinchLatch = s.cinchLatch := rfl
@[simp] theorem State.set_cinchWait (s : State) (g : Fld) (ix : Ix) (v : Nat) : (s.set g ix v).cinchWait = s.cinchWait := rfl
@[simp] theorem State.set_precOut (s : State) (g : Fld) (ix : Ix) (v : Nat) : (s.set g ix v).precOut = s.precOut := rfl
@[simp] theorem State.set_precIn (s : State) (g : Fld) (ix : Ix) (v : Nat) : (s.set g ix v).precIn = s.precIn := rfl
@[simp] theorem State.set_precPrev (s : State) (g : Fld) (ix : Ix) (v : Nat) : (s.set g ix v).precPrev = s.precPrev := rfl
@[simp] theorem State.set_running (s : State) (g : Fld) (ix : Ix) (v : Nat) : (s.set g ix v).running = s.running := rfl
@[simp] theorem State.set_stepReqs (s : State) (g : Fld) (ix : Ix) (v : Nat) : (s.set g ix v).stepReqs = s.stepReqs := rfl
@[simp] theorem State.set_standby (s : State) (g : Fld) (ix : Ix) (v : Nat) : (s.set g ix v).standby = s.standby := rfl
@[simp] theorem State.set_pllLock (s : State) (g : Fld) (ix : Ix) (v : Nat) : (s.set g ix v).pllLock = s.pllLock := rfl
@[simp] theorem State.set_committed (s : State) (g : Fld) (ix : Ix) (v : Nat) : (s.set g ix v).committed = s.committed := rfl
@[simp] theorem State.set_dying (s : State) (g : Fld) (ix : Ix) (v : Nat) : (s.set g ix v).dying = s.dying := rfl
@[simp] theorem State.set_homeList (s : State) (g : Fld) (ix : Ix) (v : Nat) : (s.set g ix v).homeList = s.homeList := rfl
@[simp] theorem State.set_kvCmds (s : State) (g : Fld) (ix : Ix) (v : Nat) : (s.set g ix v).kvCmds = s.kvCmds := rfl
@[simp] theorem State.set_kvJobs (s : State) (g : Fld) (ix : Ix) (v : Nat) : (s.set g ix v).kvJobs = s.kvJobs := rfl
@[simp] theorem State.set_kvSeq (s : State) (g : Fld) (ix : Ix) (v : Nat) : (s.set g ix v).kvSeq = s.kvSeq := rfl
@[simp] theorem State.set_kvLast (s : State) (g : Fld) (ix : Ix) (v : Nat) : (s.set g ix v).kvLast = s.kvLast := rfl
@[simp] theorem State.set_passes (s : State) (g : Fld) (ix : Ix) (v : Nat) : (s.set g ix v).passes = s.passes := rfl
@[simp] theorem State.set_passSeq (s : State) (g : Fld) (ix : Ix) (v : Nat) : (s.set g ix v).passSeq = s.passSeq := rfl
@[simp] theorem State.set_ctxs (s : State) (g : Fld) (ix : Ix) (v : Nat) : (s.set g ix v).ctxs = s.ctxs := rfl
@[simp] theorem State.set_promptCopies (s : State) (g : Fld) (ix : Ix) (v : Nat) : (s.set g ix v).promptCopies = s.promptCopies := rfl
@[simp] theorem State.set_descAt (s : State) (g : Fld) (ix : Ix) (v : Nat) : (s.set g ix v).descAt = s.descAt := rfl
@[simp] theorem State.set_accepted (s : State) (g : Fld) (ix : Ix) (v : Nat) : (s.set g ix v).accepted = s.accepted := rfl
@[simp] theorem State.set_acceptedAct (s : State) (g : Fld) (ix : Ix) (v : Nat) : (s.set g ix v).acceptedAct = s.acceptedAct := rfl
@[simp] theorem State.set_brokeWhy (s : State) (g : Fld) (ix : Ix) (v : Nat) : (s.set g ix v).brokeWhy = s.brokeWhy := rfl
@[simp] theorem State.set_promoEnd (s : State) (g : Fld) (ix : Ix) (v : Nat) : (s.set g ix v).promoEnd = s.promoEnd := rfl
@[simp] theorem State.set_nextBook (s : State) (g : Fld) (ix : Ix) (v : Nat) : (s.set g ix v).nextBook = s.nextBook := rfl
@[simp] theorem State.set_pauseUntil (s : State) (g : Fld) (ix : Ix) (v : Nat) : (s.set g ix v).pauseUntil = s.pauseUntil := rfl
@[simp] theorem State.set_reqQ (s : State) (g : Fld) (ix : Ix) (v : Nat) : (s.set g ix v).reqQ = s.reqQ := rfl
@[simp] theorem State.set_recs (s : State) (g : Fld) (ix : Ix) (v : Nat) : (s.set g ix v).recs = s.recs := rfl
@[simp] theorem State.set_ringSig (s : State) (g : Fld) (ix : Ix) (v : Nat) : (s.set g ix v).ringSig = s.ringSig := rfl
@[simp] theorem State.set_stalled (s : State) (g : Fld) (ix : Ix) (v : Nat) : (s.set g ix v).stalled = s.stalled := rfl
@[simp] theorem State.set_latWins (s : State) (g : Fld) (ix : Ix) (v : Nat) : (s.set g ix v).latWins = s.latWins := rfl
@[simp] theorem State.set_servHalt (s : State) (g : Fld) (ix : Ix) (v : Nat) : (s.set g ix v).servHalt = s.servHalt := rfl
@[simp] theorem State.set_swaps (s : State) (g : Fld) (ix : Ix) (v : Nat) : (s.set g ix v).swaps = s.swaps := rfl
@[simp] theorem State.set_keys (s : State) (g : Fld) (ix : Ix) (v : Nat) : (s.set g ix v).keys = s.keys := rfl
@[simp] theorem State.set_active (s : State) (g : Fld) (ix : Ix) (v : Nat) : (s.set g ix v).active = s.active := rfl
@[simp] theorem State.set_shadowHrn (s : State) (g : Fld) (ix : Ix) (v : Nat) : (s.set g ix v).shadowHrn = s.shadowHrn := rfl
@[simp] theorem State.set_report (s : State) (g : Fld) (ix : Ix) (v : Nat) : (s.set g ix v).report = s.report := rfl
@[simp] theorem State.set_actWrites (s : State) (g : Fld) (ix : Ix) (v : Nat) : (s.set g ix v).actWrites = s.actWrites := rfl
@[simp] theorem State.set_sbufClear (s : State) (g : Fld) (ix : Ix) (v : Nat) : (s.set g ix v).sbufClear = s.sbufClear := rfl
@[simp] theorem State.set_precHeld (s : State) (g : Fld) (ix : Ix) (v : Nat) : (s.set g ix v).precHeld = s.precHeld := rfl
@[simp] theorem State.set_areas (s : State) (g : Fld) (ix : Ix) (v : Nat) : (s.set g ix v).areas = s.areas := rfl
@[simp] theorem State.set_cleared (s : State) (g : Fld) (ix : Ix) (v : Nat) : (s.set g ix v).cleared = s.cleared := rfl
@[simp] theorem State.set_mapOut (s : State) (g : Fld) (ix : Ix) (v : Nat) : (s.set g ix v).mapOut = s.mapOut := rfl
@[simp] theorem State.set_mustClear (s : State) (g : Fld) (ix : Ix) (v : Nat) : (s.set g ix v).mustClear = s.mustClear := rfl
@[simp] theorem State.set_seqs (s : State) (g : Fld) (ix : Ix) (v : Nat) : (s.set g ix v).seqs = s.seqs := rfl
@[simp] theorem State.set_wins (s : State) (g : Fld) (ix : Ix) (v : Nat) : (s.set g ix v).wins = s.wins := rfl
@[simp] theorem State.set_transitI (s : State) (g : Fld) (ix : Ix) (v : Nat) : (s.set g ix v).transitI = s.transitI := rfl
@[simp] theorem State.set_lastWin (s : State) (g : Fld) (ix : Ix) (v : Nat) : (s.set g ix v).lastWin = s.lastWin := rfl
@[simp] theorem State.set_winStep (s : State) (g : Fld) (ix : Ix) (v : Nat) : (s.set g ix v).winStep = s.winStep := rfl
@[simp] theorem State.set_lastStep (s : State) (g : Fld) (ix : Ix) (v : Nat) : (s.set g ix v).lastStep = s.lastStep := rfl
@[simp] theorem State.set_manyRun (s : State) (g : Fld) (ix : Ix) (v : Nat) : (s.set g ix v).manyRun = s.manyRun := rfl
@[simp] theorem State.set_govSince (s : State) (g : Fld) (ix : Ix) (v : Nat) : (s.set g ix v).govSince = s.govSince := rfl
@[simp] theorem State.set_billets (s : State) (g : Fld) (ix : Ix) (v : Nat) : (s.set g ix v).billets = s.billets := rfl
@[simp] theorem State.set_flashWear (s : State) (g : Fld) (ix : Ix) (v : Nat) : (s.set g ix v).flashWear = s.flashWear := rfl
@[simp] theorem State.set_embers (s : State) (g : Fld) (ix : Ix) (v : Nat) : (s.set g ix v).embers = s.embers := rfl
@[simp] theorem State.set_ident (s : State) (g : Fld) (ix : Ix) (v : Nat) : (s.set g ix v).ident = s.ident := rfl
@[simp] theorem State.set_shut (s : State) (g : Fld) (ix : Ix) (v : Nat) : (s.set g ix v).shut = s.shut := rfl
@[simp] theorem State.set_faultPin (s : State) (g : Fld) (ix : Ix) (v : Nat) : (s.set g ix v).faultPin = s.faultPin := rfl
@[simp] theorem State.set_stwQ (s : State) (g : Fld) (ix : Ix) (v : Nat) : (s.set g ix v).stwQ = s.stwQ := rfl
@[simp] theorem State.set_tlm (s : State) (g : Fld) (ix : Ix) (v : Nat) : (s.set g ix v).tlm = s.tlm := rfl
@[simp] theorem State.set_mon (s : State) (g : Fld) (ix : Ix) (v : Nat) : (s.set g ix v).mon = s.mon := rfl
@[simp] theorem State.set_heatCool (s : State) (g : Fld) (ix : Ix) (v : Nat) : (s.set g ix v).heatCool = s.heatCool := rfl
@[simp] theorem State.set_thmRun (s : State) (g : Fld) (ix : Ix) (v : Nat) : (s.set g ix v).thmRun = s.thmRun := rfl
@[simp] theorem State.set_thmAt (s : State) (g : Fld) (ix : Ix) (v : Nat) : (s.set g ix v).thmAt = s.thmAt := rfl
@[simp] theorem State.set_coolSince (s : State) (g : Fld) (ix : Ix) (v : Nat) : (s.set g ix v).coolSince = s.coolSince := rfl
@[simp] theorem State.set_praise (s : State) (g : Fld) (ix : Ix) (v : Nat) : (s.set g ix v).praise = s.praise := rfl
@[simp] theorem State.set_sdRecs (s : State) (g : Fld) (ix : Ix) (v : Nat) : (s.set g ix v).sdRecs = s.sdRecs := rfl
@[simp] theorem State.set_wts (s : State) (g : Fld) (ix : Ix) (v : Nat) : (s.set g ix v).wts = s.wts := rfl
@[simp] theorem State.set_net (s : State) (g : Fld) (ix : Ix) (v : Nat) : (s.set g ix v).net = s.net := rfl
@[simp] theorem State.set_kdl (s : State) (g : Fld) (ix : Ix) (v : Nat) : (s.set g ix v).kdl = s.kdl := rfl
@[simp] theorem State.set_wall (s : State) (g : Fld) (ix : Ix) (v : Nat) : (s.set g ix v).wall = s.wall := rfl
@[simp] theorem State.set_ageWall (s : State) (g : Fld) (ix : Ix) (v : Nat) : (s.set g ix v).ageWall = s.ageWall := rfl
@[simp] theorem State.set_flashAges (s : State) (g : Fld) (ix : Ix) (v : Nat) : (s.set g ix v).flashAges = s.flashAges := rfl
@[simp] theorem State.set_inject (s : State) (g : Fld) (ix : Ix) (v : Nat) : (s.set g ix v).inject = s.inject := rfl
@[simp] theorem State.set_events (s : State) (g : Fld) (ix : Ix) (v : Nat) : (s.set g ix v).events = s.events := rfl
@[simp] theorem State.set_eventSeq (s : State) (g : Fld) (ix : Ix) (v : Nat) : (s.set g ix v).eventSeq = s.eventSeq := rfl
@[simp] theorem State.set_eventLost (s : State) (g : Fld) (ix : Ix) (v : Nat) : (s.set g ix v).eventLost = s.eventLost := rfl
@[simp] theorem State.set_out (s : State) (g : Fld) (ix : Ix) (v : Nat) : (s.set g ix v).out = s.out := rfl

/-! ### `State.send` -/

@[simp] theorem State.send_pending (s : State) (o : Output) : (s.send o).pending = s.pending := rfl
@[simp] theorem State.send_stitch (s : State) (o : Output) : (s.send o).stitch = s.stitch := rfl
@[simp] theorem State.send_cc (s : State) (o : Output) : (s.send o).cc = s.cc := rfl
@[simp] theorem State.send_draws (s : State) (o : Output) : (s.send o).draws = s.draws := rfl
@[simp] theorem State.send_regs (s : State) (o : Output) : (s.send o).regs = s.regs := rfl
@[simp] theorem State.send_shadow (s : State) (o : Output) : (s.send o).shadow = s.shadow := rfl
@[simp] theorem State.send_ignored (s : State) (o : Output) : (s.send o).ignored = s.ignored := rfl
@[simp] theorem State.send_cycleRegs (s : State) (o : Output) : (s.send o).cycleRegs = s.cycleRegs := rfl
@[simp] theorem State.send_ignoredStore (s : State) (o : Output) : (s.send o).ignoredStore = s.ignoredStore := rfl
@[simp] theorem State.send_mem (s : State) (o : Output) : (s.send o).mem = s.mem := rfl
@[simp] theorem State.send_marks (s : State) (o : Output) : (s.send o).marks = s.marks := rfl
@[simp] theorem State.send_released (s : State) (o : Output) : (s.send o).released = s.released := rfl
@[simp] theorem State.send_samplerAt (s : State) (o : Output) : (s.send o).samplerAt = s.samplerAt := rfl
@[simp] theorem State.send_laneUse (s : State) (o : Output) : (s.send o).laneUse = s.laneUse := rfl
@[simp] theorem State.send_spadClear (s : State) (o : Output) : (s.send o).spadClear = s.spadClear := rfl
@[simp] theorem State.send_addrFaults (s : State) (o : Output) : (s.send o).addrFaults = s.addrFaults := rfl
@[simp] theorem State.send_planeQ (s : State) (o : Output) : (s.send o).planeQ = s.planeQ := rfl
@[simp] theorem State.send_tempSum (s : State) (o : Output) : (s.send o).tempSum = s.tempSum := rfl
@[simp] theorem State.send_breaks (s : State) (o : Output) : (s.send o).breaks = s.breaks := rfl
@[simp] theorem State.send_stageAt (s : State) (o : Output) : (s.send o).stageAt = s.stageAt := rfl
@[simp] theorem State.send_upsets (s : State) (o : Output) : (s.send o).upsets = s.upsets := rfl
@[simp] theorem State.send_writebacks (s : State) (o : Output) : (s.send o).writebacks = s.writebacks := rfl
@[simp] theorem State.send_cores (s : State) (o : Output) : (s.send o).cores = s.cores := rfl
@[simp] theorem State.send_engines (s : State) (o : Output) : (s.send o).engines = s.engines := rfl
@[simp] theorem State.send_halts (s : State) (o : Output) : (s.send o).halts = s.halts := rfl
@[simp] theorem State.send_chans (s : State) (o : Output) : (s.send o).chans = s.chans := rfl
@[simp] theorem State.send_flights (s : State) (o : Output) : (s.send o).flights = s.flights := rfl
@[simp] theorem State.send_xferSeq (s : State) (o : Output) : (s.send o).xferSeq = s.xferSeq := rfl
@[simp] theorem State.send_stackReads (s : State) (o : Output) : (s.send o).stackReads = s.stackReads := rfl
@[simp] theorem State.send_stackWrites (s : State) (o : Output) : (s.send o).stackWrites = s.stackWrites := rfl
@[simp] theorem State.send_lastReq (s : State) (o : Output) : (s.send o).lastReq = s.lastReq := rfl
@[simp] theorem State.send_cache (s : State) (o : Output) : (s.send o).cache = s.cache := rfl
@[simp] theorem State.send_claims (s : State) (o : Output) : (s.send o).claims = s.claims := rfl
@[simp] theorem State.send_scrubRow (s : State) (o : Output) : (s.send o).scrubRow = s.scrubRow := rfl
@[simp] theorem State.send_rwq (s : State) (o : Output) : (s.send o).rwq = s.rwq := rfl
@[simp] theorem State.send_fences (s : State) (o : Output) : (s.send o).fences = s.fences := rfl
@[simp] theorem State.send_winUpdates (s : State) (o : Output) : (s.send o).winUpdates = s.winUpdates := rfl
@[simp] theorem State.send_capDue (s : State) (o : Output) : (s.send o).capDue = s.capDue := rfl
@[simp] theorem State.send_capSeen (s : State) (o : Output) : (s.send o).capSeen = s.capSeen := rfl
@[simp] theorem State.send_clearing (s : State) (o : Output) : (s.send o).clearing = s.clearing := rfl
@[simp] theorem State.send_zeroing (s : State) (o : Output) : (s.send o).zeroing = s.zeroing := rfl
@[simp] theorem State.send_msgs (s : State) (o : Output) : (s.send o).msgs = s.msgs := rfl
@[simp] theorem State.send_syncQ (s : State) (o : Output) : (s.send o).syncQ = s.syncQ := rfl
@[simp] theorem State.send_rerouted (s : State) (o : Output) : (s.send o).rerouted = s.rerouted := rfl
@[simp] theorem State.send_reported (s : State) (o : Output) : (s.send o).reported = s.reported := rfl
@[simp] theorem State.send_tack (s : State) (o : Output) : (s.send o).tack = s.tack := rfl
@[simp] theorem State.send_cinchLatch (s : State) (o : Output) : (s.send o).cinchLatch = s.cinchLatch := rfl
@[simp] theorem State.send_cinchWait (s : State) (o : Output) : (s.send o).cinchWait = s.cinchWait := rfl
@[simp] theorem State.send_precOut (s : State) (o : Output) : (s.send o).precOut = s.precOut := rfl
@[simp] theorem State.send_precIn (s : State) (o : Output) : (s.send o).precIn = s.precIn := rfl
@[simp] theorem State.send_precPrev (s : State) (o : Output) : (s.send o).precPrev = s.precPrev := rfl
@[simp] theorem State.send_running (s : State) (o : Output) : (s.send o).running = s.running := rfl
@[simp] theorem State.send_stepReqs (s : State) (o : Output) : (s.send o).stepReqs = s.stepReqs := rfl
@[simp] theorem State.send_standby (s : State) (o : Output) : (s.send o).standby = s.standby := rfl
@[simp] theorem State.send_pllLock (s : State) (o : Output) : (s.send o).pllLock = s.pllLock := rfl
@[simp] theorem State.send_committed (s : State) (o : Output) : (s.send o).committed = s.committed := rfl
@[simp] theorem State.send_dying (s : State) (o : Output) : (s.send o).dying = s.dying := rfl
@[simp] theorem State.send_homeList (s : State) (o : Output) : (s.send o).homeList = s.homeList := rfl
@[simp] theorem State.send_kvCmds (s : State) (o : Output) : (s.send o).kvCmds = s.kvCmds := rfl
@[simp] theorem State.send_kvJobs (s : State) (o : Output) : (s.send o).kvJobs = s.kvJobs := rfl
@[simp] theorem State.send_kvSeq (s : State) (o : Output) : (s.send o).kvSeq = s.kvSeq := rfl
@[simp] theorem State.send_kvLast (s : State) (o : Output) : (s.send o).kvLast = s.kvLast := rfl
@[simp] theorem State.send_passes (s : State) (o : Output) : (s.send o).passes = s.passes := rfl
@[simp] theorem State.send_passSeq (s : State) (o : Output) : (s.send o).passSeq = s.passSeq := rfl
@[simp] theorem State.send_ctxs (s : State) (o : Output) : (s.send o).ctxs = s.ctxs := rfl
@[simp] theorem State.send_promptCopies (s : State) (o : Output) : (s.send o).promptCopies = s.promptCopies := rfl
@[simp] theorem State.send_descAt (s : State) (o : Output) : (s.send o).descAt = s.descAt := rfl
@[simp] theorem State.send_accepted (s : State) (o : Output) : (s.send o).accepted = s.accepted := rfl
@[simp] theorem State.send_acceptedAct (s : State) (o : Output) : (s.send o).acceptedAct = s.acceptedAct := rfl
@[simp] theorem State.send_brokeWhy (s : State) (o : Output) : (s.send o).brokeWhy = s.brokeWhy := rfl
@[simp] theorem State.send_promoEnd (s : State) (o : Output) : (s.send o).promoEnd = s.promoEnd := rfl
@[simp] theorem State.send_nextBook (s : State) (o : Output) : (s.send o).nextBook = s.nextBook := rfl
@[simp] theorem State.send_pauseUntil (s : State) (o : Output) : (s.send o).pauseUntil = s.pauseUntil := rfl
@[simp] theorem State.send_reqQ (s : State) (o : Output) : (s.send o).reqQ = s.reqQ := rfl
@[simp] theorem State.send_recs (s : State) (o : Output) : (s.send o).recs = s.recs := rfl
@[simp] theorem State.send_ringSig (s : State) (o : Output) : (s.send o).ringSig = s.ringSig := rfl
@[simp] theorem State.send_stalled (s : State) (o : Output) : (s.send o).stalled = s.stalled := rfl
@[simp] theorem State.send_latWins (s : State) (o : Output) : (s.send o).latWins = s.latWins := rfl
@[simp] theorem State.send_servHalt (s : State) (o : Output) : (s.send o).servHalt = s.servHalt := rfl
@[simp] theorem State.send_swaps (s : State) (o : Output) : (s.send o).swaps = s.swaps := rfl
@[simp] theorem State.send_keys (s : State) (o : Output) : (s.send o).keys = s.keys := rfl
@[simp] theorem State.send_active (s : State) (o : Output) : (s.send o).active = s.active := rfl
@[simp] theorem State.send_shadowHrn (s : State) (o : Output) : (s.send o).shadowHrn = s.shadowHrn := rfl
@[simp] theorem State.send_report (s : State) (o : Output) : (s.send o).report = s.report := rfl
@[simp] theorem State.send_actWrites (s : State) (o : Output) : (s.send o).actWrites = s.actWrites := rfl
@[simp] theorem State.send_sbufClear (s : State) (o : Output) : (s.send o).sbufClear = s.sbufClear := rfl
@[simp] theorem State.send_precHeld (s : State) (o : Output) : (s.send o).precHeld = s.precHeld := rfl
@[simp] theorem State.send_areas (s : State) (o : Output) : (s.send o).areas = s.areas := rfl
@[simp] theorem State.send_cleared (s : State) (o : Output) : (s.send o).cleared = s.cleared := rfl
@[simp] theorem State.send_mapOut (s : State) (o : Output) : (s.send o).mapOut = s.mapOut := rfl
@[simp] theorem State.send_mustClear (s : State) (o : Output) : (s.send o).mustClear = s.mustClear := rfl
@[simp] theorem State.send_seqs (s : State) (o : Output) : (s.send o).seqs = s.seqs := rfl
@[simp] theorem State.send_wins (s : State) (o : Output) : (s.send o).wins = s.wins := rfl
@[simp] theorem State.send_transitI (s : State) (o : Output) : (s.send o).transitI = s.transitI := rfl
@[simp] theorem State.send_lastWin (s : State) (o : Output) : (s.send o).lastWin = s.lastWin := rfl
@[simp] theorem State.send_winStep (s : State) (o : Output) : (s.send o).winStep = s.winStep := rfl
@[simp] theorem State.send_lastStep (s : State) (o : Output) : (s.send o).lastStep = s.lastStep := rfl
@[simp] theorem State.send_manyRun (s : State) (o : Output) : (s.send o).manyRun = s.manyRun := rfl
@[simp] theorem State.send_govSince (s : State) (o : Output) : (s.send o).govSince = s.govSince := rfl
@[simp] theorem State.send_billets (s : State) (o : Output) : (s.send o).billets = s.billets := rfl
@[simp] theorem State.send_flashWear (s : State) (o : Output) : (s.send o).flashWear = s.flashWear := rfl
@[simp] theorem State.send_embers (s : State) (o : Output) : (s.send o).embers = s.embers := rfl
@[simp] theorem State.send_ident (s : State) (o : Output) : (s.send o).ident = s.ident := rfl
@[simp] theorem State.send_shut (s : State) (o : Output) : (s.send o).shut = s.shut := rfl
@[simp] theorem State.send_faultPin (s : State) (o : Output) : (s.send o).faultPin = s.faultPin := rfl
@[simp] theorem State.send_stwQ (s : State) (o : Output) : (s.send o).stwQ = s.stwQ := rfl
@[simp] theorem State.send_tlm (s : State) (o : Output) : (s.send o).tlm = s.tlm := rfl
@[simp] theorem State.send_mon (s : State) (o : Output) : (s.send o).mon = s.mon := rfl
@[simp] theorem State.send_heatCool (s : State) (o : Output) : (s.send o).heatCool = s.heatCool := rfl
@[simp] theorem State.send_thmRun (s : State) (o : Output) : (s.send o).thmRun = s.thmRun := rfl
@[simp] theorem State.send_thmAt (s : State) (o : Output) : (s.send o).thmAt = s.thmAt := rfl
@[simp] theorem State.send_coolSince (s : State) (o : Output) : (s.send o).coolSince = s.coolSince := rfl
@[simp] theorem State.send_praise (s : State) (o : Output) : (s.send o).praise = s.praise := rfl
@[simp] theorem State.send_sdRecs (s : State) (o : Output) : (s.send o).sdRecs = s.sdRecs := rfl
@[simp] theorem State.send_wts (s : State) (o : Output) : (s.send o).wts = s.wts := rfl
@[simp] theorem State.send_net (s : State) (o : Output) : (s.send o).net = s.net := rfl
@[simp] theorem State.send_kdl (s : State) (o : Output) : (s.send o).kdl = s.kdl := rfl
@[simp] theorem State.send_wall (s : State) (o : Output) : (s.send o).wall = s.wall := rfl
@[simp] theorem State.send_ageWall (s : State) (o : Output) : (s.send o).ageWall = s.ageWall := rfl
@[simp] theorem State.send_flashAges (s : State) (o : Output) : (s.send o).flashAges = s.flashAges := rfl
@[simp] theorem State.send_inject (s : State) (o : Output) : (s.send o).inject = s.inject := rfl
@[simp] theorem State.send_events (s : State) (o : Output) : (s.send o).events = s.events := rfl
@[simp] theorem State.send_eventSeq (s : State) (o : Output) : (s.send o).eventSeq = s.eventSeq := rfl
@[simp] theorem State.send_eventLost (s : State) (o : Output) : (s.send o).eventLost = s.eventLost := rfl

/-! ### `State.setCore` -/

@[simp] theorem State.setCore_pending (s : State) (c : CoreId) (k : Core) : (s.setCore c k).pending = s.pending := rfl
@[simp] theorem State.setCore_stitch (s : State) (c : CoreId) (k : Core) : (s.setCore c k).stitch = s.stitch := rfl
@[simp] theorem State.setCore_cc (s : State) (c : CoreId) (k : Core) : (s.setCore c k).cc = s.cc := rfl
@[simp] theorem State.setCore_draws (s : State) (c : CoreId) (k : Core) : (s.setCore c k).draws = s.draws := rfl
@[simp] theorem State.setCore_regs (s : State) (c : CoreId) (k : Core) : (s.setCore c k).regs = s.regs := rfl
@[simp] theorem State.setCore_shadow (s : State) (c : CoreId) (k : Core) : (s.setCore c k).shadow = s.shadow := rfl
@[simp] theorem State.setCore_ignored (s : State) (c : CoreId) (k : Core) : (s.setCore c k).ignored = s.ignored := rfl
@[simp] theorem State.setCore_cycleRegs (s : State) (c : CoreId) (k : Core) : (s.setCore c k).cycleRegs = s.cycleRegs := rfl
@[simp] theorem State.setCore_ignoredStore (s : State) (c : CoreId) (k : Core) : (s.setCore c k).ignoredStore = s.ignoredStore := rfl
@[simp] theorem State.setCore_mem (s : State) (c : CoreId) (k : Core) : (s.setCore c k).mem = s.mem := rfl
@[simp] theorem State.setCore_marks (s : State) (c : CoreId) (k : Core) : (s.setCore c k).marks = s.marks := rfl
@[simp] theorem State.setCore_released (s : State) (c : CoreId) (k : Core) : (s.setCore c k).released = s.released := rfl
@[simp] theorem State.setCore_samplerAt (s : State) (c : CoreId) (k : Core) : (s.setCore c k).samplerAt = s.samplerAt := rfl
@[simp] theorem State.setCore_laneUse (s : State) (c : CoreId) (k : Core) : (s.setCore c k).laneUse = s.laneUse := rfl
@[simp] theorem State.setCore_spadClear (s : State) (c : CoreId) (k : Core) : (s.setCore c k).spadClear = s.spadClear := rfl
@[simp] theorem State.setCore_addrFaults (s : State) (c : CoreId) (k : Core) : (s.setCore c k).addrFaults = s.addrFaults := rfl
@[simp] theorem State.setCore_planeQ (s : State) (c : CoreId) (k : Core) : (s.setCore c k).planeQ = s.planeQ := rfl
@[simp] theorem State.setCore_tempSum (s : State) (c : CoreId) (k : Core) : (s.setCore c k).tempSum = s.tempSum := rfl
@[simp] theorem State.setCore_breaks (s : State) (c : CoreId) (k : Core) : (s.setCore c k).breaks = s.breaks := rfl
@[simp] theorem State.setCore_stageAt (s : State) (c : CoreId) (k : Core) : (s.setCore c k).stageAt = s.stageAt := rfl
@[simp] theorem State.setCore_upsets (s : State) (c : CoreId) (k : Core) : (s.setCore c k).upsets = s.upsets := rfl
@[simp] theorem State.setCore_writebacks (s : State) (c : CoreId) (k : Core) : (s.setCore c k).writebacks = s.writebacks := rfl
@[simp] theorem State.setCore_engines (s : State) (c : CoreId) (k : Core) : (s.setCore c k).engines = s.engines := rfl
@[simp] theorem State.setCore_halts (s : State) (c : CoreId) (k : Core) : (s.setCore c k).halts = s.halts := rfl
@[simp] theorem State.setCore_chans (s : State) (c : CoreId) (k : Core) : (s.setCore c k).chans = s.chans := rfl
@[simp] theorem State.setCore_flights (s : State) (c : CoreId) (k : Core) : (s.setCore c k).flights = s.flights := rfl
@[simp] theorem State.setCore_xferSeq (s : State) (c : CoreId) (k : Core) : (s.setCore c k).xferSeq = s.xferSeq := rfl
@[simp] theorem State.setCore_stackReads (s : State) (c : CoreId) (k : Core) : (s.setCore c k).stackReads = s.stackReads := rfl
@[simp] theorem State.setCore_stackWrites (s : State) (c : CoreId) (k : Core) : (s.setCore c k).stackWrites = s.stackWrites := rfl
@[simp] theorem State.setCore_lastReq (s : State) (c : CoreId) (k : Core) : (s.setCore c k).lastReq = s.lastReq := rfl
@[simp] theorem State.setCore_cache (s : State) (c : CoreId) (k : Core) : (s.setCore c k).cache = s.cache := rfl
@[simp] theorem State.setCore_claims (s : State) (c : CoreId) (k : Core) : (s.setCore c k).claims = s.claims := rfl
@[simp] theorem State.setCore_scrubRow (s : State) (c : CoreId) (k : Core) : (s.setCore c k).scrubRow = s.scrubRow := rfl
@[simp] theorem State.setCore_rwq (s : State) (c : CoreId) (k : Core) : (s.setCore c k).rwq = s.rwq := rfl
@[simp] theorem State.setCore_fences (s : State) (c : CoreId) (k : Core) : (s.setCore c k).fences = s.fences := rfl
@[simp] theorem State.setCore_winUpdates (s : State) (c : CoreId) (k : Core) : (s.setCore c k).winUpdates = s.winUpdates := rfl
@[simp] theorem State.setCore_capDue (s : State) (c : CoreId) (k : Core) : (s.setCore c k).capDue = s.capDue := rfl
@[simp] theorem State.setCore_capSeen (s : State) (c : CoreId) (k : Core) : (s.setCore c k).capSeen = s.capSeen := rfl
@[simp] theorem State.setCore_clearing (s : State) (c : CoreId) (k : Core) : (s.setCore c k).clearing = s.clearing := rfl
@[simp] theorem State.setCore_zeroing (s : State) (c : CoreId) (k : Core) : (s.setCore c k).zeroing = s.zeroing := rfl
@[simp] theorem State.setCore_msgs (s : State) (c : CoreId) (k : Core) : (s.setCore c k).msgs = s.msgs := rfl
@[simp] theorem State.setCore_syncQ (s : State) (c : CoreId) (k : Core) : (s.setCore c k).syncQ = s.syncQ := rfl
@[simp] theorem State.setCore_rerouted (s : State) (c : CoreId) (k : Core) : (s.setCore c k).rerouted = s.rerouted := rfl
@[simp] theorem State.setCore_reported (s : State) (c : CoreId) (k : Core) : (s.setCore c k).reported = s.reported := rfl
@[simp] theorem State.setCore_tack (s : State) (c : CoreId) (k : Core) : (s.setCore c k).tack = s.tack := rfl
@[simp] theorem State.setCore_cinchLatch (s : State) (c : CoreId) (k : Core) : (s.setCore c k).cinchLatch = s.cinchLatch := rfl
@[simp] theorem State.setCore_cinchWait (s : State) (c : CoreId) (k : Core) : (s.setCore c k).cinchWait = s.cinchWait := rfl
@[simp] theorem State.setCore_precOut (s : State) (c : CoreId) (k : Core) : (s.setCore c k).precOut = s.precOut := rfl
@[simp] theorem State.setCore_precIn (s : State) (c : CoreId) (k : Core) : (s.setCore c k).precIn = s.precIn := rfl
@[simp] theorem State.setCore_precPrev (s : State) (c : CoreId) (k : Core) : (s.setCore c k).precPrev = s.precPrev := rfl
@[simp] theorem State.setCore_running (s : State) (c : CoreId) (k : Core) : (s.setCore c k).running = s.running := rfl
@[simp] theorem State.setCore_stepReqs (s : State) (c : CoreId) (k : Core) : (s.setCore c k).stepReqs = s.stepReqs := rfl
@[simp] theorem State.setCore_standby (s : State) (c : CoreId) (k : Core) : (s.setCore c k).standby = s.standby := rfl
@[simp] theorem State.setCore_pllLock (s : State) (c : CoreId) (k : Core) : (s.setCore c k).pllLock = s.pllLock := rfl
@[simp] theorem State.setCore_committed (s : State) (c : CoreId) (k : Core) : (s.setCore c k).committed = s.committed := rfl
@[simp] theorem State.setCore_dying (s : State) (c : CoreId) (k : Core) : (s.setCore c k).dying = s.dying := rfl
@[simp] theorem State.setCore_homeList (s : State) (c : CoreId) (k : Core) : (s.setCore c k).homeList = s.homeList := rfl
@[simp] theorem State.setCore_kvCmds (s : State) (c : CoreId) (k : Core) : (s.setCore c k).kvCmds = s.kvCmds := rfl
@[simp] theorem State.setCore_kvJobs (s : State) (c : CoreId) (k : Core) : (s.setCore c k).kvJobs = s.kvJobs := rfl
@[simp] theorem State.setCore_kvSeq (s : State) (c : CoreId) (k : Core) : (s.setCore c k).kvSeq = s.kvSeq := rfl
@[simp] theorem State.setCore_kvLast (s : State) (c : CoreId) (k : Core) : (s.setCore c k).kvLast = s.kvLast := rfl
@[simp] theorem State.setCore_passes (s : State) (c : CoreId) (k : Core) : (s.setCore c k).passes = s.passes := rfl
@[simp] theorem State.setCore_passSeq (s : State) (c : CoreId) (k : Core) : (s.setCore c k).passSeq = s.passSeq := rfl
@[simp] theorem State.setCore_ctxs (s : State) (c : CoreId) (k : Core) : (s.setCore c k).ctxs = s.ctxs := rfl
@[simp] theorem State.setCore_promptCopies (s : State) (c : CoreId) (k : Core) : (s.setCore c k).promptCopies = s.promptCopies := rfl
@[simp] theorem State.setCore_descAt (s : State) (c : CoreId) (k : Core) : (s.setCore c k).descAt = s.descAt := rfl
@[simp] theorem State.setCore_accepted (s : State) (c : CoreId) (k : Core) : (s.setCore c k).accepted = s.accepted := rfl
@[simp] theorem State.setCore_acceptedAct (s : State) (c : CoreId) (k : Core) : (s.setCore c k).acceptedAct = s.acceptedAct := rfl
@[simp] theorem State.setCore_brokeWhy (s : State) (c : CoreId) (k : Core) : (s.setCore c k).brokeWhy = s.brokeWhy := rfl
@[simp] theorem State.setCore_promoEnd (s : State) (c : CoreId) (k : Core) : (s.setCore c k).promoEnd = s.promoEnd := rfl
@[simp] theorem State.setCore_nextBook (s : State) (c : CoreId) (k : Core) : (s.setCore c k).nextBook = s.nextBook := rfl
@[simp] theorem State.setCore_pauseUntil (s : State) (c : CoreId) (k : Core) : (s.setCore c k).pauseUntil = s.pauseUntil := rfl
@[simp] theorem State.setCore_reqQ (s : State) (c : CoreId) (k : Core) : (s.setCore c k).reqQ = s.reqQ := rfl
@[simp] theorem State.setCore_recs (s : State) (c : CoreId) (k : Core) : (s.setCore c k).recs = s.recs := rfl
@[simp] theorem State.setCore_ringSig (s : State) (c : CoreId) (k : Core) : (s.setCore c k).ringSig = s.ringSig := rfl
@[simp] theorem State.setCore_stalled (s : State) (c : CoreId) (k : Core) : (s.setCore c k).stalled = s.stalled := rfl
@[simp] theorem State.setCore_latWins (s : State) (c : CoreId) (k : Core) : (s.setCore c k).latWins = s.latWins := rfl
@[simp] theorem State.setCore_servHalt (s : State) (c : CoreId) (k : Core) : (s.setCore c k).servHalt = s.servHalt := rfl
@[simp] theorem State.setCore_swaps (s : State) (c : CoreId) (k : Core) : (s.setCore c k).swaps = s.swaps := rfl
@[simp] theorem State.setCore_keys (s : State) (c : CoreId) (k : Core) : (s.setCore c k).keys = s.keys := rfl
@[simp] theorem State.setCore_active (s : State) (c : CoreId) (k : Core) : (s.setCore c k).active = s.active := rfl
@[simp] theorem State.setCore_shadowHrn (s : State) (c : CoreId) (k : Core) : (s.setCore c k).shadowHrn = s.shadowHrn := rfl
@[simp] theorem State.setCore_report (s : State) (c : CoreId) (k : Core) : (s.setCore c k).report = s.report := rfl
@[simp] theorem State.setCore_actWrites (s : State) (c : CoreId) (k : Core) : (s.setCore c k).actWrites = s.actWrites := rfl
@[simp] theorem State.setCore_sbufClear (s : State) (c : CoreId) (k : Core) : (s.setCore c k).sbufClear = s.sbufClear := rfl
@[simp] theorem State.setCore_precHeld (s : State) (c : CoreId) (k : Core) : (s.setCore c k).precHeld = s.precHeld := rfl
@[simp] theorem State.setCore_areas (s : State) (c : CoreId) (k : Core) : (s.setCore c k).areas = s.areas := rfl
@[simp] theorem State.setCore_cleared (s : State) (c : CoreId) (k : Core) : (s.setCore c k).cleared = s.cleared := rfl
@[simp] theorem State.setCore_mapOut (s : State) (c : CoreId) (k : Core) : (s.setCore c k).mapOut = s.mapOut := rfl
@[simp] theorem State.setCore_mustClear (s : State) (c : CoreId) (k : Core) : (s.setCore c k).mustClear = s.mustClear := rfl
@[simp] theorem State.setCore_seqs (s : State) (c : CoreId) (k : Core) : (s.setCore c k).seqs = s.seqs := rfl
@[simp] theorem State.setCore_wins (s : State) (c : CoreId) (k : Core) : (s.setCore c k).wins = s.wins := rfl
@[simp] theorem State.setCore_transitI (s : State) (c : CoreId) (k : Core) : (s.setCore c k).transitI = s.transitI := rfl
@[simp] theorem State.setCore_lastWin (s : State) (c : CoreId) (k : Core) : (s.setCore c k).lastWin = s.lastWin := rfl
@[simp] theorem State.setCore_winStep (s : State) (c : CoreId) (k : Core) : (s.setCore c k).winStep = s.winStep := rfl
@[simp] theorem State.setCore_lastStep (s : State) (c : CoreId) (k : Core) : (s.setCore c k).lastStep = s.lastStep := rfl
@[simp] theorem State.setCore_manyRun (s : State) (c : CoreId) (k : Core) : (s.setCore c k).manyRun = s.manyRun := rfl
@[simp] theorem State.setCore_govSince (s : State) (c : CoreId) (k : Core) : (s.setCore c k).govSince = s.govSince := rfl
@[simp] theorem State.setCore_billets (s : State) (c : CoreId) (k : Core) : (s.setCore c k).billets = s.billets := rfl
@[simp] theorem State.setCore_flashWear (s : State) (c : CoreId) (k : Core) : (s.setCore c k).flashWear = s.flashWear := rfl
@[simp] theorem State.setCore_embers (s : State) (c : CoreId) (k : Core) : (s.setCore c k).embers = s.embers := rfl
@[simp] theorem State.setCore_ident (s : State) (c : CoreId) (k : Core) : (s.setCore c k).ident = s.ident := rfl
@[simp] theorem State.setCore_shut (s : State) (c : CoreId) (k : Core) : (s.setCore c k).shut = s.shut := rfl
@[simp] theorem State.setCore_faultPin (s : State) (c : CoreId) (k : Core) : (s.setCore c k).faultPin = s.faultPin := rfl
@[simp] theorem State.setCore_stwQ (s : State) (c : CoreId) (k : Core) : (s.setCore c k).stwQ = s.stwQ := rfl
@[simp] theorem State.setCore_tlm (s : State) (c : CoreId) (k : Core) : (s.setCore c k).tlm = s.tlm := rfl
@[simp] theorem State.setCore_mon (s : State) (c : CoreId) (k : Core) : (s.setCore c k).mon = s.mon := rfl
@[simp] theorem State.setCore_heatCool (s : State) (c : CoreId) (k : Core) : (s.setCore c k).heatCool = s.heatCool := rfl
@[simp] theorem State.setCore_thmRun (s : State) (c : CoreId) (k : Core) : (s.setCore c k).thmRun = s.thmRun := rfl
@[simp] theorem State.setCore_thmAt (s : State) (c : CoreId) (k : Core) : (s.setCore c k).thmAt = s.thmAt := rfl
@[simp] theorem State.setCore_coolSince (s : State) (c : CoreId) (k : Core) : (s.setCore c k).coolSince = s.coolSince := rfl
@[simp] theorem State.setCore_praise (s : State) (c : CoreId) (k : Core) : (s.setCore c k).praise = s.praise := rfl
@[simp] theorem State.setCore_sdRecs (s : State) (c : CoreId) (k : Core) : (s.setCore c k).sdRecs = s.sdRecs := rfl
@[simp] theorem State.setCore_wts (s : State) (c : CoreId) (k : Core) : (s.setCore c k).wts = s.wts := rfl
@[simp] theorem State.setCore_net (s : State) (c : CoreId) (k : Core) : (s.setCore c k).net = s.net := rfl
@[simp] theorem State.setCore_kdl (s : State) (c : CoreId) (k : Core) : (s.setCore c k).kdl = s.kdl := rfl
@[simp] theorem State.setCore_wall (s : State) (c : CoreId) (k : Core) : (s.setCore c k).wall = s.wall := rfl
@[simp] theorem State.setCore_ageWall (s : State) (c : CoreId) (k : Core) : (s.setCore c k).ageWall = s.ageWall := rfl
@[simp] theorem State.setCore_flashAges (s : State) (c : CoreId) (k : Core) : (s.setCore c k).flashAges = s.flashAges := rfl
@[simp] theorem State.setCore_inject (s : State) (c : CoreId) (k : Core) : (s.setCore c k).inject = s.inject := rfl
@[simp] theorem State.setCore_events (s : State) (c : CoreId) (k : Core) : (s.setCore c k).events = s.events := rfl
@[simp] theorem State.setCore_eventSeq (s : State) (c : CoreId) (k : Core) : (s.setCore c k).eventSeq = s.eventSeq := rfl
@[simp] theorem State.setCore_eventLost (s : State) (c : CoreId) (k : Core) : (s.setCore c k).eventLost = s.eventLost := rfl
@[simp] theorem State.setCore_out (s : State) (c : CoreId) (k : Core) : (s.setCore c k).out = s.out := rfl

/-! ### `State.setEngine` -/

@[simp] theorem State.setEngine_pending (s : State) (a : ArrId) (e : Engine) : (s.setEngine a e).pending = s.pending := rfl
@[simp] theorem State.setEngine_stitch (s : State) (a : ArrId) (e : Engine) : (s.setEngine a e).stitch = s.stitch := rfl
@[simp] theorem State.setEngine_cc (s : State) (a : ArrId) (e : Engine) : (s.setEngine a e).cc = s.cc := rfl
@[simp] theorem State.setEngine_draws (s : State) (a : ArrId) (e : Engine) : (s.setEngine a e).draws = s.draws := rfl
@[simp] theorem State.setEngine_regs (s : State) (a : ArrId) (e : Engine) : (s.setEngine a e).regs = s.regs := rfl
@[simp] theorem State.setEngine_shadow (s : State) (a : ArrId) (e : Engine) : (s.setEngine a e).shadow = s.shadow := rfl
@[simp] theorem State.setEngine_ignored (s : State) (a : ArrId) (e : Engine) : (s.setEngine a e).ignored = s.ignored := rfl
@[simp] theorem State.setEngine_cycleRegs (s : State) (a : ArrId) (e : Engine) : (s.setEngine a e).cycleRegs = s.cycleRegs := rfl
@[simp] theorem State.setEngine_ignoredStore (s : State) (a : ArrId) (e : Engine) : (s.setEngine a e).ignoredStore = s.ignoredStore := rfl
@[simp] theorem State.setEngine_mem (s : State) (a : ArrId) (e : Engine) : (s.setEngine a e).mem = s.mem := rfl
@[simp] theorem State.setEngine_marks (s : State) (a : ArrId) (e : Engine) : (s.setEngine a e).marks = s.marks := rfl
@[simp] theorem State.setEngine_released (s : State) (a : ArrId) (e : Engine) : (s.setEngine a e).released = s.released := rfl
@[simp] theorem State.setEngine_samplerAt (s : State) (a : ArrId) (e : Engine) : (s.setEngine a e).samplerAt = s.samplerAt := rfl
@[simp] theorem State.setEngine_laneUse (s : State) (a : ArrId) (e : Engine) : (s.setEngine a e).laneUse = s.laneUse := rfl
@[simp] theorem State.setEngine_spadClear (s : State) (a : ArrId) (e : Engine) : (s.setEngine a e).spadClear = s.spadClear := rfl
@[simp] theorem State.setEngine_addrFaults (s : State) (a : ArrId) (e : Engine) : (s.setEngine a e).addrFaults = s.addrFaults := rfl
@[simp] theorem State.setEngine_planeQ (s : State) (a : ArrId) (e : Engine) : (s.setEngine a e).planeQ = s.planeQ := rfl
@[simp] theorem State.setEngine_tempSum (s : State) (a : ArrId) (e : Engine) : (s.setEngine a e).tempSum = s.tempSum := rfl
@[simp] theorem State.setEngine_breaks (s : State) (a : ArrId) (e : Engine) : (s.setEngine a e).breaks = s.breaks := rfl
@[simp] theorem State.setEngine_stageAt (s : State) (a : ArrId) (e : Engine) : (s.setEngine a e).stageAt = s.stageAt := rfl
@[simp] theorem State.setEngine_upsets (s : State) (a : ArrId) (e : Engine) : (s.setEngine a e).upsets = s.upsets := rfl
@[simp] theorem State.setEngine_writebacks (s : State) (a : ArrId) (e : Engine) : (s.setEngine a e).writebacks = s.writebacks := rfl
@[simp] theorem State.setEngine_cores (s : State) (a : ArrId) (e : Engine) : (s.setEngine a e).cores = s.cores := rfl
@[simp] theorem State.setEngine_halts (s : State) (a : ArrId) (e : Engine) : (s.setEngine a e).halts = s.halts := rfl
@[simp] theorem State.setEngine_chans (s : State) (a : ArrId) (e : Engine) : (s.setEngine a e).chans = s.chans := rfl
@[simp] theorem State.setEngine_flights (s : State) (a : ArrId) (e : Engine) : (s.setEngine a e).flights = s.flights := rfl
@[simp] theorem State.setEngine_xferSeq (s : State) (a : ArrId) (e : Engine) : (s.setEngine a e).xferSeq = s.xferSeq := rfl
@[simp] theorem State.setEngine_stackReads (s : State) (a : ArrId) (e : Engine) : (s.setEngine a e).stackReads = s.stackReads := rfl
@[simp] theorem State.setEngine_stackWrites (s : State) (a : ArrId) (e : Engine) : (s.setEngine a e).stackWrites = s.stackWrites := rfl
@[simp] theorem State.setEngine_lastReq (s : State) (a : ArrId) (e : Engine) : (s.setEngine a e).lastReq = s.lastReq := rfl
@[simp] theorem State.setEngine_cache (s : State) (a : ArrId) (e : Engine) : (s.setEngine a e).cache = s.cache := rfl
@[simp] theorem State.setEngine_claims (s : State) (a : ArrId) (e : Engine) : (s.setEngine a e).claims = s.claims := rfl
@[simp] theorem State.setEngine_scrubRow (s : State) (a : ArrId) (e : Engine) : (s.setEngine a e).scrubRow = s.scrubRow := rfl
@[simp] theorem State.setEngine_rwq (s : State) (a : ArrId) (e : Engine) : (s.setEngine a e).rwq = s.rwq := rfl
@[simp] theorem State.setEngine_fences (s : State) (a : ArrId) (e : Engine) : (s.setEngine a e).fences = s.fences := rfl
@[simp] theorem State.setEngine_winUpdates (s : State) (a : ArrId) (e : Engine) : (s.setEngine a e).winUpdates = s.winUpdates := rfl
@[simp] theorem State.setEngine_capDue (s : State) (a : ArrId) (e : Engine) : (s.setEngine a e).capDue = s.capDue := rfl
@[simp] theorem State.setEngine_capSeen (s : State) (a : ArrId) (e : Engine) : (s.setEngine a e).capSeen = s.capSeen := rfl
@[simp] theorem State.setEngine_clearing (s : State) (a : ArrId) (e : Engine) : (s.setEngine a e).clearing = s.clearing := rfl
@[simp] theorem State.setEngine_zeroing (s : State) (a : ArrId) (e : Engine) : (s.setEngine a e).zeroing = s.zeroing := rfl
@[simp] theorem State.setEngine_msgs (s : State) (a : ArrId) (e : Engine) : (s.setEngine a e).msgs = s.msgs := rfl
@[simp] theorem State.setEngine_syncQ (s : State) (a : ArrId) (e : Engine) : (s.setEngine a e).syncQ = s.syncQ := rfl
@[simp] theorem State.setEngine_rerouted (s : State) (a : ArrId) (e : Engine) : (s.setEngine a e).rerouted = s.rerouted := rfl
@[simp] theorem State.setEngine_reported (s : State) (a : ArrId) (e : Engine) : (s.setEngine a e).reported = s.reported := rfl
@[simp] theorem State.setEngine_tack (s : State) (a : ArrId) (e : Engine) : (s.setEngine a e).tack = s.tack := rfl
@[simp] theorem State.setEngine_cinchLatch (s : State) (a : ArrId) (e : Engine) : (s.setEngine a e).cinchLatch = s.cinchLatch := rfl
@[simp] theorem State.setEngine_cinchWait (s : State) (a : ArrId) (e : Engine) : (s.setEngine a e).cinchWait = s.cinchWait := rfl
@[simp] theorem State.setEngine_precOut (s : State) (a : ArrId) (e : Engine) : (s.setEngine a e).precOut = s.precOut := rfl
@[simp] theorem State.setEngine_precIn (s : State) (a : ArrId) (e : Engine) : (s.setEngine a e).precIn = s.precIn := rfl
@[simp] theorem State.setEngine_precPrev (s : State) (a : ArrId) (e : Engine) : (s.setEngine a e).precPrev = s.precPrev := rfl
@[simp] theorem State.setEngine_running (s : State) (a : ArrId) (e : Engine) : (s.setEngine a e).running = s.running := rfl
@[simp] theorem State.setEngine_stepReqs (s : State) (a : ArrId) (e : Engine) : (s.setEngine a e).stepReqs = s.stepReqs := rfl
@[simp] theorem State.setEngine_standby (s : State) (a : ArrId) (e : Engine) : (s.setEngine a e).standby = s.standby := rfl
@[simp] theorem State.setEngine_pllLock (s : State) (a : ArrId) (e : Engine) : (s.setEngine a e).pllLock = s.pllLock := rfl
@[simp] theorem State.setEngine_committed (s : State) (a : ArrId) (e : Engine) : (s.setEngine a e).committed = s.committed := rfl
@[simp] theorem State.setEngine_dying (s : State) (a : ArrId) (e : Engine) : (s.setEngine a e).dying = s.dying := rfl
@[simp] theorem State.setEngine_homeList (s : State) (a : ArrId) (e : Engine) : (s.setEngine a e).homeList = s.homeList := rfl
@[simp] theorem State.setEngine_kvCmds (s : State) (a : ArrId) (e : Engine) : (s.setEngine a e).kvCmds = s.kvCmds := rfl
@[simp] theorem State.setEngine_kvJobs (s : State) (a : ArrId) (e : Engine) : (s.setEngine a e).kvJobs = s.kvJobs := rfl
@[simp] theorem State.setEngine_kvSeq (s : State) (a : ArrId) (e : Engine) : (s.setEngine a e).kvSeq = s.kvSeq := rfl
@[simp] theorem State.setEngine_kvLast (s : State) (a : ArrId) (e : Engine) : (s.setEngine a e).kvLast = s.kvLast := rfl
@[simp] theorem State.setEngine_passes (s : State) (a : ArrId) (e : Engine) : (s.setEngine a e).passes = s.passes := rfl
@[simp] theorem State.setEngine_passSeq (s : State) (a : ArrId) (e : Engine) : (s.setEngine a e).passSeq = s.passSeq := rfl
@[simp] theorem State.setEngine_ctxs (s : State) (a : ArrId) (e : Engine) : (s.setEngine a e).ctxs = s.ctxs := rfl
@[simp] theorem State.setEngine_promptCopies (s : State) (a : ArrId) (e : Engine) : (s.setEngine a e).promptCopies = s.promptCopies := rfl
@[simp] theorem State.setEngine_descAt (s : State) (a : ArrId) (e : Engine) : (s.setEngine a e).descAt = s.descAt := rfl
@[simp] theorem State.setEngine_accepted (s : State) (a : ArrId) (e : Engine) : (s.setEngine a e).accepted = s.accepted := rfl
@[simp] theorem State.setEngine_acceptedAct (s : State) (a : ArrId) (e : Engine) : (s.setEngine a e).acceptedAct = s.acceptedAct := rfl
@[simp] theorem State.setEngine_brokeWhy (s : State) (a : ArrId) (e : Engine) : (s.setEngine a e).brokeWhy = s.brokeWhy := rfl
@[simp] theorem State.setEngine_promoEnd (s : State) (a : ArrId) (e : Engine) : (s.setEngine a e).promoEnd = s.promoEnd := rfl
@[simp] theorem State.setEngine_nextBook (s : State) (a : ArrId) (e : Engine) : (s.setEngine a e).nextBook = s.nextBook := rfl
@[simp] theorem State.setEngine_pauseUntil (s : State) (a : ArrId) (e : Engine) : (s.setEngine a e).pauseUntil = s.pauseUntil := rfl
@[simp] theorem State.setEngine_reqQ (s : State) (a : ArrId) (e : Engine) : (s.setEngine a e).reqQ = s.reqQ := rfl
@[simp] theorem State.setEngine_recs (s : State) (a : ArrId) (e : Engine) : (s.setEngine a e).recs = s.recs := rfl
@[simp] theorem State.setEngine_ringSig (s : State) (a : ArrId) (e : Engine) : (s.setEngine a e).ringSig = s.ringSig := rfl
@[simp] theorem State.setEngine_stalled (s : State) (a : ArrId) (e : Engine) : (s.setEngine a e).stalled = s.stalled := rfl
@[simp] theorem State.setEngine_latWins (s : State) (a : ArrId) (e : Engine) : (s.setEngine a e).latWins = s.latWins := rfl
@[simp] theorem State.setEngine_servHalt (s : State) (a : ArrId) (e : Engine) : (s.setEngine a e).servHalt = s.servHalt := rfl
@[simp] theorem State.setEngine_swaps (s : State) (a : ArrId) (e : Engine) : (s.setEngine a e).swaps = s.swaps := rfl
@[simp] theorem State.setEngine_keys (s : State) (a : ArrId) (e : Engine) : (s.setEngine a e).keys = s.keys := rfl
@[simp] theorem State.setEngine_active (s : State) (a : ArrId) (e : Engine) : (s.setEngine a e).active = s.active := rfl
@[simp] theorem State.setEngine_shadowHrn (s : State) (a : ArrId) (e : Engine) : (s.setEngine a e).shadowHrn = s.shadowHrn := rfl
@[simp] theorem State.setEngine_report (s : State) (a : ArrId) (e : Engine) : (s.setEngine a e).report = s.report := rfl
@[simp] theorem State.setEngine_actWrites (s : State) (a : ArrId) (e : Engine) : (s.setEngine a e).actWrites = s.actWrites := rfl
@[simp] theorem State.setEngine_sbufClear (s : State) (a : ArrId) (e : Engine) : (s.setEngine a e).sbufClear = s.sbufClear := rfl
@[simp] theorem State.setEngine_precHeld (s : State) (a : ArrId) (e : Engine) : (s.setEngine a e).precHeld = s.precHeld := rfl
@[simp] theorem State.setEngine_areas (s : State) (a : ArrId) (e : Engine) : (s.setEngine a e).areas = s.areas := rfl
@[simp] theorem State.setEngine_cleared (s : State) (a : ArrId) (e : Engine) : (s.setEngine a e).cleared = s.cleared := rfl
@[simp] theorem State.setEngine_mapOut (s : State) (a : ArrId) (e : Engine) : (s.setEngine a e).mapOut = s.mapOut := rfl
@[simp] theorem State.setEngine_mustClear (s : State) (a : ArrId) (e : Engine) : (s.setEngine a e).mustClear = s.mustClear := rfl
@[simp] theorem State.setEngine_seqs (s : State) (a : ArrId) (e : Engine) : (s.setEngine a e).seqs = s.seqs := rfl
@[simp] theorem State.setEngine_wins (s : State) (a : ArrId) (e : Engine) : (s.setEngine a e).wins = s.wins := rfl
@[simp] theorem State.setEngine_transitI (s : State) (a : ArrId) (e : Engine) : (s.setEngine a e).transitI = s.transitI := rfl
@[simp] theorem State.setEngine_lastWin (s : State) (a : ArrId) (e : Engine) : (s.setEngine a e).lastWin = s.lastWin := rfl
@[simp] theorem State.setEngine_winStep (s : State) (a : ArrId) (e : Engine) : (s.setEngine a e).winStep = s.winStep := rfl
@[simp] theorem State.setEngine_lastStep (s : State) (a : ArrId) (e : Engine) : (s.setEngine a e).lastStep = s.lastStep := rfl
@[simp] theorem State.setEngine_manyRun (s : State) (a : ArrId) (e : Engine) : (s.setEngine a e).manyRun = s.manyRun := rfl
@[simp] theorem State.setEngine_govSince (s : State) (a : ArrId) (e : Engine) : (s.setEngine a e).govSince = s.govSince := rfl
@[simp] theorem State.setEngine_billets (s : State) (a : ArrId) (e : Engine) : (s.setEngine a e).billets = s.billets := rfl
@[simp] theorem State.setEngine_flashWear (s : State) (a : ArrId) (e : Engine) : (s.setEngine a e).flashWear = s.flashWear := rfl
@[simp] theorem State.setEngine_embers (s : State) (a : ArrId) (e : Engine) : (s.setEngine a e).embers = s.embers := rfl
@[simp] theorem State.setEngine_ident (s : State) (a : ArrId) (e : Engine) : (s.setEngine a e).ident = s.ident := rfl
@[simp] theorem State.setEngine_shut (s : State) (a : ArrId) (e : Engine) : (s.setEngine a e).shut = s.shut := rfl
@[simp] theorem State.setEngine_faultPin (s : State) (a : ArrId) (e : Engine) : (s.setEngine a e).faultPin = s.faultPin := rfl
@[simp] theorem State.setEngine_stwQ (s : State) (a : ArrId) (e : Engine) : (s.setEngine a e).stwQ = s.stwQ := rfl
@[simp] theorem State.setEngine_tlm (s : State) (a : ArrId) (e : Engine) : (s.setEngine a e).tlm = s.tlm := rfl
@[simp] theorem State.setEngine_mon (s : State) (a : ArrId) (e : Engine) : (s.setEngine a e).mon = s.mon := rfl
@[simp] theorem State.setEngine_heatCool (s : State) (a : ArrId) (e : Engine) : (s.setEngine a e).heatCool = s.heatCool := rfl
@[simp] theorem State.setEngine_thmRun (s : State) (a : ArrId) (e : Engine) : (s.setEngine a e).thmRun = s.thmRun := rfl
@[simp] theorem State.setEngine_thmAt (s : State) (a : ArrId) (e : Engine) : (s.setEngine a e).thmAt = s.thmAt := rfl
@[simp] theorem State.setEngine_coolSince (s : State) (a : ArrId) (e : Engine) : (s.setEngine a e).coolSince = s.coolSince := rfl
@[simp] theorem State.setEngine_praise (s : State) (a : ArrId) (e : Engine) : (s.setEngine a e).praise = s.praise := rfl
@[simp] theorem State.setEngine_sdRecs (s : State) (a : ArrId) (e : Engine) : (s.setEngine a e).sdRecs = s.sdRecs := rfl
@[simp] theorem State.setEngine_wts (s : State) (a : ArrId) (e : Engine) : (s.setEngine a e).wts = s.wts := rfl
@[simp] theorem State.setEngine_net (s : State) (a : ArrId) (e : Engine) : (s.setEngine a e).net = s.net := rfl
@[simp] theorem State.setEngine_kdl (s : State) (a : ArrId) (e : Engine) : (s.setEngine a e).kdl = s.kdl := rfl
@[simp] theorem State.setEngine_wall (s : State) (a : ArrId) (e : Engine) : (s.setEngine a e).wall = s.wall := rfl
@[simp] theorem State.setEngine_ageWall (s : State) (a : ArrId) (e : Engine) : (s.setEngine a e).ageWall = s.ageWall := rfl
@[simp] theorem State.setEngine_flashAges (s : State) (a : ArrId) (e : Engine) : (s.setEngine a e).flashAges = s.flashAges := rfl
@[simp] theorem State.setEngine_inject (s : State) (a : ArrId) (e : Engine) : (s.setEngine a e).inject = s.inject := rfl
@[simp] theorem State.setEngine_events (s : State) (a : ArrId) (e : Engine) : (s.setEngine a e).events = s.events := rfl
@[simp] theorem State.setEngine_eventSeq (s : State) (a : ArrId) (e : Engine) : (s.setEngine a e).eventSeq = s.eventSeq := rfl
@[simp] theorem State.setEngine_eventLost (s : State) (a : ArrId) (e : Engine) : (s.setEngine a e).eventLost = s.eventLost := rfl
@[simp] theorem State.setEngine_out (s : State) (a : ArrId) (e : Engine) : (s.setEngine a e).out = s.out := rfl

/-! ### The register file -/

theorem State.set_regs (s : State) (g : Fld) (ix : Ix) (v : Nat) :
    (s.set g ix v).regs = Map.put s.regs (fkey g ix) (v % 2 ^ g.width) := rfl

/-- A field reads the value written, cut to its width. -/
@[simp] theorem State.get_set_same (s : State) (g : Fld) (ix : Ix) (v : Nat) : (s.set g ix v).get g ix = v % 2 ^ g.width := by
  simp [State.get, State.set_regs]

/-- A write of a field leaves every other field and instance alone. -/
theorem State.get_set_ne (s : State) (g h : Fld) (ix jx : Ix) (v : Nat) (hk : fkey g ix ≠ fkey h jx) :
    (s.set g ix v).get h jx = s.get h jx := by
  simp [State.get, State.set_regs, Map.getD_put_ne _ _ _ _ _ hk]

/-- Fields of different registers do not meet. -/
theorem State.get_set_reg (s : State) (g h : Fld) (ix jx : Ix) (v : Nat) (hr : g.reg ≠ h.reg) :
    (s.set g ix v).get h jx = s.get h jx := State.get_set_ne s g h ix jx v (fun e => hr (congrArg FKey.reg e))

/-- Fields at different places of a register do not meet. -/
theorem State.get_set_lo (s : State) (g h : Fld) (ix jx : Ix) (v : Nat) (hr : g.lo ≠ h.lo) :
    (s.set g ix v).get h jx = s.get h jx := State.get_set_ne s g h ix jx v (fun e => hr (congrArg FKey.lo e))

/-- Instances of a register do not meet. -/
theorem State.get_set_ix (s : State) (g h : Fld) (ix jx : Ix) (v : Nat) (hr : ix ≠ jx) :
    (s.set g ix v).get h jx = s.get h jx := State.get_set_ne s g h ix jx v (fun e => hr (congrArg FKey.ix e))

/-- Reading after a write, in one equation. -/
theorem State.get_set (s : State) (g h : Fld) (ix jx : Ix) (v : Nat) :
    (s.set g ix v).get h jx = if fkey g ix = fkey h jx then v % 2 ^ g.width else s.get h jx := by
  split
  · rename_i e
    simp [State.get, State.set_regs, ← e]
  · rename_i e; exact State.get_set_ne s g h ix jx v e

/-! ### `State.raise` -/

@[simp] theorem State.raise_pending (s : State) (g : Fld) (ix : Ix) : (s.raise g ix).pending = s.pending := rfl
@[simp] theorem State.raise_stitch (s : State) (g : Fld) (ix : Ix) : (s.raise g ix).stitch = s.stitch := rfl
@[simp] theorem State.raise_cc (s : State) (g : Fld) (ix : Ix) : (s.raise g ix).cc = s.cc := rfl
@[simp] theorem State.raise_draws (s : State) (g : Fld) (ix : Ix) : (s.raise g ix).draws = s.draws := rfl
@[simp] theorem State.raise_shadow (s : State) (g : Fld) (ix : Ix) : (s.raise g ix).shadow = s.shadow := rfl
@[simp] theorem State.raise_ignored (s : State) (g : Fld) (ix : Ix) : (s.raise g ix).ignored = s.ignored := rfl
@[simp] theorem State.raise_ignoredStore (s : State) (g : Fld) (ix : Ix) : (s.raise g ix).ignoredStore = s.ignoredStore := rfl
@[simp] theorem State.raise_mem (s : State) (g : Fld) (ix : Ix) : (s.raise g ix).mem = s.mem := rfl
@[simp] theorem State.raise_marks (s : State) (g : Fld) (ix : Ix) : (s.raise g ix).marks = s.marks := rfl
@[simp] theorem State.raise_released (s : State) (g : Fld) (ix : Ix) : (s.raise g ix).released = s.released := rfl
@[simp] theorem State.raise_samplerAt (s : State) (g : Fld) (ix : Ix) : (s.raise g ix).samplerAt = s.samplerAt := rfl
@[simp] theorem State.raise_laneUse (s : State) (g : Fld) (ix : Ix) : (s.raise g ix).laneUse = s.laneUse := rfl
@[simp] theorem State.raise_spadClear (s : State) (g : Fld) (ix : Ix) : (s.raise g ix).spadClear = s.spadClear := rfl
@[simp] theorem State.raise_addrFaults (s : State) (g : Fld) (ix : Ix) : (s.raise g ix).addrFaults = s.addrFaults := rfl
@[simp] theorem State.raise_planeQ (s : State) (g : Fld) (ix : Ix) : (s.raise g ix).planeQ = s.planeQ := rfl
@[simp] theorem State.raise_tempSum (s : State) (g : Fld) (ix : Ix) : (s.raise g ix).tempSum = s.tempSum := rfl
@[simp] theorem State.raise_breaks (s : State) (g : Fld) (ix : Ix) : (s.raise g ix).breaks = s.breaks := rfl
@[simp] theorem State.raise_stageAt (s : State) (g : Fld) (ix : Ix) : (s.raise g ix).stageAt = s.stageAt := rfl
@[simp] theorem State.raise_upsets (s : State) (g : Fld) (ix : Ix) : (s.raise g ix).upsets = s.upsets := rfl
@[simp] theorem State.raise_writebacks (s : State) (g : Fld) (ix : Ix) : (s.raise g ix).writebacks = s.writebacks := rfl
@[simp] theorem State.raise_cores (s : State) (g : Fld) (ix : Ix) : (s.raise g ix).cores = s.cores := rfl
@[simp] theorem State.raise_engines (s : State) (g : Fld) (ix : Ix) : (s.raise g ix).engines = s.engines := rfl
@[simp] theorem State.raise_halts (s : State) (g : Fld) (ix : Ix) : (s.raise g ix).halts = s.halts := rfl
@[simp] theorem State.raise_chans (s : State) (g : Fld) (ix : Ix) : (s.raise g ix).chans = s.chans := rfl
@[simp] theorem State.raise_flights (s : State) (g : Fld) (ix : Ix) : (s.raise g ix).flights = s.flights := rfl
@[simp] theorem State.raise_xferSeq (s : State) (g : Fld) (ix : Ix) : (s.raise g ix).xferSeq = s.xferSeq := rfl
@[simp] theorem State.raise_stackReads (s : State) (g : Fld) (ix : Ix) : (s.raise g ix).stackReads = s.stackReads := rfl
@[simp] theorem State.raise_stackWrites (s : State) (g : Fld) (ix : Ix) : (s.raise g ix).stackWrites = s.stackWrites := rfl
@[simp] theorem State.raise_lastReq (s : State) (g : Fld) (ix : Ix) : (s.raise g ix).lastReq = s.lastReq := rfl
@[simp] theorem State.raise_cache (s : State) (g : Fld) (ix : Ix) : (s.raise g ix).cache = s.cache := rfl
@[simp] theorem State.raise_claims (s : State) (g : Fld) (ix : Ix) : (s.raise g ix).claims = s.claims := rfl
@[simp] theorem State.raise_scrubRow (s : State) (g : Fld) (ix : Ix) : (s.raise g ix).scrubRow = s.scrubRow := rfl
@[simp] theorem State.raise_rwq (s : State) (g : Fld) (ix : Ix) : (s.raise g ix).rwq = s.rwq := rfl
@[simp] theorem State.raise_fences (s : State) (g : Fld) (ix : Ix) : (s.raise g ix).fences = s.fences := rfl
@[simp] theorem State.raise_winUpdates (s : State) (g : Fld) (ix : Ix) : (s.raise g ix).winUpdates = s.winUpdates := rfl
@[simp] theorem State.raise_capDue (s : State) (g : Fld) (ix : Ix) : (s.raise g ix).capDue = s.capDue := rfl
@[simp] theorem State.raise_capSeen (s : State) (g : Fld) (ix : Ix) : (s.raise g ix).capSeen = s.capSeen := rfl
@[simp] theorem State.raise_clearing (s : State) (g : Fld) (ix : Ix) : (s.raise g ix).clearing = s.clearing := rfl
@[simp] theorem State.raise_zeroing (s : State) (g : Fld) (ix : Ix) : (s.raise g ix).zeroing = s.zeroing := rfl
@[simp] theorem State.raise_msgs (s : State) (g : Fld) (ix : Ix) : (s.raise g ix).msgs = s.msgs := rfl
@[simp] theorem State.raise_syncQ (s : State) (g : Fld) (ix : Ix) : (s.raise g ix).syncQ = s.syncQ := rfl
@[simp] theorem State.raise_rerouted (s : State) (g : Fld) (ix : Ix) : (s.raise g ix).rerouted = s.rerouted := rfl
@[simp] theorem State.raise_reported (s : State) (g : Fld) (ix : Ix) : (s.raise g ix).reported = s.reported := rfl
@[simp] theorem State.raise_tack (s : State) (g : Fld) (ix : Ix) : (s.raise g ix).tack = s.tack := rfl
@[simp] theorem State.raise_cinchLatch (s : State) (g : Fld) (ix : Ix) : (s.raise g ix).cinchLatch = s.cinchLatch := rfl
@[simp] theorem State.raise_cinchWait (s : State) (g : Fld) (ix : Ix) : (s.raise g ix).cinchWait = s.cinchWait := rfl
@[simp] theorem State.raise_precOut (s : State) (g : Fld) (ix : Ix) : (s.raise g ix).precOut = s.precOut := rfl
@[simp] theorem State.raise_precIn (s : State) (g : Fld) (ix : Ix) : (s.raise g ix).precIn = s.precIn := rfl
@[simp] theorem State.raise_precPrev (s : State) (g : Fld) (ix : Ix) : (s.raise g ix).precPrev = s.precPrev := rfl
@[simp] theorem State.raise_running (s : State) (g : Fld) (ix : Ix) : (s.raise g ix).running = s.running := rfl
@[simp] theorem State.raise_stepReqs (s : State) (g : Fld) (ix : Ix) : (s.raise g ix).stepReqs = s.stepReqs := rfl
@[simp] theorem State.raise_standby (s : State) (g : Fld) (ix : Ix) : (s.raise g ix).standby = s.standby := rfl
@[simp] theorem State.raise_pllLock (s : State) (g : Fld) (ix : Ix) : (s.raise g ix).pllLock = s.pllLock := rfl
@[simp] theorem State.raise_committed (s : State) (g : Fld) (ix : Ix) : (s.raise g ix).committed = s.committed := rfl
@[simp] theorem State.raise_dying (s : State) (g : Fld) (ix : Ix) : (s.raise g ix).dying = s.dying := rfl
@[simp] theorem State.raise_homeList (s : State) (g : Fld) (ix : Ix) : (s.raise g ix).homeList = s.homeList := rfl
@[simp] theorem State.raise_kvCmds (s : State) (g : Fld) (ix : Ix) : (s.raise g ix).kvCmds = s.kvCmds := rfl
@[simp] theorem State.raise_kvJobs (s : State) (g : Fld) (ix : Ix) : (s.raise g ix).kvJobs = s.kvJobs := rfl
@[simp] theorem State.raise_kvSeq (s : State) (g : Fld) (ix : Ix) : (s.raise g ix).kvSeq = s.kvSeq := rfl
@[simp] theorem State.raise_kvLast (s : State) (g : Fld) (ix : Ix) : (s.raise g ix).kvLast = s.kvLast := rfl
@[simp] theorem State.raise_passes (s : State) (g : Fld) (ix : Ix) : (s.raise g ix).passes = s.passes := rfl
@[simp] theorem State.raise_passSeq (s : State) (g : Fld) (ix : Ix) : (s.raise g ix).passSeq = s.passSeq := rfl
@[simp] theorem State.raise_ctxs (s : State) (g : Fld) (ix : Ix) : (s.raise g ix).ctxs = s.ctxs := rfl
@[simp] theorem State.raise_promptCopies (s : State) (g : Fld) (ix : Ix) : (s.raise g ix).promptCopies = s.promptCopies := rfl
@[simp] theorem State.raise_descAt (s : State) (g : Fld) (ix : Ix) : (s.raise g ix).descAt = s.descAt := rfl
@[simp] theorem State.raise_accepted (s : State) (g : Fld) (ix : Ix) : (s.raise g ix).accepted = s.accepted := rfl
@[simp] theorem State.raise_acceptedAct (s : State) (g : Fld) (ix : Ix) : (s.raise g ix).acceptedAct = s.acceptedAct := rfl
@[simp] theorem State.raise_brokeWhy (s : State) (g : Fld) (ix : Ix) : (s.raise g ix).brokeWhy = s.brokeWhy := rfl
@[simp] theorem State.raise_promoEnd (s : State) (g : Fld) (ix : Ix) : (s.raise g ix).promoEnd = s.promoEnd := rfl
@[simp] theorem State.raise_nextBook (s : State) (g : Fld) (ix : Ix) : (s.raise g ix).nextBook = s.nextBook := rfl
@[simp] theorem State.raise_pauseUntil (s : State) (g : Fld) (ix : Ix) : (s.raise g ix).pauseUntil = s.pauseUntil := rfl
@[simp] theorem State.raise_reqQ (s : State) (g : Fld) (ix : Ix) : (s.raise g ix).reqQ = s.reqQ := rfl
@[simp] theorem State.raise_recs (s : State) (g : Fld) (ix : Ix) : (s.raise g ix).recs = s.recs := rfl
@[simp] theorem State.raise_ringSig (s : State) (g : Fld) (ix : Ix) : (s.raise g ix).ringSig = s.ringSig := rfl
@[simp] theorem State.raise_stalled (s : State) (g : Fld) (ix : Ix) : (s.raise g ix).stalled = s.stalled := rfl
@[simp] theorem State.raise_latWins (s : State) (g : Fld) (ix : Ix) : (s.raise g ix).latWins = s.latWins := rfl
@[simp] theorem State.raise_servHalt (s : State) (g : Fld) (ix : Ix) : (s.raise g ix).servHalt = s.servHalt := rfl
@[simp] theorem State.raise_swaps (s : State) (g : Fld) (ix : Ix) : (s.raise g ix).swaps = s.swaps := rfl
@[simp] theorem State.raise_keys (s : State) (g : Fld) (ix : Ix) : (s.raise g ix).keys = s.keys := rfl
@[simp] theorem State.raise_active (s : State) (g : Fld) (ix : Ix) : (s.raise g ix).active = s.active := rfl
@[simp] theorem State.raise_shadowHrn (s : State) (g : Fld) (ix : Ix) : (s.raise g ix).shadowHrn = s.shadowHrn := rfl
@[simp] theorem State.raise_report (s : State) (g : Fld) (ix : Ix) : (s.raise g ix).report = s.report := rfl
@[simp] theorem State.raise_actWrites (s : State) (g : Fld) (ix : Ix) : (s.raise g ix).actWrites = s.actWrites := rfl
@[simp] theorem State.raise_sbufClear (s : State) (g : Fld) (ix : Ix) : (s.raise g ix).sbufClear = s.sbufClear := rfl
@[simp] theorem State.raise_precHeld (s : State) (g : Fld) (ix : Ix) : (s.raise g ix).precHeld = s.precHeld := rfl
@[simp] theorem State.raise_areas (s : State) (g : Fld) (ix : Ix) : (s.raise g ix).areas = s.areas := rfl
@[simp] theorem State.raise_cleared (s : State) (g : Fld) (ix : Ix) : (s.raise g ix).cleared = s.cleared := rfl
@[simp] theorem State.raise_mapOut (s : State) (g : Fld) (ix : Ix) : (s.raise g ix).mapOut = s.mapOut := rfl
@[simp] theorem State.raise_mustClear (s : State) (g : Fld) (ix : Ix) : (s.raise g ix).mustClear = s.mustClear := rfl
@[simp] theorem State.raise_seqs (s : State) (g : Fld) (ix : Ix) : (s.raise g ix).seqs = s.seqs := rfl
@[simp] theorem State.raise_wins (s : State) (g : Fld) (ix : Ix) : (s.raise g ix).wins = s.wins := rfl
@[simp] theorem State.raise_transitI (s : State) (g : Fld) (ix : Ix) : (s.raise g ix).transitI = s.transitI := rfl
@[simp] theorem State.raise_lastWin (s : State) (g : Fld) (ix : Ix) : (s.raise g ix).lastWin = s.lastWin := rfl
@[simp] theorem State.raise_winStep (s : State) (g : Fld) (ix : Ix) : (s.raise g ix).winStep = s.winStep := rfl
@[simp] theorem State.raise_lastStep (s : State) (g : Fld) (ix : Ix) : (s.raise g ix).lastStep = s.lastStep := rfl
@[simp] theorem State.raise_manyRun (s : State) (g : Fld) (ix : Ix) : (s.raise g ix).manyRun = s.manyRun := rfl
@[simp] theorem State.raise_govSince (s : State) (g : Fld) (ix : Ix) : (s.raise g ix).govSince = s.govSince := rfl
@[simp] theorem State.raise_billets (s : State) (g : Fld) (ix : Ix) : (s.raise g ix).billets = s.billets := rfl
@[simp] theorem State.raise_flashWear (s : State) (g : Fld) (ix : Ix) : (s.raise g ix).flashWear = s.flashWear := rfl
@[simp] theorem State.raise_embers (s : State) (g : Fld) (ix : Ix) : (s.raise g ix).embers = s.embers := rfl
@[simp] theorem State.raise_ident (s : State) (g : Fld) (ix : Ix) : (s.raise g ix).ident = s.ident := rfl
@[simp] theorem State.raise_shut (s : State) (g : Fld) (ix : Ix) : (s.raise g ix).shut = s.shut := rfl
@[simp] theorem State.raise_faultPin (s : State) (g : Fld) (ix : Ix) : (s.raise g ix).faultPin = s.faultPin := rfl
@[simp] theorem State.raise_stwQ (s : State) (g : Fld) (ix : Ix) : (s.raise g ix).stwQ = s.stwQ := rfl
@[simp] theorem State.raise_tlm (s : State) (g : Fld) (ix : Ix) : (s.raise g ix).tlm = s.tlm := rfl
@[simp] theorem State.raise_mon (s : State) (g : Fld) (ix : Ix) : (s.raise g ix).mon = s.mon := rfl
@[simp] theorem State.raise_heatCool (s : State) (g : Fld) (ix : Ix) : (s.raise g ix).heatCool = s.heatCool := rfl
@[simp] theorem State.raise_thmRun (s : State) (g : Fld) (ix : Ix) : (s.raise g ix).thmRun = s.thmRun := rfl
@[simp] theorem State.raise_thmAt (s : State) (g : Fld) (ix : Ix) : (s.raise g ix).thmAt = s.thmAt := rfl
@[simp] theorem State.raise_coolSince (s : State) (g : Fld) (ix : Ix) : (s.raise g ix).coolSince = s.coolSince := rfl
@[simp] theorem State.raise_praise (s : State) (g : Fld) (ix : Ix) : (s.raise g ix).praise = s.praise := rfl
@[simp] theorem State.raise_sdRecs (s : State) (g : Fld) (ix : Ix) : (s.raise g ix).sdRecs = s.sdRecs := rfl
@[simp] theorem State.raise_wts (s : State) (g : Fld) (ix : Ix) : (s.raise g ix).wts = s.wts := rfl
@[simp] theorem State.raise_net (s : State) (g : Fld) (ix : Ix) : (s.raise g ix).net = s.net := rfl
@[simp] theorem State.raise_kdl (s : State) (g : Fld) (ix : Ix) : (s.raise g ix).kdl = s.kdl := rfl
@[simp] theorem State.raise_wall (s : State) (g : Fld) (ix : Ix) : (s.raise g ix).wall = s.wall := rfl
@[simp] theorem State.raise_ageWall (s : State) (g : Fld) (ix : Ix) : (s.raise g ix).ageWall = s.ageWall := rfl
@[simp] theorem State.raise_flashAges (s : State) (g : Fld) (ix : Ix) : (s.raise g ix).flashAges = s.flashAges := rfl
@[simp] theorem State.raise_inject (s : State) (g : Fld) (ix : Ix) : (s.raise g ix).inject = s.inject := rfl
@[simp] theorem State.raise_events (s : State) (g : Fld) (ix : Ix) : (s.raise g ix).events = s.events := rfl
@[simp] theorem State.raise_eventSeq (s : State) (g : Fld) (ix : Ix) : (s.raise g ix).eventSeq = s.eventSeq := rfl
@[simp] theorem State.raise_eventLost (s : State) (g : Fld) (ix : Ix) : (s.raise g ix).eventLost = s.eventLost := rfl
@[simp] theorem State.raise_out (s : State) (g : Fld) (ix : Ix) : (s.raise g ix).out = s.out := rfl
@[simp] theorem State.raise_get (s : State) (g f : Fld) (ix jx : Ix) : (s.raise g ix).get f jx = (s.set g ix 1).get f jx := rfl
@[simp] theorem State.before_of_none {s : State} (h : s.cycleRegs = none) : s.before = s := by cases s; simp_all [State.before]


/-- Reading depends on the register file only. -/
theorem State.get_congr {s t : State} (h : s.regs = t.regs) (g : Fld) (ix : Ix) : s.get g ix = t.get g ix := by
  simp [State.get, h]

@[simp] theorem State.get_send (s : State) (o : Output) (g : Fld) (ix : Ix) : (s.send o).get g ix = s.get g ix := rfl
@[simp] theorem State.get_setCore (s : State) (c : CoreId) (k : Core) (g : Fld) (ix : Ix) : (s.setCore c k).get g ix = s.get g ix := rfl
@[simp] theorem State.get_setEngine (s : State) (a : ArrId) (e : Engine) (g : Fld) (ix : Ix) :
    (s.setEngine a e).get g ix = s.get g ix := rfl

/-- A core reads as it was set. -/
@[simp] theorem State.core_setCore_same (s : State) (c : CoreId) (k : Core) : (s.setCore c k).core c = k := by
  simp [State.core, State.setCore]

theorem State.core_setCore_ne (s : State) (c d : CoreId) (k : Core) (h : c ≠ d) : (s.setCore c k).core d = s.core d := by
  simp [State.core, State.setCore, Map.getD_put_ne _ _ _ _ _ h]

/-! ### `State.emit` -/

@[simp] theorem State.emit_pending (s : State) (c v d : Nat) (p : Option Nat) (l : List (Nat × Nat)) : (s.emit c v d p l).pending = s.pending := by
  unfold State.emit; dsimp only; split <;> rfl
@[simp] theorem State.emit_stitch (s : State) (c v d : Nat) (p : Option Nat) (l : List (Nat × Nat)) : (s.emit c v d p l).stitch = s.stitch := by
  unfold State.emit; dsimp only; split <;> rfl
@[simp] theorem State.emit_cc (s : State) (c v d : Nat) (p : Option Nat) (l : List (Nat × Nat)) : (s.emit c v d p l).cc = s.cc := by
  unfold State.emit; dsimp only; split <;> rfl
@[simp] theorem State.emit_draws (s : State) (c v d : Nat) (p : Option Nat) (l : List (Nat × Nat)) : (s.emit c v d p l).draws = s.draws := by
  unfold State.emit; dsimp only; split <;> rfl
@[simp] theorem State.emit_shadow (s : State) (c v d : Nat) (p : Option Nat) (l : List (Nat × Nat)) : (s.emit c v d p l).shadow = s.shadow := by
  unfold State.emit; dsimp only; split <;> rfl
@[simp] theorem State.emit_ignored (s : State) (c v d : Nat) (p : Option Nat) (l : List (Nat × Nat)) : (s.emit c v d p l).ignored = s.ignored := by
  unfold State.emit; dsimp only; split <;> rfl
@[simp] theorem State.emit_cycleRegs (s : State) (c v d : Nat) (p : Option Nat) (l : List (Nat × Nat)) : (s.emit c v d p l).cycleRegs = s.cycleRegs := by
  unfold State.emit; dsimp only; split <;> rfl
@[simp] theorem State.emit_ignoredStore (s : State) (c v d : Nat) (p : Option Nat) (l : List (Nat × Nat)) : (s.emit c v d p l).ignoredStore = s.ignoredStore := by
  unfold State.emit; dsimp only; split <;> rfl
@[simp] theorem State.emit_mem (s : State) (c v d : Nat) (p : Option Nat) (l : List (Nat × Nat)) : (s.emit c v d p l).mem = s.mem := by
  unfold State.emit; dsimp only; split <;> rfl
@[simp] theorem State.emit_marks (s : State) (c v d : Nat) (p : Option Nat) (l : List (Nat × Nat)) : (s.emit c v d p l).marks = s.marks := by
  unfold State.emit; dsimp only; split <;> rfl
@[simp] theorem State.emit_released (s : State) (c v d : Nat) (p : Option Nat) (l : List (Nat × Nat)) : (s.emit c v d p l).released = s.released := by
  unfold State.emit; dsimp only; split <;> rfl
@[simp] theorem State.emit_samplerAt (s : State) (c v d : Nat) (p : Option Nat) (l : List (Nat × Nat)) : (s.emit c v d p l).samplerAt = s.samplerAt := by
  unfold State.emit; dsimp only; split <;> rfl
@[simp] theorem State.emit_laneUse (s : State) (c v d : Nat) (p : Option Nat) (l : List (Nat × Nat)) : (s.emit c v d p l).laneUse = s.laneUse := by
  unfold State.emit; dsimp only; split <;> rfl
@[simp] theorem State.emit_spadClear (s : State) (c v d : Nat) (p : Option Nat) (l : List (Nat × Nat)) : (s.emit c v d p l).spadClear = s.spadClear := by
  unfold State.emit; dsimp only; split <;> rfl
@[simp] theorem State.emit_addrFaults (s : State) (c v d : Nat) (p : Option Nat) (l : List (Nat × Nat)) : (s.emit c v d p l).addrFaults = s.addrFaults := by
  unfold State.emit; dsimp only; split <;> rfl
@[simp] theorem State.emit_planeQ (s : State) (c v d : Nat) (p : Option Nat) (l : List (Nat × Nat)) : (s.emit c v d p l).planeQ = s.planeQ := by
  unfold State.emit; dsimp only; split <;> rfl
@[simp] theorem State.emit_tempSum (s : State) (c v d : Nat) (p : Option Nat) (l : List (Nat × Nat)) : (s.emit c v d p l).tempSum = s.tempSum := by
  unfold State.emit; dsimp only; split <;> rfl
@[simp] theorem State.emit_breaks (s : State) (c v d : Nat) (p : Option Nat) (l : List (Nat × Nat)) : (s.emit c v d p l).breaks = s.breaks := by
  unfold State.emit; dsimp only; split <;> rfl
@[simp] theorem State.emit_stageAt (s : State) (c v d : Nat) (p : Option Nat) (l : List (Nat × Nat)) : (s.emit c v d p l).stageAt = s.stageAt := by
  unfold State.emit; dsimp only; split <;> rfl
@[simp] theorem State.emit_upsets (s : State) (c v d : Nat) (p : Option Nat) (l : List (Nat × Nat)) : (s.emit c v d p l).upsets = s.upsets := by
  unfold State.emit; dsimp only; split <;> rfl
@[simp] theorem State.emit_writebacks (s : State) (c v d : Nat) (p : Option Nat) (l : List (Nat × Nat)) : (s.emit c v d p l).writebacks = s.writebacks := by
  unfold State.emit; dsimp only; split <;> rfl
@[simp] theorem State.emit_cores (s : State) (c v d : Nat) (p : Option Nat) (l : List (Nat × Nat)) : (s.emit c v d p l).cores = s.cores := by
  unfold State.emit; dsimp only; split <;> rfl
@[simp] theorem State.emit_engines (s : State) (c v d : Nat) (p : Option Nat) (l : List (Nat × Nat)) : (s.emit c v d p l).engines = s.engines := by
  unfold State.emit; dsimp only; split <;> rfl
@[simp] theorem State.emit_halts (s : State) (c v d : Nat) (p : Option Nat) (l : List (Nat × Nat)) : (s.emit c v d p l).halts = s.halts := by
  unfold State.emit; dsimp only; split <;> rfl
@[simp] theorem State.emit_chans (s : State) (c v d : Nat) (p : Option Nat) (l : List (Nat × Nat)) : (s.emit c v d p l).chans = s.chans := by
  unfold State.emit; dsimp only; split <;> rfl
@[simp] theorem State.emit_flights (s : State) (c v d : Nat) (p : Option Nat) (l : List (Nat × Nat)) : (s.emit c v d p l).flights = s.flights := by
  unfold State.emit; dsimp only; split <;> rfl
@[simp] theorem State.emit_xferSeq (s : State) (c v d : Nat) (p : Option Nat) (l : List (Nat × Nat)) : (s.emit c v d p l).xferSeq = s.xferSeq := by
  unfold State.emit; dsimp only; split <;> rfl
@[simp] theorem State.emit_stackReads (s : State) (c v d : Nat) (p : Option Nat) (l : List (Nat × Nat)) : (s.emit c v d p l).stackReads = s.stackReads := by
  unfold State.emit; dsimp only; split <;> rfl
@[simp] theorem State.emit_stackWrites (s : State) (c v d : Nat) (p : Option Nat) (l : List (Nat × Nat)) : (s.emit c v d p l).stackWrites = s.stackWrites := by
  unfold State.emit; dsimp only; split <;> rfl
@[simp] theorem State.emit_lastReq (s : State) (c v d : Nat) (p : Option Nat) (l : List (Nat × Nat)) : (s.emit c v d p l).lastReq = s.lastReq := by
  unfold State.emit; dsimp only; split <;> rfl
@[simp] theorem State.emit_cache (s : State) (c v d : Nat) (p : Option Nat) (l : List (Nat × Nat)) : (s.emit c v d p l).cache = s.cache := by
  unfold State.emit; dsimp only; split <;> rfl
@[simp] theorem State.emit_claims (s : State) (c v d : Nat) (p : Option Nat) (l : List (Nat × Nat)) : (s.emit c v d p l).claims = s.claims := by
  unfold State.emit; dsimp only; split <;> rfl
@[simp] theorem State.emit_scrubRow (s : State) (c v d : Nat) (p : Option Nat) (l : List (Nat × Nat)) : (s.emit c v d p l).scrubRow = s.scrubRow := by
  unfold State.emit; dsimp only; split <;> rfl
@[simp] theorem State.emit_rwq (s : State) (c v d : Nat) (p : Option Nat) (l : List (Nat × Nat)) : (s.emit c v d p l).rwq = s.rwq := by
  unfold State.emit; dsimp only; split <;> rfl
@[simp] theorem State.emit_fences (s : State) (c v d : Nat) (p : Option Nat) (l : List (Nat × Nat)) : (s.emit c v d p l).fences = s.fences := by
  unfold State.emit; dsimp only; split <;> rfl
@[simp] theorem State.emit_winUpdates (s : State) (c v d : Nat) (p : Option Nat) (l : List (Nat × Nat)) : (s.emit c v d p l).winUpdates = s.winUpdates := by
  unfold State.emit; dsimp only; split <;> rfl
@[simp] theorem State.emit_capDue (s : State) (c v d : Nat) (p : Option Nat) (l : List (Nat × Nat)) : (s.emit c v d p l).capDue = s.capDue := by
  unfold State.emit; dsimp only; split <;> rfl
@[simp] theorem State.emit_capSeen (s : State) (c v d : Nat) (p : Option Nat) (l : List (Nat × Nat)) : (s.emit c v d p l).capSeen = s.capSeen := by
  unfold State.emit; dsimp only; split <;> rfl
@[simp] theorem State.emit_clearing (s : State) (c v d : Nat) (p : Option Nat) (l : List (Nat × Nat)) : (s.emit c v d p l).clearing = s.clearing := by
  unfold State.emit; dsimp only; split <;> rfl
@[simp] theorem State.emit_zeroing (s : State) (c v d : Nat) (p : Option Nat) (l : List (Nat × Nat)) : (s.emit c v d p l).zeroing = s.zeroing := by
  unfold State.emit; dsimp only; split <;> rfl
@[simp] theorem State.emit_msgs (s : State) (c v d : Nat) (p : Option Nat) (l : List (Nat × Nat)) : (s.emit c v d p l).msgs = s.msgs := by
  unfold State.emit; dsimp only; split <;> rfl
@[simp] theorem State.emit_syncQ (s : State) (c v d : Nat) (p : Option Nat) (l : List (Nat × Nat)) : (s.emit c v d p l).syncQ = s.syncQ := by
  unfold State.emit; dsimp only; split <;> rfl
@[simp] theorem State.emit_rerouted (s : State) (c v d : Nat) (p : Option Nat) (l : List (Nat × Nat)) : (s.emit c v d p l).rerouted = s.rerouted := by
  unfold State.emit; dsimp only; split <;> rfl
@[simp] theorem State.emit_reported (s : State) (c v d : Nat) (p : Option Nat) (l : List (Nat × Nat)) : (s.emit c v d p l).reported = s.reported := by
  unfold State.emit; dsimp only; split <;> rfl
@[simp] theorem State.emit_tack (s : State) (c v d : Nat) (p : Option Nat) (l : List (Nat × Nat)) : (s.emit c v d p l).tack = s.tack := by
  unfold State.emit; dsimp only; split <;> rfl
@[simp] theorem State.emit_cinchLatch (s : State) (c v d : Nat) (p : Option Nat) (l : List (Nat × Nat)) : (s.emit c v d p l).cinchLatch = s.cinchLatch := by
  unfold State.emit; dsimp only; split <;> rfl
@[simp] theorem State.emit_cinchWait (s : State) (c v d : Nat) (p : Option Nat) (l : List (Nat × Nat)) : (s.emit c v d p l).cinchWait = s.cinchWait := by
  unfold State.emit; dsimp only; split <;> rfl
@[simp] theorem State.emit_precOut (s : State) (c v d : Nat) (p : Option Nat) (l : List (Nat × Nat)) : (s.emit c v d p l).precOut = s.precOut := by
  unfold State.emit; dsimp only; split <;> rfl
@[simp] theorem State.emit_precIn (s : State) (c v d : Nat) (p : Option Nat) (l : List (Nat × Nat)) : (s.emit c v d p l).precIn = s.precIn := by
  unfold State.emit; dsimp only; split <;> rfl
@[simp] theorem State.emit_precPrev (s : State) (c v d : Nat) (p : Option Nat) (l : List (Nat × Nat)) : (s.emit c v d p l).precPrev = s.precPrev := by
  unfold State.emit; dsimp only; split <;> rfl
@[simp] theorem State.emit_running (s : State) (c v d : Nat) (p : Option Nat) (l : List (Nat × Nat)) : (s.emit c v d p l).running = s.running := by
  unfold State.emit; dsimp only; split <;> rfl
@[simp] theorem State.emit_stepReqs (s : State) (c v d : Nat) (p : Option Nat) (l : List (Nat × Nat)) : (s.emit c v d p l).stepReqs = s.stepReqs := by
  unfold State.emit; dsimp only; split <;> rfl
@[simp] theorem State.emit_standby (s : State) (c v d : Nat) (p : Option Nat) (l : List (Nat × Nat)) : (s.emit c v d p l).standby = s.standby := by
  unfold State.emit; dsimp only; split <;> rfl
@[simp] theorem State.emit_pllLock (s : State) (c v d : Nat) (p : Option Nat) (l : List (Nat × Nat)) : (s.emit c v d p l).pllLock = s.pllLock := by
  unfold State.emit; dsimp only; split <;> rfl
@[simp] theorem State.emit_committed (s : State) (c v d : Nat) (p : Option Nat) (l : List (Nat × Nat)) : (s.emit c v d p l).committed = s.committed := by
  unfold State.emit; dsimp only; split <;> rfl
@[simp] theorem State.emit_dying (s : State) (c v d : Nat) (p : Option Nat) (l : List (Nat × Nat)) : (s.emit c v d p l).dying = s.dying := by
  unfold State.emit; dsimp only; split <;> rfl
@[simp] theorem State.emit_homeList (s : State) (c v d : Nat) (p : Option Nat) (l : List (Nat × Nat)) : (s.emit c v d p l).homeList = s.homeList := by
  unfold State.emit; dsimp only; split <;> rfl
@[simp] theorem State.emit_kvCmds (s : State) (c v d : Nat) (p : Option Nat) (l : List (Nat × Nat)) : (s.emit c v d p l).kvCmds = s.kvCmds := by
  unfold State.emit; dsimp only; split <;> rfl
@[simp] theorem State.emit_kvJobs (s : State) (c v d : Nat) (p : Option Nat) (l : List (Nat × Nat)) : (s.emit c v d p l).kvJobs = s.kvJobs := by
  unfold State.emit; dsimp only; split <;> rfl
@[simp] theorem State.emit_kvSeq (s : State) (c v d : Nat) (p : Option Nat) (l : List (Nat × Nat)) : (s.emit c v d p l).kvSeq = s.kvSeq := by
  unfold State.emit; dsimp only; split <;> rfl
@[simp] theorem State.emit_kvLast (s : State) (c v d : Nat) (p : Option Nat) (l : List (Nat × Nat)) : (s.emit c v d p l).kvLast = s.kvLast := by
  unfold State.emit; dsimp only; split <;> rfl
@[simp] theorem State.emit_passes (s : State) (c v d : Nat) (p : Option Nat) (l : List (Nat × Nat)) : (s.emit c v d p l).passes = s.passes := by
  unfold State.emit; dsimp only; split <;> rfl
@[simp] theorem State.emit_passSeq (s : State) (c v d : Nat) (p : Option Nat) (l : List (Nat × Nat)) : (s.emit c v d p l).passSeq = s.passSeq := by
  unfold State.emit; dsimp only; split <;> rfl
@[simp] theorem State.emit_ctxs (s : State) (c v d : Nat) (p : Option Nat) (l : List (Nat × Nat)) : (s.emit c v d p l).ctxs = s.ctxs := by
  unfold State.emit; dsimp only; split <;> rfl
@[simp] theorem State.emit_promptCopies (s : State) (c v d : Nat) (p : Option Nat) (l : List (Nat × Nat)) : (s.emit c v d p l).promptCopies = s.promptCopies := by
  unfold State.emit; dsimp only; split <;> rfl
@[simp] theorem State.emit_descAt (s : State) (c v d : Nat) (p : Option Nat) (l : List (Nat × Nat)) : (s.emit c v d p l).descAt = s.descAt := by
  unfold State.emit; dsimp only; split <;> rfl
@[simp] theorem State.emit_accepted (s : State) (c v d : Nat) (p : Option Nat) (l : List (Nat × Nat)) : (s.emit c v d p l).accepted = s.accepted := by
  unfold State.emit; dsimp only; split <;> rfl
@[simp] theorem State.emit_acceptedAct (s : State) (c v d : Nat) (p : Option Nat) (l : List (Nat × Nat)) : (s.emit c v d p l).acceptedAct = s.acceptedAct := by
  unfold State.emit; dsimp only; split <;> rfl
@[simp] theorem State.emit_brokeWhy (s : State) (c v d : Nat) (p : Option Nat) (l : List (Nat × Nat)) : (s.emit c v d p l).brokeWhy = s.brokeWhy := by
  unfold State.emit; dsimp only; split <;> rfl
@[simp] theorem State.emit_promoEnd (s : State) (c v d : Nat) (p : Option Nat) (l : List (Nat × Nat)) : (s.emit c v d p l).promoEnd = s.promoEnd := by
  unfold State.emit; dsimp only; split <;> rfl
@[simp] theorem State.emit_nextBook (s : State) (c v d : Nat) (p : Option Nat) (l : List (Nat × Nat)) : (s.emit c v d p l).nextBook = s.nextBook := by
  unfold State.emit; dsimp only; split <;> rfl
@[simp] theorem State.emit_pauseUntil (s : State) (c v d : Nat) (p : Option Nat) (l : List (Nat × Nat)) : (s.emit c v d p l).pauseUntil = s.pauseUntil := by
  unfold State.emit; dsimp only; split <;> rfl
@[simp] theorem State.emit_reqQ (s : State) (c v d : Nat) (p : Option Nat) (l : List (Nat × Nat)) : (s.emit c v d p l).reqQ = s.reqQ := by
  unfold State.emit; dsimp only; split <;> rfl
@[simp] theorem State.emit_recs (s : State) (c v d : Nat) (p : Option Nat) (l : List (Nat × Nat)) : (s.emit c v d p l).recs = s.recs := by
  unfold State.emit; dsimp only; split <;> rfl
@[simp] theorem State.emit_ringSig (s : State) (c v d : Nat) (p : Option Nat) (l : List (Nat × Nat)) : (s.emit c v d p l).ringSig = s.ringSig := by
  unfold State.emit; dsimp only; split <;> rfl
@[simp] theorem State.emit_stalled (s : State) (c v d : Nat) (p : Option Nat) (l : List (Nat × Nat)) : (s.emit c v d p l).stalled = s.stalled := by
  unfold State.emit; dsimp only; split <;> rfl
@[simp] theorem State.emit_latWins (s : State) (c v d : Nat) (p : Option Nat) (l : List (Nat × Nat)) : (s.emit c v d p l).latWins = s.latWins := by
  unfold State.emit; dsimp only; split <;> rfl
@[simp] theorem State.emit_servHalt (s : State) (c v d : Nat) (p : Option Nat) (l : List (Nat × Nat)) : (s.emit c v d p l).servHalt = s.servHalt := by
  unfold State.emit; dsimp only; split <;> rfl
@[simp] theorem State.emit_swaps (s : State) (c v d : Nat) (p : Option Nat) (l : List (Nat × Nat)) : (s.emit c v d p l).swaps = s.swaps := by
  unfold State.emit; dsimp only; split <;> rfl
@[simp] theorem State.emit_keys (s : State) (c v d : Nat) (p : Option Nat) (l : List (Nat × Nat)) : (s.emit c v d p l).keys = s.keys := by
  unfold State.emit; dsimp only; split <;> rfl
@[simp] theorem State.emit_active (s : State) (c v d : Nat) (p : Option Nat) (l : List (Nat × Nat)) : (s.emit c v d p l).active = s.active := by
  unfold State.emit; dsimp only; split <;> rfl
@[simp] theorem State.emit_shadowHrn (s : State) (c v d : Nat) (p : Option Nat) (l : List (Nat × Nat)) : (s.emit c v d p l).shadowHrn = s.shadowHrn := by
  unfold State.emit; dsimp only; split <;> rfl
@[simp] theorem State.emit_report (s : State) (c v d : Nat) (p : Option Nat) (l : List (Nat × Nat)) : (s.emit c v d p l).report = s.report := by
  unfold State.emit; dsimp only; split <;> rfl
@[simp] theorem State.emit_actWrites (s : State) (c v d : Nat) (p : Option Nat) (l : List (Nat × Nat)) : (s.emit c v d p l).actWrites = s.actWrites := by
  unfold State.emit; dsimp only; split <;> rfl
@[simp] theorem State.emit_sbufClear (s : State) (c v d : Nat) (p : Option Nat) (l : List (Nat × Nat)) : (s.emit c v d p l).sbufClear = s.sbufClear := by
  unfold State.emit; dsimp only; split <;> rfl
@[simp] theorem State.emit_precHeld (s : State) (c v d : Nat) (p : Option Nat) (l : List (Nat × Nat)) : (s.emit c v d p l).precHeld = s.precHeld := by
  unfold State.emit; dsimp only; split <;> rfl
@[simp] theorem State.emit_areas (s : State) (c v d : Nat) (p : Option Nat) (l : List (Nat × Nat)) : (s.emit c v d p l).areas = s.areas := by
  unfold State.emit; dsimp only; split <;> rfl
@[simp] theorem State.emit_cleared (s : State) (c v d : Nat) (p : Option Nat) (l : List (Nat × Nat)) : (s.emit c v d p l).cleared = s.cleared := by
  unfold State.emit; dsimp only; split <;> rfl
@[simp] theorem State.emit_mapOut (s : State) (c v d : Nat) (p : Option Nat) (l : List (Nat × Nat)) : (s.emit c v d p l).mapOut = s.mapOut := by
  unfold State.emit; dsimp only; split <;> rfl
@[simp] theorem State.emit_mustClear (s : State) (c v d : Nat) (p : Option Nat) (l : List (Nat × Nat)) : (s.emit c v d p l).mustClear = s.mustClear := by
  unfold State.emit; dsimp only; split <;> rfl
@[simp] theorem State.emit_seqs (s : State) (c v d : Nat) (p : Option Nat) (l : List (Nat × Nat)) : (s.emit c v d p l).seqs = s.seqs := by
  unfold State.emit; dsimp only; split <;> rfl
@[simp] theorem State.emit_wins (s : State) (c v d : Nat) (p : Option Nat) (l : List (Nat × Nat)) : (s.emit c v d p l).wins = s.wins := by
  unfold State.emit; dsimp only; split <;> rfl
@[simp] theorem State.emit_transitI (s : State) (c v d : Nat) (p : Option Nat) (l : List (Nat × Nat)) : (s.emit c v d p l).transitI = s.transitI := by
  unfold State.emit; dsimp only; split <;> rfl
@[simp] theorem State.emit_lastWin (s : State) (c v d : Nat) (p : Option Nat) (l : List (Nat × Nat)) : (s.emit c v d p l).lastWin = s.lastWin := by
  unfold State.emit; dsimp only; split <;> rfl
@[simp] theorem State.emit_winStep (s : State) (c v d : Nat) (p : Option Nat) (l : List (Nat × Nat)) : (s.emit c v d p l).winStep = s.winStep := by
  unfold State.emit; dsimp only; split <;> rfl
@[simp] theorem State.emit_lastStep (s : State) (c v d : Nat) (p : Option Nat) (l : List (Nat × Nat)) : (s.emit c v d p l).lastStep = s.lastStep := by
  unfold State.emit; dsimp only; split <;> rfl
@[simp] theorem State.emit_manyRun (s : State) (c v d : Nat) (p : Option Nat) (l : List (Nat × Nat)) : (s.emit c v d p l).manyRun = s.manyRun := by
  unfold State.emit; dsimp only; split <;> rfl
@[simp] theorem State.emit_govSince (s : State) (c v d : Nat) (p : Option Nat) (l : List (Nat × Nat)) : (s.emit c v d p l).govSince = s.govSince := by
  unfold State.emit; dsimp only; split <;> rfl
@[simp] theorem State.emit_billets (s : State) (c v d : Nat) (p : Option Nat) (l : List (Nat × Nat)) : (s.emit c v d p l).billets = s.billets := by
  unfold State.emit; dsimp only; split <;> rfl
@[simp] theorem State.emit_flashWear (s : State) (c v d : Nat) (p : Option Nat) (l : List (Nat × Nat)) : (s.emit c v d p l).flashWear = s.flashWear := by
  unfold State.emit; dsimp only; split <;> rfl
@[simp] theorem State.emit_embers (s : State) (c v d : Nat) (p : Option Nat) (l : List (Nat × Nat)) : (s.emit c v d p l).embers = s.embers := by
  unfold State.emit; dsimp only; split <;> rfl
@[simp] theorem State.emit_ident (s : State) (c v d : Nat) (p : Option Nat) (l : List (Nat × Nat)) : (s.emit c v d p l).ident = s.ident := by
  unfold State.emit; dsimp only; split <;> rfl
@[simp] theorem State.emit_shut (s : State) (c v d : Nat) (p : Option Nat) (l : List (Nat × Nat)) : (s.emit c v d p l).shut = s.shut := by
  unfold State.emit; dsimp only; split <;> rfl
@[simp] theorem State.emit_faultPin (s : State) (c v d : Nat) (p : Option Nat) (l : List (Nat × Nat)) : (s.emit c v d p l).faultPin = s.faultPin := by
  unfold State.emit; dsimp only; split <;> rfl
@[simp] theorem State.emit_stwQ (s : State) (c v d : Nat) (p : Option Nat) (l : List (Nat × Nat)) : (s.emit c v d p l).stwQ = s.stwQ := by
  unfold State.emit; dsimp only; split <;> rfl
@[simp] theorem State.emit_tlm (s : State) (c v d : Nat) (p : Option Nat) (l : List (Nat × Nat)) : (s.emit c v d p l).tlm = s.tlm := by
  unfold State.emit; dsimp only; split <;> rfl
@[simp] theorem State.emit_mon (s : State) (c v d : Nat) (p : Option Nat) (l : List (Nat × Nat)) : (s.emit c v d p l).mon = s.mon := by
  unfold State.emit; dsimp only; split <;> rfl
@[simp] theorem State.emit_heatCool (s : State) (c v d : Nat) (p : Option Nat) (l : List (Nat × Nat)) : (s.emit c v d p l).heatCool = s.heatCool := by
  unfold State.emit; dsimp only; split <;> rfl
@[simp] theorem State.emit_thmRun (s : State) (c v d : Nat) (p : Option Nat) (l : List (Nat × Nat)) : (s.emit c v d p l).thmRun = s.thmRun := by
  unfold State.emit; dsimp only; split <;> rfl
@[simp] theorem State.emit_thmAt (s : State) (c v d : Nat) (p : Option Nat) (l : List (Nat × Nat)) : (s.emit c v d p l).thmAt = s.thmAt := by
  unfold State.emit; dsimp only; split <;> rfl
@[simp] theorem State.emit_coolSince (s : State) (c v d : Nat) (p : Option Nat) (l : List (Nat × Nat)) : (s.emit c v d p l).coolSince = s.coolSince := by
  unfold State.emit; dsimp only; split <;> rfl
@[simp] theorem State.emit_praise (s : State) (c v d : Nat) (p : Option Nat) (l : List (Nat × Nat)) : (s.emit c v d p l).praise = s.praise := by
  unfold State.emit; dsimp only; split <;> rfl
@[simp] theorem State.emit_sdRecs (s : State) (c v d : Nat) (p : Option Nat) (l : List (Nat × Nat)) : (s.emit c v d p l).sdRecs = s.sdRecs := by
  unfold State.emit; dsimp only; split <;> rfl
@[simp] theorem State.emit_wts (s : State) (c v d : Nat) (p : Option Nat) (l : List (Nat × Nat)) : (s.emit c v d p l).wts = s.wts := by
  unfold State.emit; dsimp only; split <;> rfl
@[simp] theorem State.emit_kdl (s : State) (c v d : Nat) (p : Option Nat) (l : List (Nat × Nat)) : (s.emit c v d p l).kdl = s.kdl := by
  unfold State.emit; dsimp only; split <;> rfl
@[simp] theorem State.emit_wall (s : State) (c v d : Nat) (p : Option Nat) (l : List (Nat × Nat)) : (s.emit c v d p l).wall = s.wall := by
  unfold State.emit; dsimp only; split <;> rfl
@[simp] theorem State.emit_ageWall (s : State) (c v d : Nat) (p : Option Nat) (l : List (Nat × Nat)) : (s.emit c v d p l).ageWall = s.ageWall := by
  unfold State.emit; dsimp only; split <;> rfl
@[simp] theorem State.emit_flashAges (s : State) (c v d : Nat) (p : Option Nat) (l : List (Nat × Nat)) : (s.emit c v d p l).flashAges = s.flashAges := by
  unfold State.emit; dsimp only; split <;> rfl
@[simp] theorem State.emit_inject (s : State) (c v d : Nat) (p : Option Nat) (l : List (Nat × Nat)) : (s.emit c v d p l).inject = s.inject := by
  unfold State.emit; dsimp only; split <;> rfl

/-- An event changes the counts of the event buffer and no other register. -/
theorem State.get_emit (s : State) (c v d : Nat) (p : Option Nat) (l : List (Nat × Nat)) (h : Fld) (jx : Ix) (hr : h.reg ≠ .nirEvqCnt) :
    (s.emit c v d p l).get h jx = s.get h jx := by
  unfold State.emit; dsimp only; split
  · exact State.get_set_reg _ F.nirEvqCnt.lost h _ jx _ (fun e => hr e.symm)
  · exact State.get_set_reg _ F.nirEvqCnt.held h _ jx _ (fun e => hr e.symm)

end Sys2Proof.Machine
end

