-- ==== Sys2Proof/Laws/Frames.lean ====
section
/-!
SUPPORT. How frames compose: through writes of fields, events, outputs and updates outside the register file.
-/

namespace Sys2Proof
open Sys2Proof.Machine

theorem FieldsBut.refl (l : List (Fld × Ix)) (s : State) : FieldsBut l s s := fun _ _ _ => rfl

theorem FieldsBut.set {l : List (Fld × Ix)} {s t : State} (h : FieldsBut l s t) (f : Fld) (ix : Ix) (v : Nat) (hm : (f, ix) ∈ l) :
    FieldsBut l s (t.set f ix v) := fun g jx hg => by
  rw [State.get_set_ne _ _ _ _ _ _ (hg (f, ix) hm)]; exact h g jx hg

theorem FieldsBut.congr {l : List (Fld × Ix)} {s t u : State} (h : FieldsBut l s t) (e : u.regs = t.regs) : FieldsBut l s u :=
  fun g jx hg => by rw [State.get_congr e]; exact h g jx hg

theorem RegsBut.refl (l : List Reg) (s : State) : RegsBut l s s := fun _ _ _ => rfl

theorem RegsBut.set {l : List Reg} {s t : State} (h : RegsBut l s t) (f : Fld) (ix : Ix) (v : Nat) (hm : f.reg ∈ l) :
    RegsBut l s (t.set f ix v) := fun g jx hg => by
  rw [State.get_set_reg _ _ _ _ _ _ (fun e => hg (e ▸ hm))]; exact h g jx hg

theorem RegsBut.congr {l : List Reg} {s t u : State} (h : RegsBut l s t) (e : u.regs = t.regs) : RegsBut l s u :=
  fun g jx hg => by rw [State.get_congr e]; exact h g jx hg

theorem RegsBut.emit {l : List Reg} {s t : State} (h : RegsBut l s t) (c v d : Nat) (p : Option Nat) (q : List (Nat × Nat))
    (hm : Reg.nirEvqCnt ∈ l) : RegsBut l s (t.emit c v d p q) := fun g jx hg => by
  rw [State.get_emit _ _ _ _ _ _ _ _ (fun e => hg (e ▸ hm))]; exact h g jx hg

theorem RegsBut.trans {l : List Reg} {s t u : State} (h : RegsBut l s t) (k : RegsBut l t u) : RegsBut l s u :=
  fun g jx hg => (k g jx hg).trans (h g jx hg)

theorem RegsBut.mono {l m : List Reg} {s t : State} (h : RegsBut l s t) (hs : ∀ r ∈ l, r ∈ m) : RegsBut m s t :=
  fun g jx hg => h g jx (fun hr => hg (hs _ hr))

end Sys2Proof
end

