-- ==== Sys2Proof/Laws/Clock.lean ====
section
/-!
SUPPORT. What the shared operations of clock steps do: retuning, requests, frames to neighbours, announcements.
-/

namespace Sys2Proof.Machine
open Sys2Proof

theorem retune_spec (s : State) : FieldsBut [(F.nirTimeStep.standby_locked, Ix.mod)] s (retune s) ∧ Quiet s (retune s) ∧
    (retune s).stepReqs = s.stepReqs ∧ (retune s).inject = s.inject := by
  unfold retune; split
  · exact ⟨FieldsBut.refl _ _, ⟨rfl, rfl, rfl, rfl, rfl, rfl⟩, rfl, rfl⟩
  · refine ⟨FieldsBut.set (t := { s with standby := _, pllLock := [] }) (FieldsBut.congr (FieldsBut.refl _ _) rfl) _ _ _ (by simp), ⟨rfl, rfl, rfl, rfl, rfl, rfl⟩, rfl, rfl⟩

/-- A request is recorded; only the report of the standby PLLs may change in the register file. -/
theorem requestStep_spec (src : StepSource) (k : Nat) (s : State) :
    FieldsBut [(F.nirTimeStep.standby_locked, Ix.mod)] s (requestStep src k s) ∧ Quiet s (requestStep src k s) ∧
      Map.find (requestStep src k s).stepReqs src = some (min k 5) := by
  have h := retune_spec { s with stepReqs := Map.put s.stepReqs src (min k 5) }
  unfold requestStep
  dsimp only
  split
  · refine ⟨FieldsBut.congr h.1 rfl, h.2.1, ?_⟩
    show Map.find (retune _).stepReqs src = _
    rw [h.2.2.1]; simp
  · exact ⟨h.1, h.2.1, by rw [h.2.2.1]; simp⟩

theorem announceStep_spec (k at_ : Nat) (s : State) :
    (announceStep k at_ s).get F.nirTimeStep.next_step Ix.mod = k % 8 ∧ (announceStep k at_ s).get F.nirTimeStep.pending Ix.mod = 1 ∧
      (announceStep k at_ s).get F.nirTimeStepAt.stitch Ix.mod = at_ % 2 ^ 64 ∧ (announceStep k at_ s).inject = s.inject ∧
      FieldsBut [(F.nirTimeStep.next_step, Ix.mod), (F.nirTimeStep.pending, Ix.mod), (F.nirTimeStepAt.stitch, Ix.mod)] s (announceStep k at_ s) ∧
      Quiet s (announceStep k at_ s) := by
  unfold announceStep
  refine ⟨?_, ?_, ?_, rfl, ?_, ⟨rfl, rfl, rfl, rfl, rfl, rfl⟩⟩
  · show (State.set _ _ _ _).get _ _ = _
    rw [State.get_set_reg _ _ _ _ _ _ (by decide)]
    show (State.set _ _ _ _).get _ _ = _
    rw [State.get_set_lo _ _ _ _ _ _ (by decide)]
    exact State.get_set_same _ _ _ _
  · show (State.set _ _ _ _).get _ _ = _
    rw [State.get_set_reg _ _ _ _ _ _ (by decide)]
    exact State.get_set_same _ _ _ _
  · exact State.get_set_same _ _ _ _
  · exact FieldsBut.congr (FieldsBut.set (FieldsBut.set (FieldsBut.set (FieldsBut.refl _ _) _ _ _ (by simp)) _ _ _ (by simp)) _ _ _ (by simp)) rfl

/-- Frames to several ports: only the frames waiting for injection grow. -/
theorem sendStepFrames_spec (ps : List Nat) (t k : Nat) (s : State) :
    ∃ fs, forAll ps (fun p s => sendStepFrame p t k s) s = { s with inject := s.inject ++ fs } ∧ fs.length = ps.length := by
  induction ps generalizing s with
  | nil => exact ⟨[], by simp [forAll], rfl⟩
  | cons p ps ih =>
    obtain ⟨fs, h, hl⟩ := ih (sendStepFrame p t k s)
    refine ⟨?_, ?_, ?_⟩
    · exact ((sendStepFrame p t k s).inject.drop s.inject.length) ++ fs
    · show forAll ps _ (sendStepFrame p t k s) = _
      rw [h]; simp [sendStepFrame]
    · simp [sendStepFrame, hl]

end Sys2Proof.Machine
end

