-- ==== Sys2Proof/Tests/Slice0.lean ====
section
/-!
SUPPORT. Tests on small states, one step each: for every statement a state and operands that meet its hypotheses, and for every check
of WellFormed a command it refuses.  Expected values are computed by hand from the spec's words.
-/

namespace Sys2Proof.Tests
open Sys2Proof Sys2Proof.Machine

set_option Elab.async false

/-- A state with some fields set. -/
def st (l : List (Fld × Ix × Nat)) (s : State := State.reset) : State := l.foldl (fun s e => s.set e.1 e.2.1 e.2.2) s

/-- The state after a command. -/
def ran (i : Instr) (s : State) : State :=
  match exec i s with
  | .next t => t
  | _ => State.reset

/-- The state after a step. -/
def stepped (s : State) : State :=
  match step s with
  | .next t => t
  | _ => State.reset

def c0 : CoreId := ⟨0, 0, 0⟩
def k0 : CluId := ⟨0, 0⟩
def a0 : ArrId := ⟨0, 0, 0, 0⟩

/-- Core 0 runs on lit die 0 of a module whose counters run. -/
def run0 (l : List (Fld × Ix × Nat) := []) : State :=
  st ([(F.nirIdInfo.grade, Ix.mod, 0), (F.nirFpDie.state, Ix.mod 0, 1), (F.cluPwrStat.state, k0.ix, rOn), (F.coreSeqTask.state, c0.ix, qRun)] ++ l)
    { State.reset with running := true, stitch := 100 }

/-! ## The queue, time and clock steps -/

theorem test_step_front :
    State.reset.pending = [] ∧ (stepped { State.reset with pending := [.ceilStepWrite 3] }).stepReqs = [(.ceil, 3)] := by decide +kernel

theorem test_sound_step : Sound State.reset ∧ (stepped State.reset).cc = 1 := by
  unfold Sound
  decide +kernel

theorem test_boundary_counts : (run0).running = true ∧ (ran .stitchBoundary run0).stitch = 101 := by decide +kernel

theorem test_boundary_halts :
    let s := (run0).setCore c0 { stopAt := some 1616 }
    (s.core c0).stopAt = some 1616 ∧ 1616 ≤ 16 * ((s.stitch + 1) % 2 ^ 64) ∧ s.get F.coreSeqTask.state c0.ix = qRun ∧
      (ran .stitchBoundary s).get F.coreSeqTask.state c0.ix = qHalted := by decide +kernel

theorem test_boundary_quiet :
    let s := run0
    s.kdl.owed = [] ∧ s.seqs = [] ∧ s.sbufClear = [] ∧ s.ctxs = [] ∧ s.reqQ = [] ∧ s.wts.jobs = [] ∧ s.running = true := by decide +kernel

theorem test_stitch_lo :
    let s := { run0 with stitch := 2 ^ 64 - 1 }
    s.stitch < 2 ^ 64 ∧ (ran .stitchLoRead s).out = [.answer 0xFFFFFFFF true] := by decide +kernel

/-- The last stitch in which a loss of lock withdraws step S: S − 40 (R44). -/
theorem test_lock_loss_withdraws :
    let s := run0 [(F.nirTimeStep.pending, Ix.mod, 1), (F.nirTimeStepAt.stitch, Ix.mod, 140)]
    s.bit F.nirTimeStep.pending Ix.mod = true ∧ s.stitch + 40 ≤ s.stepAt ∧ s.committed = false ∧
      (ran (.standbyPllLockLoss 0) s).bit F.nirTimeStep.pending Ix.mod = false := by decide +kernel

theorem test_lock_loss_late :
    let s := run0 [(F.nirTimeStep.pending, Ix.mod, 1), (F.nirTimeStepAt.stitch, Ix.mod, 139)]
    s.bit F.nirTimeStep.pending Ix.mod = true ∧ s.stepAt < s.stitch + 40 ∧ (ran (.standbyPllLockLoss 0) s).bit F.nirTimeStep.pending Ix.mod = true := by decide +kernel

theorem test_relock :
    let s := run0
    (∀ x ∈ s.litDies, x = 0 ∨ x ∈ s.pllLock) ∧ (ran (.pllRelock 0) s).get F.nirTimeStep.standby_locked Ix.mod = 1 := by decide +kernel

theorem test_ceil_step : (ran (.ceilStepWrite 7) run0).get F.nirTimeStep.ceil_step Ix.mod = 5 ∧
    (ran (.clockStepRequest .ceil) run0).stepReqs = [(.ceil, 0)] := by decide +kernel

/-- A step-down is announced 64 st ahead (R40). -/
theorem test_announce :
    let s := { run0 with stepReqs := [(.ceil, 1)], standby := 1, pllLock := [0] }
    let s := s.set F.nirTimeStep.cur_step Ix.mod 0
    s.stitch + 4096 < 2 ^ 64 ∧ s.nextStep = some 1 ∧ s.canAnnounce 1 = true ∧ s.lockstep = false ∧
      (ran (.clockStepAnnounce 0) s).get F.nirTimeStepAt.stitch Ix.mod = 164 := by decide +kernel

theorem test_announce_lockstep :
    let s := { run0 with stepReqs := [(.ceil, 1)], standby := 1, pllLock := [0] }
    let s := st [(F.nirTimeStep.cur_step, Ix.mod, 0), (F.nirTorusTcfg.lockstep, Ix.mod, 1), (F.nirTorusTcfg.tparent, Ix.mod, 6)] s
    s.nextStep = some 1 ∧ s.canAnnounce 1 = true ∧ s.lockstep = true ∧ s.timeRoot = true ∧
      (s.set F.nirTorusTcfg.tparent Ix.mod 0).timeRoot = false ∧ (s.set F.nirTorusTcfg.tparent Ix.mod 0).lockstep = true ∧
      (ran (.clockStepAnnounce 0) s).get F.nirTimeStepAt.stitch Ix.mod = 4196 := by decide +kernel

theorem test_announce_none :
    let s := run0
    s.nextStep = none ∧ ran (.clockStepAnnounce 0) s = s := by decide +kernel

theorem test_commit :
    let s := run0 [(F.nirTimeStep.pending, Ix.mod, 1), (F.nirTimeStepAt.stitch, Ix.mod, 140)]
    s.bit F.nirTimeStep.pending Ix.mod = true ∧ s.stepAt ≤ s.stitch + 40 ∧ (ran .stepCommit s).committed = true := by decide +kernel

theorem test_step_effect :
    let s := run0 [(F.nirTimeStep.pending, Ix.mod, 1), (F.nirTimeStepAt.stitch, Ix.mod, 100), (F.nirTimeStep.cur_step, Ix.mod, 2),
      (F.nirTimeStep.next_step, Ix.mod, 3)]
    s.bit F.nirTimeStep.pending Ix.mod = true ∧ s.stepAt ≤ s.stitch ∧ s.curStep < s.get F.nirTimeStep.next_step Ix.mod ∧ 0 ∈ s.litDies ∧
      0 ∉ s.pllLock ∧ (ran .clockStepEffect s).get F.nirTimeStepCount.down Ix.mod = 1 ∧ Map.find (ran .clockStepEffect s).dying 0 = some 2 := by
  decide +kernel

theorem test_step_effect_up :
    let s := run0 [(F.nirTimeStep.pending, Ix.mod, 1), (F.nirTimeStepAt.stitch, Ix.mod, 100), (F.nirTimeStep.cur_step, Ix.mod, 3),
      (F.nirTimeStep.next_step, Ix.mod, 2)]
    s.get F.nirTimeStep.next_step Ix.mod ≤ s.curStep ∧ (ran .clockStepEffect s).get F.nirTimeStepCount.up Ix.mod = 1 := by decide +kernel


theorem test_step_last_cycle :
    let s := { run0 with cc := 15 }
    s.pending = [] ∧ 15 ≤ s.cc ∧ s.cores = [] ∧ s.planeQ = [] ∧ s.syncQ = [] ∧ stepped s = s := by decide +kernel

theorem test_lock_loss_idle :
    let s := run0 [(F.nirTimeStep.standby_locked, Ix.mod, 1)]
    s.bit F.nirTimeStep.pending Ix.mod = false ∧ (ran (.standbyPllLockLoss 0) s).bit F.nirTimeStep.standby_locked Ix.mod = false ∧
      (ran (.standbyPllLockLoss 0) s).eventSeq = 1 := by decide +kernel

/-- A step-down waits for the standby PLLs (R42); before the end of K4 there is none (R45). -/
theorem test_announce_waits :
    let s := { run0 with stepReqs := [(.ceil, 1)], standby := 1 }.set F.nirTimeStep.cur_step Ix.mod 0
    s.nextStep = some 1 ∧ s.canAnnounce 1 = false ∧ ran (.clockStepAnnounce 0) s = s ∧ { s with running := false }.nextStep = none := by decide +kernel
/-! ## Array engines -/

/-- Array 0 of core 0 is enabled, calibrated and alone in group 0; the destination is its scratchpad from line 0. -/
def arr0 (l : List (Fld × Ix × Nat) := []) : State :=
  run0 ([(F.coreAgrp.mask, c0.ix 0, 1), (F.arrCfg.enable, a0.ix, 1), (F.arrCfg.wide_ok, a0.ix, 1), (F.arrState.state, a0.ix, aIdle),
    (F.coreCalrecStat.valid, a0.ix, 1), (F.coreSeqBound.bound, c0.ix 0, 0x100000), (F.coreCredCfg.peak, c0.ix, 64), (F.coreSeqTask.anchor, c0.ix, 1),
    (F.coreCredEff.budget, c0.ix 0, 16384), (F.coreCredTab.budget, c0.ix 0, 16384)] ++ l)

/-- The window check and the credit check give what is expected. -/
theorem located_of {x : Except SFault Nat} {b : Nat} (h : x.toOption = some b) : x = .ok b := by
  cases x with
  | error e => cases h
  | ok a => exact congrArg _ (Option.some.inj h)

theorem test_array_ready : arrayReady .exact arr0 c0 0 0 0 0 := by
  refine ⟨?_, ?_, ?_, located_of ?_, ?_, ?_, ?_, ?_, ?_, ?_⟩
  · unfold canA
    decide +kernel
  all_goals decide +kernel

theorem test_array_wide_ready : arrayReady .wide arr0 c0 0 0 0 0 := by
  refine ⟨?_, ?_, ?_, located_of ?_, ?_, ?_, ?_, ?_, ?_, ?_⟩
  · unfold canA
    decide +kernel
  all_goals decide +kernel

/-- An exact operation of INT8 codes: two windows of eight planes, sixteen cycles each (R75). -/
theorem test_amv_times :
    let s := (arr0).setCore c0 { latches := [(0, { fmt := 0 })] }
    ((ran (.amv c0 0 0 0) s).core c0).ops.map (fun o => (o.arr, o.doneAt)) = [(0, 1600 + 16 * 16 + 8)] ∧
      ((ran (.amvw c0 0 0 0) s).engine a0).reissueAt = 1600 + 16 * 8 := by decide +kernel

/-- The oldest due operation of an array completes, behind one of another array (R74). -/
theorem test_op_complete :
    let o : ArrayOp := { arr := 0, doneAt := 1600, clips := 3, lines := [{ enter := 1600, arr := 0, line := 2, data := [], sat := false, err := false }] }
    let s := (run0).setCore c0 { ops := [{ o with arr := 1, lines := [] }, o, { o with clips := 0, lines := [] }] }
    let t := ran (.arrayOpComplete a0) s
    o.arr = a0.arr.val ∧ o.doneAt ≤ s.now ∧ o.counted = false ∧ (t.core c0).ops.length = 2 ∧ t.get F.arrClip.count a0.ix = 3 ∧
      t.get F.arrOps.count a0.ix = 1 := by decide +kernel

/-- Bank 2 is in the array-result-write position in a cycle where (cycle + bank) mod 8 is 3 (Table 02.5); the second line of the cycle waits. -/
theorem test_result_line :
    let l : ResultLine := { enter := 1600, arr := 0, line := 3, data := [1#8, 2#8], sat := true, err := false }
    let s := { (run0).setCore c0 { lines := [l, { l with arr := 1, line := 11 }] } with cc := 6 }
    let t := ran (.resultLineWrite c0) s
    (s.core c0).lineAt ≤ s.now ∧ s.wheelRuns 0 = true ∧ nextLine s.now (awBank s.now) (s.core c0).lines = some l ∧
      s.ueIn (spadAddr c0 (256 * l.line)) l.data.length = none ∧ Sound s ∧
      Memory.readN t.mem (spadAddr c0 768) 3 = [1#8, 2#8, 0#8] ∧ ran (.resultLineWrite c0) t = t := by
  unfold Sound
  decide +kernel

theorem test_ldl :
    let s := arr0
    (s.located c0 0 (2 * 128) (latchBytes (2 : Fin 4))).toOption = some 256 ∧ (s.core c0).loads = [] ∧
      ((ran (.ldl c0 1 2 2) s).core c0).loads.length = 1 := by decide +kernel

theorem test_xset :
    let s := (arr0 [(F.coreArrstat.streaming, c0.ix, 1), (F.coreSeqSt.stitch, c0.ix 0, 101)])
    s.bit F.coreArrstat.streaming c0.ix = true ∧ s.stitch < s.stReg c0 0 ∧ ((ran (.xset c0 0) s).core c0).exchange = some 101 ∧
      (arr0).bit F.coreArrstat.streaming c0.ix = false := by decide +kernel

theorem test_latch_lands :
    let s := (arr0).setCore c0 { loads := [⟨1, 1, 256, 1601, 0⟩, ⟨2, 1, 512, 1600, 0⟩] }
    s.now < 1601 ∧ s.lineFault (spadAddr c0 512) (latchBytes 1) = none ∧ s.upsets = [] ∧ (Map.getD (s.core c0).latches 2 {}).busyUntil ≤ s.now ∧
      ((ran (.latchLanding c0) s).core c0).loads.length = 1 ∧ (Map.getD ((ran (.latchLanding c0) s).core c0).latches 2 {}).fmt = 1 := by
  decide +kernel

theorem test_latch_busy :
    let s := (arr0).setCore c0 { loads := [⟨2, 1, 512, 1600, 0⟩], latches := [(2, { busyUntil := 1601 })] }
    s.now < (Map.getD (s.core c0).latches 2 {}).busyUntil ∧ s.bit F.coreSfltRec.valid c0.ix = false ∧
      (ran (.latchLanding c0) s).get F.coreSfltRec.code c0.ix = sLatch := by decide +kernel

theorem test_exchange :
    let s := (arr0 [(F.coreArrstat.streaming, c0.ix, 1)]).setCore c0 { exchange := some 100 }
    (s.core c0).exchange = some 100 ∧ 16 * 100 ≤ s.now ∧ s.loading a0 = true ∧
      (ran (.setExchange c0) s).get F.coreArrstat.compute_set c0.ix = 1 := by decide +kernel

/-- An access on the row grid waits at its port; a cut row is refused whole, one past the planes counted (R12, R87). -/
theorem test_row_write :
    let s := arr0
    let d := List.replicate 32 1#8
    d.length = 32 * 1 ∧ (ran (.rowWrite c0 0 d) s).planeQ.length = 1 ∧ (ran (.rowWrite c0 1 [7#8]) s).get F.arrErr.align a0.ix = 1 ∧
      (ran (.rowWrite c0 0x80000 d) s).addrFaults = [(0, 1)] := by decide +kernel

/-- An access of one row at port 1 of core 0. -/
def plane0 (read : Bool) : PlaneAcc := { core := c0, port := 1, ofs := 0, data := if read then [] else List.replicate 32 1#8, rows := 1, read := read }

theorem test_row_lands :
    let s := { arr0 with planeQ := [plane0 false] }
    let t := stepped s
    (Sound s ∧ s.pending = [] ∧ s.cc < 15 ∧ s.upsets = []) ∧ s.planeTurn c0 = some (plane0 false) ∧ (plane0 false).xfer = none ∧
      s.acceptsWrite (c0.arr (planeArr 0)) = true ∧ Memory.read t.mem (fab 4 0 0 0 31) = 1#8 ∧
      Memory.read t.mem (fab 4 0 0 0 32) = 0#8 ∧ t.planeQ = [] := by
  unfold Sound
  decide +kernel

/-- Port 0 goes first (R88). -/
theorem test_row_port :
    let q : PlaneAcc := { plane0 true with port := 0 }
    { arr0 with planeQ := [plane0 false, q] }.planeTurn c0 = some q := by decide +kernel

theorem test_row_rejected :
    let s := fun r => { arr0 [(F.arrState.state, a0.ix, aOff)] with planeQ := [plane0 r] }
    (s false).acceptsWrite (c0.arr (planeArr 0)) = false ∧ (s true).acceptsRead (c0.arr (planeArr 0)) = false ∧
      (stepped (s false)).get F.arrErr.busy_rej a0.ix = 1 ∧ (stepped (s true)).get F.arrAccrej.rd_rej a0.ix = 1 := by decide +kernel

theorem test_row_readback :
    let s := { arr0 with planeQ := [plane0 true] }
    s.acceptsRead (c0.arr (planeArr 0)) = true ∧ ((stepped s).core c0).portFree = s.now + 2 ∧ (stepped s).out.length = 1 := by decide +kernel

theorem test_clear_done :
    let s := { (arr0 [(F.arrState.state, a0.ix, aClearing)]).setEngine a0 { clearEnd := some 1600 } with mem := [(planeAddr a0 0, 1#8), (planeAddr a0 8192, 2#8)] }
    (s.engine a0).clearAfter = none ∧ (s.engine a0).clearEnd = some 1600 ∧ 1600 ≤ s.now ∧ Memory.wf s.mem = true ∧
      (ran (.arrayClearDone a0) s).mem = [(planeAddr a0 8192, 2#8)] ∧ (ran (.arrayClearDone a0) s).get F.arrState.state a0.ix = aIdle := by
  decide +kernel

/-- A clear that waited for an operation starts at its end (R92). -/
theorem test_clear_waited :
    let s := (arr0 [(F.arrState.state, a0.ix, aCompute)]).setEngine a0 { clearAfter := some 1590, convEnd := 1590 }
    (s.engine a0).clearAfter = some 1590 ∧ 1590 ≤ s.now ∧ s.arrState a0 = aClearing ∧
      ((ran (.arrayClearDone a0) s).engine a0).clearEnd = some 1846 := by decide +kernel

/-- An operation may use a latch from the cycle after its load lands (R203). -/
theorem test_latch_next_cycle :
    let s := (arr0).setCore c0 { loads := [⟨0, 1, 512, 1600, 0⟩] }
    let t := ran (.latchLanding c0) s
    (t.core c0).loads = [] ∧ (t.core c0).latchLoading 0 t.now = true ∧ (t.core c0).latchLoading 0 (t.now + 1) = false := by decide +kernel
/-! ## Slot V -/

/-- Core 0 with its first vector registers all lanes equal. -/
def vec0 (vs : List (Nat × Word32)) (ss : List (Nat × Word32) := []) : State :=
  (arr0).setCore c0 { vregs := vs.map fun p => (p.1, List.replicate 32 p.2), sregs := ss }

def vr (d a b c : Fin 32) (ty : Fin 4) (sub : Fin 8 := 0) (bs : Bool := false) : VrOperands := ⟨d, a, b, c, ty, bs, sub, 0⟩

/-- The results a command posts on core 0. -/
def posted (i : Instr) (s : State) : List ResultDest := ((ran i s).core c0).results.map fun r => r.dest

theorem canV_vec0 (vs ss) (x : Bool) : canV (vec0 vs ss) c0 x := by
  unfold canV
  exact ⟨rfl, Nat.zero_le _, fun _ => Nat.zero_le _⟩

theorem freeAt_vec0 (vs ss) (lat n : Nat) : freeAt (vec0 vs ss) c0 lat n := by
  intro o h
  have : ((vec0 vs ss).core c0).results = [] := rfl
  rw [this] at h
  cases h

/-- 1.0 + 2.0 (R205). -/
theorem test_vadd :
    posted (.vadd c0 (vr 2 0 1 0 0)) (vec0 [(0, 0x3F800000#32), (1, 0x40000000#32)]) = [.vreg 2 (List.replicate 32 0x40400000#32)] := by
  decide +kernel

/-- −100 − 100 in INT8 saturates to −128 and sets ISAT (Table 06.9, R209). -/
theorem test_vsub_saturates :
    let s := vec0 [(0, BitVec.ofInt 32 (-100)), (1, 100#32)]
    posted (.vsub c0 (vr 2 0 1 0 3)) s = [.vreg 2 (List.replicate 32 (BitVec.ofInt 32 (-128))), .flags 8] := by decide +kernel

/-- 3.0 × 0.5 with B a scalar. -/
theorem test_vmul_scalar :
    let s := vec0 [(0, 0x40400000#32)] [(15, 0x3F000000#32)]
    (vr 2 0 15 0 0 0 true).b.val < 16 ∧ posted (.vmul c0 (vr 2 0 15 0 0 0 true)) s = [.vreg 2 (List.replicate 32 0x3FC00000#32)] := by decide +kernel

theorem test_vmax_vmin :
    let s := vec0 [(0, 5#32), (1, BitVec.ofInt 32 (-7))]
    posted (.vmax c0 (vr 2 0 1 0 2)) s = [.vreg 2 (List.replicate 32 5#32)] ∧
      posted (.vmin c0 (vr 2 0 1 0 2)) s = [.vreg 2 (List.replicate 32 (BitVec.ofInt 32 (-7)))] := by decide +kernel

theorem test_vfma :
    let s := vec0 [(0, 0x40000000#32), (1, 0x40400000#32), (3, 0x3F800000#32)]
    posted (.vfma c0 (vr 2 0 1 3 0)) s = [.vreg 2 (List.replicate 32 0x40E00000#32)] := by decide +kernel

theorem test_vcmp_vsel :
    let s := vec0 [(0, 5#32), (1, 6#32), (3, 0#32)]
    posted (.vcmp c0 (vr 2 0 1 0 2 1)) s = [.vreg 2 (List.replicate 32 0xFFFFFFFF#32)] ∧ posted (.vsel c0 (vr 2 0 1 3 0)) s = [.vreg 2 (List.replicate 32 6#32)] := by
  decide +kernel

theorem test_vmov_vswp :
    let s := vec0 [(0, 0x40000000#32)] [(3, 9#32)]
    posted (.vmov c0 (vr 2 0 3 0 0 1)) s = [.vreg 2 (List.replicate 32 9#32)] ∧ posted (.vmov c0 (vr 2 0 0 0 0)) s = [.vreg 2 (List.replicate 32 0x40000000#32)] ∧
      ((posted (.vswp c0 (vr 2 0 0 0 0)) s).map fun r => match r with
        | .vreg _ l => l.take 2
        | _ => []) = [[0xC0000000#32, 0x40000000#32]] := by decide +kernel

theorem test_vmovs :
    let s := (vec0 [(0, 0x40000000#32)]).set F.vecCfgTscale.t (c0.ix 15) 0x41000000
    posted (.vmovs c0 (vr 15 0 31 0 0)) s = [.sreg 15 0x40000000#32] ∧ posted (.vmovs c0 (vr 15 0 15 0 0 1)) s = [.sreg 15 0x41000000#32] := by
  decide +kernel

/-- 2.5 converts to 2 at the site that rounds to nearest even; a NaN to 0 with ISAT (R207). -/
theorem test_vcvt :
    let f : VrOperands := vr 2 0 (2 * 2 + 3 * 8) 0 0
    f.b.val % 2 = 0 ∧ 2 ≤ f.b.val / 2 % 4 ∧ 2 ≤ f.b.val / 8 ∧ posted (.vcvt c0 f) (vec0 [(0, 0x40200000#32)]) = [.vreg 2 (List.replicate 32 2#32)] ∧
      posted (.vcvt c0 f) (vec0 [(0, 0x7FC00000#32)]) = [.vreg 2 (List.replicate 32 0#32), .flags 8] := by decide +kernel

theorem test_vrsum_vrmax :
    posted (.vrsum c0 (vr 2 0 0 0 0)) (vec0 [(0, 0x3F800000#32)]) = [.vreg 2 (List.replicate 32 0x42000000#32)] ∧
      posted (.vrmax c0 (vr 2 0 0 0 2)) (vec0 [(0, BitVec.ofInt 32 (-3))]) = [.vreg 2 (List.replicate 32 (BitVec.ofInt 32 (-3)))] := by decide +kernel

/-- The reciprocal of −0 is −infinity with DZ; the exponential of −infinity is +0 (R150, Table 06.9). -/
theorem test_vrcp_zero :
    let s := vec0 [(0, 0x80000000#32)]
    posted (.vrcp c0 (vr 2 0 0 0 0)) s = [.vreg 2 (List.replicate 32 0xFF800000#32), .flags 4] ∧
      ((ran (.vrcp c0 (vr 2 0 0 0 0)) s).core c0).nextX = s.now + 2 ∧ posted (.vexp c0 (vr 2 0 0 0 0)) (vec0 [(0, 0xFF800000#32)]) = [.vreg 2 (List.replicate 32 0#32)] := by
  decide +kernel

/-- Bank 0 is in the vector position in cycle 0 of a stitch (Table 02.5). -/
theorem test_vector_memory :
    let s := vec0 [(0, 0x01020304#32)] [(5, 0xAABBCCDD#32)]
    (s.effOffset c0 (0 * 32) (vmSize 4) false 0).toOption = some 0 ∧ (s.vAccess c0 0 (vmSize 4) false).toOption = some 0 ∧
      (s.vAccess c0 0 (vmSize 4) true).toOption = some 0 ∧ (s.effOffset c0 0 (2 ^ 2) false 0).toOption = some 0 ∧ s.upsets = [] ∧
      Memory.readN (ran (.vst c0 0 0 4 false 0) s).mem (spadAddr c0 0) 4 = [4#8, 3#8, 2#8, 1#8] ∧
      Memory.readN (ran (.vsts c0 5 1 0 false 0) s).mem (spadAddr c0 0) 3 = [0xDD#8, 0xCC#8, 0#8] := by decide +kernel

theorem test_vector_load :
    let s := { vec0 [] with mem := [(spadAddr c0 0, 7#8), (spadAddr c0 1, 0x80#8)] }
    posted (.vlds c0 3 1 0 false 0) s = [.sreg 3 0x8007#32] ∧
      ((posted (.vld c0 1 0 3 false 0) s).map fun r => match r with
        | .vreg _ l => l.take 3
        | _ => []) = [[7#32, 0xFFFFFF80#32, 0#32]] := by decide +kernel

theorem test_writeback :
    let s := (arr0).setCore c0 { results := [{ due := 1600, dest := .sreg 3 7#32 }] }
    let t := ran (.vectorResultWriteback c0) s
    (s.core c0).results = [{ due := 1600, dest := .sreg 3 7#32 }] ∧ 1600 ≤ s.now ∧ t.sreg c0 3 = 7#32 ∧ (t.core c0).results = [] := by decide +kernel

/-- A block of zeros has scale 0; its quantised codes are 0 (R211, R212). -/
theorem test_qsc_qnt :
    let s := vec0 [(0, 0#32), (1, 0#32), (2, 0#32), (3, 0#32)] [(4, 0#32)]
    kindFmtOk 0 1 = true ∧ (0 : Fin 32).val % kindRegs 0 = 0 ∧ posted (.qsc c0 0 0 1 3 4 0) s = [.sreg 4 0x30000#32] ∧
      (s.vreg c0 3).length = 32 ∧ ((ran (.qnt c0 8 0 1 0 0 0 0 0 4) s).get F.vecPcntElems.count (c0.ix 0)) = 128 := by decide +kernel

/-- Scale 0xFF dequantises to +0 in every lane and counts (R214). -/
theorem test_vdq_bad_scale :
    let s := vec0 [] [(4, 0xFF#32)]
    4 * (QFmt.ofCode (1 : Fin 4)).bits * ((7 : Fin 8) + 1) ≤ 128 ∧ (s.sreg c0 4).toNat % 256 = 0xFF ∧
      posted (.vdq c0 2 0 1 0 4 0) s = [.vreg 2 (List.replicate 32 0#32)] ∧
      (ran (.vdq c0 2 0 1 0 4 0) s).get F.vecPcntScales.badscale (c0.ix 0) = 1 := by decide +kernel

theorem test_tiles :
    let s := vec0 []
    (s.vAccess c0 (0 * 256) 256 true).toOption = some 0 ∧ (s.tileAccess c0 0).toOption = some 0 ∧ s.upsets = [] ∧ (QFmt.ofCode (1 : Fin 4)).cols = 64 ∧
      ((ran (.vpsc c0 0 0 0 0 1 0 0 0 true 0) s).core c0).results.length = 2 ∧ ((ran (.vqkt c0 2 0 0 0 0 0 0 true 0) s).core c0).results.length = 1 ∧
      ((ran (.vpvt c0 2 0 0 0 0 0 0 true 0) s).core c0).results.length = 1 := by decide +kernel

/-- No score: the exponentials are 0, the rescaling factor 1 and the maximum −infinity (R216). -/
theorem test_vsmx_empty :
    let s := vec0 [] [(9, 0#32)]
    ((posted (.vsmx c0 2 0 0 9 true) s).take 2) = [.vreg 2 (List.replicate 32 0#32), .sreg 0 0xFF800000#32] := by decide +kernel

theorem test_vctx :
    posted (.vctx c0 2 4 5 7) (vec0 [] [(2, 1#32), (3, 2#32), (4, 3#32), (5, 4#32)]) = [.ctx 0x200000001#64 7 3 4] := by decide +kernel

/-! ## Slot T and the sequencer -/

theorem test_slot_t :
    let s := (arr0 [(F.coreSeqLaunch.stitch, c0.ix, 90)]).setCore c0 { sregs := [(1, 0xFFFFFFFF#32)] }
    posted (.sli c0 3 0xFFFFF#20) s = [.sreg 3 0xFFFFFFFF#32] ∧ posted (.slh c0 1 0x123#12) s = [.sreg 1 0x123FFFFF#32] ∧
      posted (.sadd c0 2 1 2#20) s = [.sreg 2 1#32] ∧ posted (.stld c0 3 0 0 7#24) s = [.st 3 97] ∧ (ran .nop s) = s := by decide +kernel

theorem canT_arr0 : canT arr0 c0 ∧ freeAt arr0 c0 1 33 := by
  unfold canT
  refine ⟨⟨rfl, Nat.zero_le _⟩, fun o h => ?_⟩
  have : ((arr0).core c0).results = [] := rfl
  rw [this] at h
  cases h

theorem test_jump_end :
    (ran (.jmp c0 2047) arr0).pc c0 = 2047 ∧ (ran (.end_ c0) arr0).get F.coreSeqTask.state c0.ix = qDone := by decide +kernel

theorem test_loop :
    let s := arr0
    (s.core c0).loops.length < 4 ∧ s.pc c0 < 2047 ∧ ((ran (.loop_ c0 2) s).core c0).loops = [(1, 3)] := by decide +kernel

theorem test_elp :
    let s := fun n => (arr0 [(F.coreSeqPc.pc, c0.ix, 9)]).setCore c0 { loops := [(5, n), (1, 8)] }
    ((ran (.elp c0) (s 2)).core c0).loops = [(5, 1), (1, 8)] ∧ (ran (.elp c0) (s 2)).pc c0 = 5 ∧ ((ran (.elp c0) (s 1)).core c0).loops = [(1, 8)] ∧
      (ran (.elp c0) (s 1)).pc c0 = 10 := by decide +kernel

/-- The fault at stitch 100 stops the core from stitch 101 and halts its partition at 103 (R189, R190). -/
theorem test_fault :
    let s := arr0 [(F.hrnPart.dies, Ix.mod 2, 1)]
    let t := ran (.elp c0) s
    s.partOf c0.die = some 2 ∧ Map.find s.halts 2 = none ∧ (s.core c0).loops = [] ∧ s.bit F.coreSfltRec.valid c0.ix = false ∧
      t.get F.coreSfltRec.code c0.ix = sLoop ∧ (t.core c0).stopAt = some 1616 ∧ (Map.find t.halts 2).map (fun h => h.haltAt) = some 103 := by
  decide +kernel

theorem test_fault_again :
    let s := (arr0 [(F.hrnPart.dies, Ix.mod 2, 1), (F.coreSfltRec.valid, c0.ix, 1), (F.coreSfltCnt.more, c0.ix, 0xFFFF)]).setCore c0 { loops := [(0, 1), (0, 1), (0, 1), (0, 1)] }
    s.bit F.coreSfltRec.valid c0.ix = true ∧ 4 ≤ (s.core c0).loops.length ∧ (ran (.loop_ c0 1) s).get F.coreSfltCnt.more c0.ix = 0xFFFF ∧
      (ran (.stld c0 0 3 0 0) s).halts = [] ∧ (ran (.sigl c0 0 0) s).halts = [] := by decide +kernel

/-- Core 0 about to issue a bundle. -/
def withBundle (b : Nat) (l : List (Fld × Ix × Nat)) (k : Core := {}) : State :=
  { (arr0 l).setCore c0 k with mem := Memory.writeList [] (bundleAddr c0 0) (natToBytes 16 b) }

/-- A NEXT launch with GAP 0 and empty slots moves the counter on (R170, R171). -/
theorem test_bundle :
    let s := withBundle 0 [] { prevNext := 1600 }
    s.bundle c0 % 2 ^ 120 = 0 ∧ s.pc c0 < 2047 ∧ s.get F.coreSeqTask.state c0.ix = qRun ∧ s.notStopped c0 = true ∧ launchOf (s.bundle c0) / 64 = 0 ∧
      s.now = (s.core c0).prevNext + launchOf (s.bundle c0) % 64 ∧ (ran (.bundleIssue c0) s).pc c0 = 1 := by decide +kernel

/-- A STITCH launch for cycle 0 of the stitch in ST[0]; one cycle later its target has passed (R172). -/
theorem test_stitch_launch :
    let s := fun n => withBundle (0x40 * 2 ^ 120) [(F.coreSeqTask.state, c0.ix, qWaitStitch), (F.coreSeqSt.stitch, c0.ix 0, 100)] { prevNext := n }
    launchOf ((s 1600).bundle c0) / 64 = 1 ∧ (s 1600).get F.coreSeqTask.state c0.ix = qWaitStitch ∧ (s 1600).notStopped c0 = true ∧
      (ran (.stitchLaunch c0) (s 1600)).pc c0 = 1 ∧
      (s 1601).now < 1601 ∧ (ran (.stitchLaunch c0) { s 1601 with cc := 1 }).get F.coreSfltRec.code c0.ix = sStitchLate := by decide +kernel

/-- A SYNC launch waits for object 0 to reach 1, with a deadline of 1 st from stitch 99 (R173). -/
theorem test_sync_launch :
    let w := 3 + 2 ^ 16 + 2 ^ 32
    let s := fun n => withBundle (0x80 * 2 ^ 120) [(F.coreSeqTask.state, c0.ix, qWaitSync), (F.coreDesc.desc, c0.ix 0, w), (F.cluSynObj.count, k0.ix 0, n)]
      { prevNext := 1584, waitFrom := 99 }
    (s 1).syncQ = [] ∧ launchOf ((s 1).bundle c0) / 64 = 2 ∧ bitsOf ((s 1).descWord c0 0) 0 4 = 3 ∧ (s 1).waitHolds c0 w = true ∧ (s 0).waitHolds c0 w = false ∧
      ((s 1).core c0).prevNext ≤ (s 1).now ∧ (ran (.syncLaunch c0) (s 1)).pc c0 = 1 ∧ 16 * (99 + 1) + 15 ≤ ({ s 0 with cc := 15 } : State).now ∧
      (ran (.syncTimeout c0) { s 0 with cc := 15 }).get F.coreSfltRec.code c0.ix = sSyncTimeout := by decide +kernel

theorem test_task_launch :
    let s := { arr0 [(F.coreSeqTask.state, c0.ix, qWaitLaunch), (F.coreSeqTask.entry, c0.ix, 40), (F.coreSeqLaunch.stitch, c0.ix, 101)] with cc := 15 }
    let t := ran (.taskLaunch c0) s
    s.get F.coreSeqTask.state c0.ix = qWaitLaunch ∧ 16 * s.get F.coreSeqLaunch.stitch c0.ix ≤ s.now + 1 ∧ t.pc c0 = 40 ∧
      t.get F.coreSeqSt.stitch (c0.ix 3) = 101 ∧ ({ s with cc := 14 } : State).now + 1 < 16 * 101 := by decide +kernel

/-- The first window boundary at or after stitch 100 + 64 is window 1 (R185). -/
theorem test_cap :
    let s := arr0 [(F.cluCredCap.cap, k0.ix, 1000), (F.cluCredCap.decl, k0.ix, 3000)]
    Map.find s.capSeen k0 ≠ some (1000, 3000) ∧ Map.find (ran (.creditCapChange k0) s).capDue k0 = some [⟨1, 1000, true⟩] ∧
      (s.set F.cluCredCap.enforced k0.ix 1).bit F.cluCredCap.enforced k0.ix = true := by decide +kernel

theorem test_cap_raised :
    let s := arr0 [(F.cluCredCap.cap, k0.ix, 3000), (F.cluCredCap.decl, k0.ix, 3000), (F.cluCredCap.enforced, k0.ix, 1)]
    s.get F.cluCredCap.decl k0.ix ≤ s.get F.cluCredCap.cap k0.ix ∧ s.bit F.cluCredCap.enforced k0.ix = true ∧
      Map.find (ran (.creditCapChange k0) s).capDue k0 = some [⟨1, 3000, false⟩] := by decide +kernel

/-- ⌊16,384 × 1,000 ÷ 3,000⌋; the change due for the next window stays. -/
theorem test_cap_applies :
    let s := { arr0 [(F.cluCredCap.cap, k0.ix, 900), (F.cluCredCap.decl, k0.ix, 3000)] with capDue := [(k0, [⟨0, 1000, true⟩, ⟨1, 900, true⟩])] }
    let t := ran (.capEnforceStart k0) s
    Map.getD s.capDue k0 [] = [] ++ ⟨0, 1000, true⟩ :: [⟨1, 900, true⟩] ∧ 256 * 0 ≤ s.stitch ∧ s.stitch < 256 * 1 ∧
      t.get F.coreCredEff.budget (c0.ix 0) = 5461 ∧ Map.getD t.capDue k0 [] = [⟨1, 900, true⟩] ∧ Map.getD (arr0).capDue k0 [] = [] := by decide +kernel

/-! ## Synchronisation, signals and the fabric -/

theorem test_sigl :
    let t := ran (.sigl c0 5 200) arr0
    t.syncQ = [⟨1601, k0, 5, false, 200, 0⟩] ∧ (ran (.srst c0 5) arr0).syncQ = [⟨1601, k0, 5, true, 0, 0⟩] := by decide +kernel

theorem test_hsig :
    (ran (.hsigWrite k0 5 200 true) arr0).syncQ = [⟨1600, k0, 5, true, 200, 6⟩] ∧ (ran (.hsigWrite k0 5 0 false) arr0) = arr0 := by
  decide +kernel

theorem test_sync_saturates :
    let s := { arr0 [(F.cluSynObj.count, k0.ix 5, 0xFFF0)] with syncQ := [⟨1599, k0, 5, false, 16, 6⟩] }
    s.syncQ = [⟨1599, k0, 5, false, 16, 6⟩] ∧ 1599 < s.now ∧ s.settleSync.get F.cluSynObj.count (k0.ix 5) = 0xFFFF ∧ s.settleSync.get F.cluSynObj.ovf (k0.ix 5) = 1 := by
  decide +kernel

/-- SIG to virtual cluster (0, 0): unbound, it is discarded and counted; bound next door, it takes a hop of two cycles. -/
theorem test_sig :
    let s := arr0 [(F.hrnPart.dies, Ix.mod 2, 1), (F.coreDesc.desc, c0.ix 0, 2 + 3 * 2 ^ 24)]
    let b := { s with tack := [(⟨2, 0, 0⟩, ⟨0, 1⟩)] }
    bitsOf (s.descWord c0 0) 0 4 = 2 ∧ bitsOf (s.descWord c0 0) 4 1 = 0 ∧ bitsOf (s.descWord c0 0) 32 1 = 0 ∧ s.bound 0 0 0 = none ∧
      (ran (.sig c0 0) s).get F.cluRtrCnt.sigdrop k0.ix = 1 ∧ b.bound 0 0 0 = some ⟨0, 1⟩ ∧ (ran (.sig c0 0) b).msgs.map (fun m => m.dst) = [⟨0, 1⟩] := by
  decide +kernel

theorem test_sig_torus :
    let s := arr0 [(F.coreDesc.desc, c0.ix 0, 2 + 2 ^ 32 + 2 ^ 33), (F.nirTorusId.sx_m1, Ix.mod, 1)]
    bitsOf (s.descWord c0 0) 32 1 = 1 ∧ s.torusOk 1 = true ∧ (ran (.sig c0 0) s).inject.length = 1 ∧ (arr0).torusOk 1 = false := by decide +kernel

/-- A message of one flit that has been in the first router for three cycles. -/
def msg0 (b : MsgBody) (tries : Nat := 0) : Msg := { body := b, src := c0, at_ := k0, dst := ⟨0, 1⟩, ready := 1600, tries := tries, since := 1597 }

/-- The signal network's port takes one update a cycle (R305). -/
theorem test_signal_message :
    let m := { msg0 (.signal 5 2) with at_ := ⟨0, 1⟩ }
    let s := { arr0 with msgs := [m] }
    let b := { s with syncQ := [⟨1600, ⟨0, 1⟩, 5, false, 7, 4⟩] }
    s.msgs[0]? = some m ∧ s.sigBlocked m.at_ m.dst = none ∧ m.ready ≤ s.now ∧ m.since + 2 ≤ s.now ∧ signalAhead s.msgs 0 m 5 = false ∧
      s.sigPortTaken m.dst = false ∧ (ran (.signalMessage 0) s).syncQ = [⟨1600, ⟨0, 1⟩, 5, false, 2, 4⟩] ∧ b.sigPortTaken m.dst = true ∧
      (ran (.signalMessage 0) b).get F.cluRtrCnt.waits (CluId.ix ⟨0, 1⟩) = 1 := by decide +kernel

theorem test_signal_blocked :
    let m := msg0 (.signal 5 2)
    let s := { arr0 with msgs := [m] }.setLink k0 2 2
    s.sigBlocked m.at_ m.dst = some 1 ∧ (k0.die.val, k0.clu.val, hopPort k0 1) ∉ s.reported ∧
      (ran (.signalMessage 0) s).get F.cluRtrCnt.sigdrop k0.ix = 1 ∧ (ran (.dynamicFlitHop 0 true) s).msgs = [] := by decide +kernel

/-- 200 and 50 merge to 250, 200 and 56 do not (R308). -/
theorem test_signal_hop :
    let s := fun n => { arr0 with msgs := [msg0 (.signal 5 200), msg0 (.signal 5 n)] }
    mergeWith (s 50).msgs 1 (msg0 (.signal 5 50)) 5 50 = some (0, 200) ∧ dimOrder k0 ⟨0, 1⟩ = some 1 ∧ cluNext k0 1 = some ⟨0, 1⟩ ∧
      (ran (.dynamicFlitHop 1 true) (s 50)).msgs.map (fun m => m.body) = [.signal 5 250] ∧
      mergeWith (s 56).msgs 0 (msg0 (.signal 5 200)) 5 200 = none ∧ (s 56).outputBusy (msg0 (.signal 5 200)) 1 = false ∧
      (s 56).outputLost 0 (msg0 (.signal 5 200)) 1 ⟨0, 1⟩ 4 = false ∧ (ran (.dynamicFlitHop 0 true) (s 56)).msgs.map (fun m => m.at_.clu.val) = [1, 0] := by
  decide +kernel

theorem test_hop :
    let m := msg0 (.xfer 7)
    let s := { arr0 with msgs := [m] }
    s.msgs[0]? = some m ∧ m.body.lane ≠ 2 ∧ s.dynNext m.at_ m.dst = some 1 ∧ cluNext m.at_ 1 = some ⟨0, 1⟩ ∧ s.hopOk m.at_ 1 = true ∧
      m.since + 3 ≤ s.now ∧ bufferFull s m ⟨0, 1⟩ (enterPort k0 ⟨0, 1⟩ 1) = false ∧ s.outputBusy m 1 = false ∧ s.outputLost 0 m 1 ⟨0, 1⟩ 4 = false ∧
      (ran (.dynamicFlitHop 0 true) s).msgs.map (fun x => (x.at_, x.since, x.port)) = [(⟨0, 1⟩, 1600, 4)] ∧ m.tries < 16 ∧
      (ran (.dynamicFlitHop 0 false) s).msgs.map (fun x => x.tries) = [1] := by decide +kernel

/-- Four flits fill the buffer of a port and channel; a completion (VC1) is served before a request. -/
theorem test_hop_waits :
    let m := msg0 (.xfer 7)
    let s := { arr0 with msgs := m :: List.replicate 4 { msg0 (.xfer 8) with at_ := ⟨0, 1⟩, dst := ⟨0, 2⟩, port := 4 } }
    let b := { arr0 with msgs := [m, msg0 (.compl 9)] }
    bufferFull s m ⟨0, 1⟩ 4 = true ∧ s.dynNext m.at_ m.dst = some 1 ∧ s.hopOk m.at_ 1 = true ∧ enterPort k0 ⟨0, 1⟩ 1 = 4 ∧ ran (.dynamicFlitHop 0 true) s = s ∧
      b.outputLost 0 m 1 ⟨0, 1⟩ 4 = true ∧ (ran (.dynamicFlitHop 0 true) b).get F.cluRtrCnt.waits k0.ix = 1 ∧
      (ran (.dynamicFlitHop 1 true) b).laneFree k0 1 1 = 1601 := by
  decide +kernel

/-- A failed check after sixteen failed retries in a row marks the link FAILED (R301); a cluster with all four links failed strands. -/
theorem test_hop_fails :
    let m := msg0 (.xfer 7) 16
    let s := { arr0 with msgs := [m] }
    let t := ran (.dynamicFlitHop 0 false) s
    let b := [1, 2, 3, 4].foldl (fun u p => u.setLink k0 p 2) s
    s.dynNext k0 ⟨0, 1⟩ = some 1 ∧ s.hopOk k0 1 = true ∧ 16 ≤ m.tries ∧ s.flights = [] ∧ t.msgs = [] ∧ t.linkState ⟨0, 1⟩ 4 = 2 ∧
      (ran (.routeTableRewrite 0) b).dynNext k0 ⟨0, 1⟩ = none := by decide +kernel

theorem test_static_lane :
    let s := arr0 [(F.hrnPart.dies, Ix.mod 2, 1)]
    let t := ran (.staticLaneError k0 6 3) s
    s.partOf 0 = some 2 ∧ Map.find s.halts 2 = none ∧ (Map.find t.halts 2).map (fun h => h.haltAt) = some 103 ∧ t.get F.cluRtrErr.port k0.ix = 6 := by
  decide +kernel

theorem test_reroute :
    let s := (arr0).setLink k0 2 2
    s.failedLinks 0 = [(0, 2)] ∧ (ran (.routeTableRewrite 0) s).rerouted = [(0, [(0, 2)])] ∧ (arr0).failedLinks 0 = [] := by decide +kernel

/-! ## Memories, transfers and windows -/

/-- Window 0 of core 0: open to class 0, offsets 0 to 0x3FFFF of its scratchpad. -/
def win0 (l : List (Fld × Ix × Nat) := []) : State :=
  arr0 ([(F.coreWin.open_, c0.ix 0, 1), (F.coreWin.srcmask, c0.ix 0, 1), (F.coreWin.size, c0.ix 0, 0x40000)] ++ l)

theorem test_arrival_ok :
    let a := spadAddr c0 0x3FF00
    let w := (win0).window .coreWin (c0.ix 0)
    (win0).coreMappedOut 0 0 0 = false ∧ (win0).gates a 256 = [] ∧ (win0).darkAt a = false ∧ w.open_ = true ∧ w.srcMask.testBit 0 = true ∧
      addrSpace a = w.space ∧ addrOfs a + 256 ≤ w.base + w.size ∧ (arrivalCheck ⟨some 0, 0⟩ a 256 0 win0).1 = xOk := by decide +kernel

/-- The other ends of the order: closed, another class, one byte past the end, a region that is off. -/
theorem test_arrival_rejected :
    let a := spadAddr c0 0x3FF00
    (arrivalCheck ⟨some 0, 0⟩ a 256 0 arr0).1 = xWindowClosed ∧ (arrivalCheck ⟨some 1, 0⟩ a 256 0 win0).1 = xSourceDenied ∧
      (arrivalCheck ⟨some 0, 0⟩ a 257 0 win0).1 = xOutOfWindow ∧ (arrivalCheck ⟨some 0, 0⟩ a 257 0 win0).2.get F.coreWinRej.range (c0.ix 0) = 1 ∧
      ((win0).set F.cluPwrStat.state k0.ix rOff).darkAt a = true ∧
      (arrivalCheck ⟨some 0, 0⟩ a 256 0 ((win0).set F.cluPwrStat.state k0.ix rOff)).2.get F.cluSbufFence.late_lines k0.ix = 1 := by decide +kernel

/-- Descriptor 0: 512 B of core 0's scratchpad on channel 3 to offset 0x1000 of core 0 of the same cluster. -/
def desc0 : Nat := 1 + 3 * 2 ^ 5 + 0x1000 * 2 ^ 88 + 512 * 2 ^ 128

def bound0 (l : List (Fld × Ix × Nat) := []) : State :=
  { win0 ([(F.hrnPart.dies, Ix.mod 2, 1), (F.coreDesc.desc, c0.ix 0, desc0)] ++ l) with tack := [(⟨2, 0, 0⟩, k0)] }

def x0 : Xfer := (bound0).xferOf c0 0 (spadAddr c0 0)

theorem test_xfer :
    let s := bound0
    let t := ran (.xfer c0 0) s
    let full := s.setChan k0 3 { queue := List.replicate 8 x0 }
    bitsOf (s.descWord c0 0) 0 4 = 1 ∧ (s.xferSource c0 0 0 512).toOption = some (spadAddr c0 0) ∧ bitsOf (s.descWord c0 0) 4 1 = 0 ∧
      (t.chan k0 3).queue = [x0] ∧ (t.mark (spadAddr c0 0x1000)).pend = 1 ∧ (full.chan k0 3).queue.length = 8 ∧
      (ran (.xfer c0 0) full).flights.map (fun x => x.status) = [some xChannelFull] := by decide +kernel

theorem test_transfer_launch :
    let x := { x0 with issued := 1599 }
    let s := (bound0).setChan k0 3 { queue := [x], freeAt := 1600 }
    let bad := { x with dst := some (spadAddr c0 0x40000) }
    (s.chan k0 3).cur = none ∧ x.issued + 1 ≤ s.now ∧ (s.chan k0 3).freeAt ≤ s.now ∧ s.launchRefusal x = none ∧
      ((ran (.transferLaunch k0 3) s).chan k0 3).cur = some 0 ∧ s.launchRefusal bad = some xAddressFault ∧ bad.status = none ∧ s.flights = [] ∧
      (ran (.transferLaunch k0 3) ((bound0).setChan k0 3 { queue := [bad], freeAt := 1600 })).flights.map (fun y => y.status) = [some xAddressFault] ∧
      s.now < (x0).issued + 1 := by decide +kernel

/-- A transfer carried by channel 3, launched, its lines still to come. -/
def carried (x : Xfer) (s : State := bound0) : State :=
  { s.setChan k0 3 { cur := some x.id } with flights := [x] }

/-- Bank 0 is in the transfer-out position in cycle 5 (Table 02.5); a pending line waits, an ERR line ends the transfer (R264, R279). -/
theorem test_source_read :
    let x := { x0 with launched := some 1600 }
    let s := { carried x with cc := 5 }
    let p := s.setMark (spadAddr c0 0) { pend := 1 }
    let e := s.setMark (spadAddr c0 0) { err := true }
    s.flight x.id = some x ∧ x.srck < 2 ∧ x.torus = none ∧ x.read < x.len ∧ wheelPos (bankOf x.src) s.now = 5 ∧ s.claims = [] ∧
      ((ran (.transferSourceRead k0 3) s).flight 0).map (fun y => y.read) = some 256 ∧ ran (.transferSourceRead k0 3) p = p ∧
      ((ran (.transferSourceRead k0 3) e).flight 0).map (fun y => y.fin) = some xMarkedSource ∧
      wheelPos (bankOf x.src) (carried x).now ≠ 5 := by decide +kernel

theorem test_completion :
    let x := { x0 with status := some xOk, landed := 512, csen := true, csobj := 9, csinc := 1 }
    let s := carried x
    let t := ran (.transferCompletion 0) s
    x.completed = false ∧ x.isReload = false ∧ x.csdst = false ∧ x.fixed = false ∧ t.get F.xferChStat.done (k0.ix 3) = 1 ∧ t.get F.xferChLast.landed (k0.ix 3) = 512 ∧
      t.syncQ = [⟨1601, k0, 9, false, 1, 5⟩] := by decide +kernel

theorem test_static_completion :
    let x := { x0 with status := some xWindowClosed, fixed := true }
    let s := carried x
    let t := ran (.transferCompletion 0) s
    xWindowClosed ≠ xOk ∧ s.bit F.coreSfltRec.valid c0.ix = false ∧ t.get F.coreSfltRec.code c0.ix = sWindow ∧ t.get F.xferChRej.rejected (k0.ix 3) = 1 := by
  decide +kernel

theorem test_arrival :
    let x := { x0 with launched := some 1590, read := 256, data := List.replicate 256 3#8, total := 512 }
    let m : Msg := { body := .xfer 0, src := c0, at_ := k0, dst := k0, ready := 1600 }
    let s := { carried x with msgs := [m] }
    x.fill = false ∧ x.granted = false ∧ x.csen = false ∧ s.msgs.zipIdx.find? (fun p => decide (p.1.body = .xfer x.id)) = some (m, 0) ∧
      s.srcClass k0 (spadAddr c0 0x1000) = some 0 ∧ ((ran (.transferArrival 0) s).flight 0).map (fun y => y.granted) = some true := by decide +kernel

/-- Bank 0 is in the transfer-in position in cycle 2. -/
theorem test_land :
    let x := { x0 with launched := some 1590, read := 512, data := List.replicate 512 3#8, total := 512, granted := true, landed := 256, dst := some (spadAddr c0 0x1000) }
    let s := { carried x with cc := 3 }
    x.total ≤ x.data.length ∧ addrSpace (spadAddr c0 0x1000) = 0 ∧ s.upsets = [] ∧ s.offered x (spadAddr c0 0x1100) (x.pos + 256) = true ∧
      (carried x).offered x (spadAddr c0 0x1100) (x.pos + 256) = false ∧
      ((ran (.transferLineLand 0) s).flight 0).map (fun y => (y.landed, y.status)) = some (512, some xOk) ∧
      Memory.read (ran (.transferLineLand 0) s).mem (spadAddr c0 0x11FF) = 3#8 := by decide +kernel

/-- A chunk of weight rows waits at the plane's port 0, row by row (R88). -/
theorem test_land_plane :
    let x := { x0 with launched := some 1590, read := 512, data := List.replicate 512 3#8, total := 512, granted := true, dst := some (fab 4 0 0 0 64) }
    let s := carried x
    addrSpace (fab 4 0 0 0 64) = 4 ∧ addrCoreId (fab 4 0 0 0 64) = some c0 ∧ s.offered x (fab 4 0 0 0 64) 32 = true ∧
      (ran (.transferLineLand 0) s).planeQ.map (fun p => (p.port, p.ofs, p.data.length, p.xfer)) = [(0, 64, 32, some 0)] ∧
      (ran (.transferLineLand 0) s).offered x (fab 4 0 0 0 96) 64 = false := by decide +kernel

/-- The first bytes of a static transfer end their legs at t + L + ⌈1 ÷ w⌉ − 1; a route that lost a link rejects it (R23, R166). -/
theorem test_static_arrival :
    let x := { x0 with fixed := true, launched := some 1590, read := 256, data := List.replicate 256 3#8, total := 512 }
    let l := [(F.cluRtrRoute.valid, k0.ix 3, 1), (F.cluRtrRoute.nhop, k0.ix 3, 1), (F.cluRtrRoute.hop, k0.ix 3, 5), (F.cluRtrRlat.lat_cc, k0.ix 3, 6),
      (F.cluRtrRlat.width, k0.ix 3, 64)]
    let s := carried x (bound0 l)
    let b := s.setLink k0 2 2
    x.srck ≠ 2 ∧ s.completeAt x 1 = 1596 ∧ s.completeAt x 1 ≤ s.now ∧ s.routeOpen x = true ∧
      ((ran (.transferArrival 0) s).flight 0).map (fun y => y.granted) = some true ∧ b.routeOpen x = false ∧
      ((ran (.transferArrival 0) b).flight 0).map (fun y => y.status) = some (some xWindowClosed) := by decide +kernel

/-- With a return latency of 34 cycles a request for bank 0 in cycle 0 returns in the transfer-in position (R273). -/
theorem test_stack_request :
    let x := { x0 with srck := 2, src := fabStack 0 0, fixed := true, launched := some 1590 }
    let s := carried x (bound0 [(F.stwXingStkRtn.lat_cc, Ix.stw 0 5, 34)])
    x.dspace < 2 ∧ x.dst = some (spadAddr c0 0x1000) ∧ x.fill = false ∧ Map.find s.lastReq k0 = none ∧ s.stackLat x.src = 34 ∧
      wheelPos (bankOf (spadAddr c0 0x1000)) (s.now + 34) = tiPos (spadAddr c0 0x1000) ∧
      (ran (.stackLineRequest k0 3) s).stackReads.map (fun r => r.due) = [some 1634] ∧
      ran (.stackLineRequest k0 3) { s with cc := 1 } = { s with cc := 1 } := by decide +kernel

theorem test_cache_fill :
    let r : StackRead := ⟨none, k0, fabStack 0 512, 256, .cache 7, 1500, some 1599, [5#8]⟩
    let s := { win0 with stackReads := [r], cache := [((k0, 7), { line := fabStack 0 512 / 256, filling := true })], cc := 3 }
    let t := ran (.stackReadReturn 0 .retried) s
    s.stackReads[0]? = some r ∧ s.returnsNow r .retried = true ∧ s.returnsNow r .clean = false ∧
      ({ s with stitch := 99, cc := 15 } : State).returnsNow r .clean = true ∧
      (Map.find t.cache (k0, 7)).map (fun k => (k.valid, k.late, k.data)) = some (true, true, [5#8]) := by decide +kernel

theorem test_stack_write :
    let w : StackWr := ⟨0, 1590, fabStack 0 64, [9#8]⟩
    let s := { win0 with stackWrites := [⟨0, 1, fabStack 0 (2 ^ 34), [1#8]⟩, w] }
    sameSide (fabStack 0 (2 ^ 34)) (fabStack 0 0) = false ∧ sameSide w.addr (fabStack 0 (0 * 2 ^ 34)) = true ∧ s.upsets = [] ∧
      Memory.read (ran (.stackWrite 0 0) s).mem (fabStack 0 64) = 9#8 ∧ (ran (.stackWrite 0 0) s).stackWrites.length = 1 := by decide +kernel

theorem test_invalidate :
    let s := { win0 with cache := [((k0, 6), { filling := true }), ((k0, 7), { valid := true }), ((⟨0, 1⟩, 7), { valid := true })] }
    (ran (.cacheInvalidateAll k0) s).cache.map (fun e => (e.2.drop, e.2.endsAt)) = [(true, some 1600), (true, some 1600), (false, none)] := by decide +kernel

theorem test_rw_queue :
    let s := win0
    let a : Addr := BitVec.ofNat _ (spadAddr c0 32)
    s.accessStop a.toNat 32 false = none ∧ bankIdOf a.toNat = some (.spad c0 0) ∧ a.toNat % 256 + 32 ≤ 256 ∧
      (ran (.rwQueueRequest 0 a none 32) s).rwq = [(.spad c0 0, [⟨0, 1600, spadAddr c0 32, none, 32⟩])] ∧
      (s.set F.cluPwrStat.state k0.ix rOff).accessStop a.toNat 32 false = some xWindowClosed ∧
      ran (.rwQueueRequest 0 a none 32) { s with rwq := [(.spad c0 0, [⟨0, 1600, 0, none, 1⟩])] } = { s with rwq := [(.spad c0 0, [⟨0, 1600, 0, none, 1⟩])] } := by
  decide +kernel

theorem test_rw_access :
    let b := BankId.spad c0 0
    let s := { win0 with cc := 4, rwq := [(b, [⟨0, 1600, spadAddr c0 32, some [4#8], 1⟩, ⟨0, 1601, 0, none, 1⟩])] }
    wheelPos (bankNum b) s.now = rwPos b ∧ 1600 < s.now ∧ Memory.read (ran (.rwAccess b) s).mem (spadAddr c0 32) = 4#8 ∧
      (ran (.rwAccess b) s).out = [.dynDone (spadAddr c0 32) xOk []] := by decide +kernel

theorem test_rw_read :
    let b := BankId.spad c0 0
    let s := { win0 with cc := 4, mem := [(spadAddr c0 33, 7#8)], rwq := [(b, [⟨0, 1600, spadAddr c0 32, none, 2⟩])] }
    Map.getD s.rwq b [] = [⟨0, 1600, spadAddr c0 32, none, 2⟩] ∧ (ran (.rwAccess b) s).out = [.dynDone (spadAddr c0 32) xOk [0#8, 7#8]] := by decide +kernel

theorem test_writeback_scrub :
    let b := BankId.spad c0 0
    let s := { (win0 [(F.coreSpadCfg.scrub_div, c0.ix, 200)]) with cc := 6, writebacks := [spadAddr c0 0 / 8] }
    let t := ran (.scrubLine b (some (31, false))) s
    wheelPos (bankNum b) s.now = mtPos b ∧ bankIdOf (8 * (spadAddr c0 0 / 8)) = some b ∧ (ran (.eccWriteback b) s).writebacks = [] ∧
      s.now / 8 % s.scrubDiv b = 0 ∧ (s.mark (bankLine b 0)).pend = 0 ∧ bankLine b 0 % 256 = 0 ∧ t.get F.coreSpadEcc.ce c0.ix = 1 ∧ t.writebacks.length = 2 ∧
      (ran (.scrubLine b none) s).scrubRow = [(b, 1)] := by decide +kernel

theorem test_window_command :
    let s := st [(F.stwWincmdVal.image, Ix.stw 0 0, 3)] win0
    let r := s.set F.coreWin.rt (c0.ix 0) 1
    (ran (.windowCommand 0 163) s).get F.stwWincmdResult.status (Ix.stw 0) = 1 ∧ (ran (.windowCommand 0 164) s).get F.stwWincmdResult.status (Ix.stw 0) = 2 ∧
      r.bit ⟨(winEntry 0 0 0 0 0).1, 1, 1⟩ (winEntry 0 0 0 0 0).2 = true ∧ (ran (.windowCommand 0 164) r).winUpdates.map (fun u => (u.at_, u.image)) = [(164, 3)] := by
  decide +kernel

theorem test_window_effect :
    let u : WinUpdate := ⟨100, 0, 0, 0, 0, 5, 0x40000000000000043⟩
    let s := { win0 with winUpdates := [u] }
    s.activatesNow 0 = false ∧ u.die = (0 : DieIx).val ∧ u.at_ ≤ s.stitch ∧ (ran (.windowCommandEffect 0) s).get F.coreWin.srcmask (c0.ix 5) = 1 ∧
      (ran (.windowCommandEffect 0) s).get F.coreWin.rt (c0.ix 5) = 1 ∧ (ran (.windowCommandEffect 0) { s with stitch := 99 }).winUpdates = [u] := by decide +kernel

/-- A dynamic read past correction ends ECC_UE (R277). -/
theorem test_read_fails :
    let x := { x0 with srck := 2, src := fabStack 0 0, launched := some 1590, read := 256 }
    let r : StackRead := ⟨some 0, k0, fabStack 0 0, 256, .data, 1595, none, []⟩
    let s := { carried x with stackReads := [r] }
    r.due = none ∧ s.returnsNow r .failed = true ∧ x.completed = false ∧ ((ran (.stackReadReturn 0 .failed) s).flight 0).map (fun y => y.fin) = some xEccUe := by
  decide +kernel

/-- Port 0 enters a bank's queue before port 1, one request a cycle (R261). -/
theorem test_rw_queue_order :
    let a : Addr := BitVec.ofNat _ (spadAddr c0 32)
    let s := { win0 with rwq := [(.spad c0 0, [⟨1, 1600, spadAddr c0 0, none, 1⟩])] }
    s.accessStop a.toNat 32 false = none ∧ (ran (.rwQueueRequest 0 a none 32) s).rwq.map (fun e => e.2.map fun r => (r.port, r.entered)) = [[(0, 1600), (1, 1601)]] ∧
      ran (.rwQueueRequest 1 a none 32) s = s := by decide +kernel
/-! ## Calibration, ages and precision windows -/

/-- Calibration entry 0 covers array 0 in the stitches that leave 100 modulo 200, mandatory. -/
def cal0 : State := arr0 [(F.coreCalSlot.period, c0.ix 0, 200), (F.coreCalSlot.phase, c0.ix 0, 100), (F.coreCalSlot.mandatory, c0.ix 0, 1)]

theorem test_cal_start :
    let s := cal0
    let t := ran (.calSlotStart c0 0) s
    s.cc = 0 ∧ s.calStarts c0 0 s.stitch = true ∧ s.haltHeld c0.die = false ∧ (s.core c0).cal = [] ∧ (s.creditFault c0 (s.calCovers c0 0).length 150).isNone ∧
      (t.core c0).cal = [⟨0, 100, [0], [0], 0, false⟩] ∧ t.get F.arrState.state a0.ix = aCal ∧ s.calStarts c0 0 101 = false := by decide +kernel

theorem test_cal_credits :
    let s := cal0.set F.coreCredEff.budget (c0.ix 0) 149
    (s.creditFault c0 (s.calCovers c0 0).length 150).isSome ∧ s.bit F.coreSfltRec.valid c0.ix = false ∧
      (ran (.calSlotStart c0 0) s).get F.coreSfltRec.src c0.ix = 3 := by decide +kernel

/-- A slot's end in cycle 2,400: an array without a full sequence only goes back to IDLE (R104). -/
theorem test_cal_end :
    let run : CalRun := ⟨0, 100, [0], [], 300, false⟩
    let s := { (cal0.set F.arrState.state a0.ix aCal).setCore c0 { cal := [run] } with stitch := 250 }
    let t := ran (.calSlotEnd c0 0) s
    (s.core c0).cal = [] ++ run :: [] ∧ 16 * run.start + 2400 ≤ s.now ∧ (s.engine a0).clearAfter = none ∧ s.get F.arrState.state a0.ix = aCal ∧
      t.get F.arrState.state a0.ix = aIdle ∧ (t.core c0).cal = [] ∧ ({ s with stitch := 249, cc := 15 } : State).now < 16 * run.start + 2400 := by decide +kernel

/-- Reasons of a retirement: a trim at its limit, a difference of two or more, four misreads in a row (R122). -/
theorem test_retire_reason :
    let c : CalConv := ⟨0, 0, false, false, 0, 0⟩
    retireReason [c] 3 = none ∧ retireReason [c, { c with offsLim := true }] 0 = some (1, 1) ∧ retireReason [{ c with gainLim := true }] 0 = some (2, 0) ∧
      (retireReason [{ c with misses := 1, diff := 1 }] 4).isSome := by decide +kernel

theorem test_age_update :
    let s := { arr0 with stitch := 65536, tempSum := [(k0, (520, 2))] }
    s.stitch % 65536 = 0 ∧ s.knownArrays.count a0 = 1 ∧ s.arrState a0 ≠ aOff ∧ s.meanTemp k0 = 25 ∧ (ran (.ageUpdate k0) s).ageWall = [(k0, 0)] ∧
      (ran (.ageUpdate k0) s).tempSum = [] ∧ ran (.ageUpdate k0) arr0 = arr0 := by decide +kernel

theorem test_age_save :
    let s := (arr0).setEngine a0 { ageSixteenths := 5 }
    Map.find (ran .ageSave s).flashAges a0 = some 5 := by decide +kernel

/-- The window that ends at stitch 4,096: the sets' counts go into the notice and are cleared (R155). -/
theorem test_precision_window :
    let s := { arr0 [(F.vecPcntSatel.count, c0.ix 0, 9), (F.hrnPart.dies, Ix.mod 2, 1)] with stitch := 4096 }
    let t := ran (.precisionWindowEnd 0) s
    s.cc = 0 ∧ s.stitch % 4096 = 0 ∧ (Map.find s.precOut 0).map (fun n => n.win) ≠ some (s.stitch - 4096) ∧ c0.ix 0 ∈ s.before.precSets 0 ∧
      s.pcnt (c0.ix 0) = s.before.pcnt (c0.ix 0) ∧ (Map.find t.precOut 0).map (fun n => (n.win, n.layers.map fun l => l.2.2.satel)) = some (0, [9]) ∧
      t.get F.vecPcntSatel.count (c0.ix 0) = 0 := by decide +kernel

/-- What counts in cycle 0 of the new window stays for it. -/
theorem test_precision_boundary :
    let s := { arr0 [(F.vecPcntSatel.count, c0.ix 0, 9), (F.hrnPart.dies, Ix.mod 2, 2)] with stitch := 4096 }
    let s := { s with cycleRegs := some s.regs }.set F.vecPcntSatel.count (c0.ix 0) 11
    let t := ran (.precisionWindowEnd 0) s
    s.before.pcnt (c0.ix 0) ≠ s.pcnt (c0.ix 0) ∧ s.isLead 0 = false ∧ t.get F.vecPcntSatel.count (c0.ix 0) = 2 ∧
      (Map.find t.precOut 0).map (fun n => n.layers.map fun l => l.2.2.satel) = some [9] := by decide +kernel

/-- Die 1 notifies die 0, which leads and notifies nobody. -/
theorem test_precision_notice :
    let n : PrecNotice := ⟨0, [], false⟩
    let s := { st [(F.nirFpDie.state, Ix.mod 1, 1)] (arr0 [(F.hrnPart.dies, Ix.mod 2, 3)]) with precOut := [(0, n), (1, n)] }
    Map.find s.precOut 1 = some n ∧ s.partOf 1 = some 2 ∧ s.isLead 1 = false ∧ s.precIn = [] ∧ (ran (.precisionFlagNotice 1) s).precIn = [(2, 1, n)] ∧
      s.isLead 0 = true ∧ ran (.precisionFlagNotice 1) { s with precIn := [(2, 1, n)] } = { s with precIn := [(2, 1, n)] } := by decide +kernel

/-- Nine flagged layers make a storm window; eight do not (R158). -/
theorem test_precision_storm :
    let n := fun k => (⟨0, (List.range k).map fun l => (l, 1, {}), false⟩ : PrecNotice)
    let s := fun k => { arr0 [(F.hrnPart.dies, Ix.mod 2, 1)] with stitch := 4100, precOut := [(0, n k)] }
    (s 9).leadDie 2 = 0 ∧ Map.find (s 9).precOut 0 = some (n 9) ∧ (s 9).noticesDue 2 0 0 = false ∧
      (ran (.precisionLeadEvaluate 2) (s 9)).get F.stwPrecStat.storm (Ix.stw 0) = 1 ∧
      (ran (.precisionLeadEvaluate 2) (s 8)).get F.stwPrecStat.storm (Ix.stw 0) = 0 ∧ (ran (.precisionLeadEvaluate 2) (s 8)).get F.stwPrecStat.flagged (Ix.stw 0) = 8 := by
  decide +kernel

/-- One of two dies is still missing before the 256th stitch after the window's end (R156). -/
theorem test_precision_waits :
    let s := { st [(F.nirFpDie.state, Ix.mod 1, 1)] (arr0 [(F.hrnPart.dies, Ix.mod 2, 3)]) with stitch := 4351, precOut := [(0, ⟨0, [], false⟩)] }
    s.leadDie 2 = 0 ∧ s.noticesDue 2 0 0 = true ∧ s.stitch < 0 + 4352 ∧ ran (.precisionLeadEvaluate 2) s = s ∧
      (ran (.precisionLeadEvaluate 2) { s with stitch := 4352 }).precOut = [(0, ⟨0, [], true⟩)] ∧ Map.find (arr0).precOut ((arr0).leadDie 2) = none := by
  decide +kernel

/-! ## The KV cache -/

/-- Lane (core 0, role 0) of partition 2: one lane, Q4, one head group, header at line 0, append at line 1, ring from line 100; seat 0 open. -/
def kv0 (l : List (Fld × Ix × Nat) := []) : State :=
  arr0 ([(F.hrnPart.dies, Ix.mod 2, 1), (F.coreKvfRoleCfg0.en, c0.ix 0, 1), (F.coreKvfRoleCfg0.nslot, c0.ix 0, 8), (F.coreKvfRoleCfg1.nhome, c0.ix 0, 8),
    (F.coreKvfRoleCfg0.appline, c0.ix 0, 1), (F.coreKvfRoleCfg0.ringline, c0.ix 0, 100), (F.coreKvfRoleSeat.active, c0.ix 0 0, 1),
    (F.srvKvLen.active, Ix.mod 2 0, 1)] ++ l)

/-- The header of an attention step at position `pos` with a class of one block. -/
def header (pos : Nat) (s : State) : State := { s with mem := Memory.writeList s.mem (spadAddr c0 0) (natToBytes 8 (2 ^ 9 + pos * 2 ^ 32)) }

theorem test_append_first :
    let s := header 0 { kv0 [(F.coreKvfRoleFree.count, c0.ix 0, 8), (F.coreKvfRoleFree.head, c0.ix 0, 3)] with homeList := [((c0, 0), [5, 6])] }
    let l : Lane := (c0, 0)
    s.partOf c0.die = some 2 ∧ (s.attHeader l).pos = 0 ∧ s.get F.coreKvfRoleSeat.len (l.ix 0) = 0 ∧ s.holds l 0 = true ∧ s.homes l ≠ [] ∧ s.get F.coreKvfRoleFree.count l.ix ≠ 0 ∧
      (ran (.kvAppend c0 0) s).homes l = [6] ∧ (ran (.kvAppend c0 0) s).get F.coreKvfRoleSlot.ref (l.ix 3) = 1 := by decide +kernel

theorem test_append_next :
    let s := header 1 (kv0 [(F.coreKvfRoleSeat.len, c0.ix 0 0, 1), (F.coreKvfRoleSeat.on, c0.ix 0 0, 1), (F.coreKvfRoleSeat.ohead, c0.ix 0 0, 3), (F.coreKvfRoleSlot.ref, c0.ix 0 3, 1),
      (F.coreKvfRoleSlot.addr, c0.ix 0 3, 200)])
    let l : Lane := (c0, 0)
    let s := { s with mem := Memory.writeList s.mem (spadAddr c0 256) [0xAB#8] }
    let t := ran (.kvAppend c0 0) s
    (s.seatSlots l 0)[1 / 64 / s.laneNa l]? = some 3 ∧ s.get F.coreKvfRoleSlot.ref (l.ix 3) ≤ 1 ∧ s.upsets = [] ∧ t.get F.coreKvfRoleSeat.len (l.ix 0) = 2 ∧
      Memory.read t.mem (s.slotAddr l 3 + 16) = 0xAB#8 := by decide +kernel

theorem test_append_breaks :
    let l : Lane := (c0, 0)
    let full := header 0 (kv0)
    let order := header 5 (kv0)
    let shared := header 1 (kv0 [(F.coreKvfRoleSeat.len, c0.ix 0 0, 1), (F.coreKvfRoleSeat.on, c0.ix 0 0, 1), (F.coreKvfRoleSlot.ref, c0.ix 0 127, 2)])
    full.homes l = [] ∧ (ran (.kvAppend c0 0) full).get F.coreKvfRoleSeat.broken (l.ix 0) = 1 ∧ (order.attHeader l).pos ≠ order.get F.coreKvfRoleSeat.len (l.ix 0) ∧
      (ran (.kvAppend c0 0) order).get F.coreKvfRoleCnt.errors l.ix = 1 ∧ (shared.seatSlots l 0)[0]? = some 127 ∧ 1 < shared.get F.coreKvfRoleSlot.ref (l.ix 127) ∧
      (ran (.kvAppend c0 0) shared).get F.coreKvfRoleSeat.broken (l.ix 0) = 1 := by decide +kernel

/-- Index 0 belongs to lane 0 of two; lane 1 only advances its length. -/
theorem test_append_elsewhere :
    let s := header 0 (kv0 [(F.coreKvfRoleCfg0.na_m1, c0.ix 0, 1), (F.coreKvfRoleCfg0.lane, c0.ix 0, 1)])
    s.holds (c0, 0) 0 = false ∧ (ran (.kvAppend c0 0) s).get F.coreKvfRoleSeat.len (c0.ix 0 0) = 1 ∧
      ran (.kvAppend c0 0) (s.set F.coreKvfRoleSeat.broken (c0.ix 0 0) 1) =
        { s.set F.coreKvfRoleSeat.broken (c0.ix 0 0) 1 with stageAt := [((c0, 0), 1612)] } := by decide +kernel

/-- Lane (core 0, role 0) stages its next block in this cycle. -/
def staged (s : State) : State := { s with stageAt := [((c0, 0), s.now)] }

/-- A resident block that can be staged (R237). -/
theorem test_staging :
    let s := staged <| header 0 (kv0 [(F.coreKvfRoleSeat.len, c0.ix 0 0, 1), (F.coreKvfRoleSeat.on, c0.ix 0 0, 1), (F.coreKvfRoleSeat.ohead, c0.ix 0 0, 3), (F.coreKvfRoleSlot.ref, c0.ix 0 3, 1),
      (F.coreKvfRoleSlot.addr, c0.ix 0 3, 200)])
    let l : Lane := (c0, 0)
    s.upsets = [] ∧ Memory.wf s.mem = true ∧ Map.find s.stageAt l = some s.now ∧ (s.attHeader l).cls = 1 ∧ (s.seatSlots l 0)[0]? = some 3 ∧ (s.seatSlots l 0).length ≤ 1 ∧ s.bit F.coreKvfRoleSeat.broken (l.ix 0) = false ∧
      s.get F.coreKvfRoleSlot.loc (l.ix 3) = 0 ∧ s.blockLines l = 9 ∧ (∀ n < 9, addrSpace (s.slotAddr l 3 + 256 * n) < 2 ∧ (s.mark (s.slotAddr l 3 + 256 * n)).err = false) := by decide +kernel

theorem test_staging_none :
    let s := staged (header 0 kv0)
    let l : Lane := (c0, 0)
    (s.seatSlots l 0)[0]? = none ∧ 0 < (s.attHeader l).cls ∧ ran (.kvStaging c0 0 0) (header 0 kv0) = header 0 kv0 ∧ (ran (.kvStaging c0 0 0) s).bytes (spadAddr c0 (256 * 100 + 8)) 4 = List.replicate 4 0xFF#8 := by decide +kernel

/-- A broken seat's block stages with its index and the broken flag. -/
theorem test_staging_broken :
    let s := staged <| header 0 (kv0 [(F.coreKvfRoleSeat.on, c0.ix 0 0, 1), (F.coreKvfRoleSeat.broken, c0.ix 0 0, 1)])
    (s.seatSlots (c0, 0) 0)[0]? = some 127 ∧ s.bit F.coreKvfRoleSeat.broken (c0.ix 0 0) = true ∧
      (ran (.kvStaging c0 0 0) s).bytes (spadAddr c0 (256 * 100 + 8)) 8 = natToBytes 8 (2 * 2 ^ 32) := by decide +kernel

def pass0 : Pass := ⟨0, 2, 0, 0, 0, 0, 0, 90, 200, 210, true, false, true, none⟩

theorem test_pass_notice :
    let s := { kv0 [(F.coreKvfRoleSeat.on, c0.ix 0 0, 1), (F.coreKvfRoleSlot.loc, c0.ix 0 127, 1), (F.cluSbufCfg.mode, k0.ix, 1)] with passes := [pass0] }
    let l : Lane := (c0, 0)
    (s.seatSlots l 0)[0]? = some 127 ∧ s.bit F.coreKvfRoleSlot.loc (l.ix 127) = true ∧ pass0.start ≤ s.stitch ∧ s.stitch ≤ pass0.fin ∧
      (s.cacheSlot k0 (s.slotAddr l 127)).isSome = true ∧ (ran (.passNotice c0 0 0 0) s).stackReads.length = 9 ∧
      ran (.passNotice c0 0 0 0) { s with passes := [] } = { s with passes := [] } := by decide +kernel

/-- A command is accepted for 64 st ahead; an open seat is refused, and so is a stitch too near (R250). -/
theorem test_kv_command :
    let s := kv0
    (ran (.seatOpen 2 1 164) s).kvCmds.map (fun c => c.at_) = [164] ∧ (ran (.seatOpen 2 1 163) s).get F.srvKvResult.status (Ix.mod 2) = 1 ∧
      (ran (.seatOpen 2 0 200) s).get F.srvKvResult.status (Ix.mod 2) = 2 ∧
      (ran (.seatFree 2 0 500) s).kvCmds.map (fun c => (c.op, c.at_)) = [(kvSeatFree, 500)] := by decide +kernel

theorem test_kv_effect :
    let s := fun (c : KvCmd) => { kv0 [(F.srvKvLen.len, Ix.mod 2 0, 64)] with kvCmds := [c] }
    let t := fun (c : KvCmd) => ran (.kvCommandEffect 2) (s c)
    (s ⟨0, 2, kvSeatOpen, 1, 0, 0, 0, 99, true⟩).kvDue 2 = some ⟨0, 2, kvSeatOpen, 1, 0, 0, 0, 99, true⟩ ∧
      (t ⟨0, 2, kvSeatOpen, 1, 0, 0, 0, 99, true⟩).get F.coreKvfRoleSeat.active (c0.ix 0 1) = 1 ∧
      (t ⟨0, 2, kvSeatFree, 0, 0, 0, 0, 99, true⟩).get F.coreKvfRoleSeat.active (c0.ix 0 0) = 0 ∧
      (t ⟨0, 2, kvFork, 0, 1, 64, 0, 99, true⟩).get F.srvKvLen.len (Ix.mod 2 1) = 64 ∧ (s ⟨0, 2, kvFork, 0, 1, 64, 0, 100, true⟩).kvDue 2 = none := by
  decide +kernel

theorem test_kv_copy :
    let j := fun op => (⟨0, 2, c0, 0, op, 0, 3, spadAddr c0 0x8000, 1, none⟩ : KvJob)
    let s := fun op => { kv0 [(F.coreKvfRoleSlot.addr, c0.ix 0 3, 200), (F.coreKvfRoleHome.line, c0.ix 0 1, 300)] with kvJobs := [j op], mem := [(spadAddr c0 0x8000, 6#8)] }
    (s kvFork).kvJobs[0]? = some (j kvFork) ∧ Memory.wf (s kvFork).mem = true ∧ (s kvFork).upsets = [] ∧ (s kvFork).stackWrites = [] ∧
      (ran (.kvCopyDone 0 .clean) (s kvSpill)).get F.coreKvfRoleSlot.loc (c0.ix 0 3) = 1 ∧ (ran (.kvCopyDone 0 .clean) (s kvSpill)).get F.coreKvfRoleSlot.addr (c0.ix 0 3) = 1 ∧
      (ran (.kvCopyDone 0 .clean) ((s kvRecall).set F.coreKvfRoleSlot.loc (c0.ix 0 3) 1)).get F.coreKvfRoleSlot.loc (c0.ix 0 3) = 0 := by decide +kernel

/-! ## A harness image -/

def imgE : List Byte := beBytes 48 0x57d28bcdead396c4b5d10719590c4af639a422f1f928b34318e879184bdc82c46c10cf60887142140ee7807bc33999e2

/-- A spatial image for partition 2 with one empty section, signed under operator key 0; the key was chosen so that (e, e), e the SHA-384
of the signed bytes, is the signature. -/
def image : List Byte :=
  headerMagic ++ natToBytes 8 (1 + 2 ^ 32 + 2 * 2 ^ 48 + 0x80 * 2 ^ 56) ++ natToBytes 8 0x280 ++ natToBytes 8 4 ++ natToBytes 8 0 ++ natToBytes 4 1 ++ natToBytes 4 64 ++
    List.replicate 208 0#8 ++ natToBytes 8 1 ++ natToBytes 8 0x200 ++ natToBytes 8 0 ++ sha256 [] ++ List.replicate 200 0#8 ++
    imgE ++ imgE ++ List.replicate 32 0#8

def imgKey : Nat × Nat :=
  (0x1fcb09f40d58939063670a3410e67f4d8117202436e3f52996594017b68cc55bea16752241b50abdd6893c860906da13,
    0x9a619b9b4942ab245d51c72cc086f886b405b8133e6095833b07a0b8f4ce332e70f79bba8847277153681c03dc35cd08)

/-- Die 0 is partition 2; the image lies at the start of its stacks, in a window for class 4. -/
def load0 : State :=
  { arr0 [(F.hrnPart.dies, Ix.mod 2, 1), (F.stkWin.open_, Ix.stw 0 0, 1), (F.stkWin.space, Ix.stw 0 0, 2), (F.stkWin.srcmask, Ix.stw 0 0, 16),
    (F.stkWin.size, Ix.stw 0 0, 0x10000), (F.hrnLoadAddr.addr, Ix.mod 2, fabStack 0 0), (F.hrnLoadLen.len, Ix.mod 2, 0x280), (F.hrnStat.shadow, Ix.mod 2, shLoading)] with
    keys := [(0, imgKey)], mem := Memory.writeList [] (fabStack 0 0) image }

theorem test_image_signed : ecdsaVerify imgKey (image.drop 0x200) (image.take 0x140) = true := by decide +kernel

theorem test_load_ready : (load0.loadHarness 2).code = 0 ∧ (load0.loadHarness 2).h.map (fun h => h.hid) = some 4 := by decide +kernel

/-! ## Clears, fences and cinches -/

theorem test_tenant_clear :
    let s := { arr0 [(F.hrnPart.dies, Ix.mod 2, 1), (F.coreWin.open_, c0.ix 0, 1)] with mem := [(spadAddr c0 3, 1#8), (fab 0 1 0 0 3, 2#8)] }
    let t := ran (.tenantClear 2) s
    Memory.wf s.mem = true ∧ s.diesOf 2 = [0] ∧ s.dieDark 0 = false ∧ t.mem = [(fab 0 1 0 0 3, 2#8)] ∧ t.get F.coreWin.open_ (c0.ix 0) = 0 ∧ t.clearing = [(0, s.wall)] ∧
      Map.find t.spadClear 0 = some 1728 ∧ s.cc = 0 ∧ ran (.tenantClear 2) { s with cc := 1 } = { s with cc := 1 } := by
  decide +kernel

theorem test_stack_clear :
    let s := { arr0 [(F.stkStat.clearing, Ix.stw 0 1, 1)] with clearing := [(0, 5)], wall := 5 + stackClearWall }
    Map.find s.clearing 0 = some 5 ∧ 5 + stackClearWall ≤ s.wall ∧ (ran (.stackClearDone 0) s).get F.stkStat.clearing (Ix.stw 0 1) = 0 ∧
      ({ s with wall := 5 } : State).wall < 5 + stackClearWall ∧ ran (.stackClearDone 0) { s with wall := 5 } = { s with wall := 5 } := by decide +kernel

/-- Nothing is left to land: the gate closes; else it closes 512 st after the start (R287). -/
theorem test_fence :
    let u := FenceUnit.sbuf k0 3
    let x : Xfer := { x0 with granted := true, dst := some (sbufAddr k0 (3 * 65536)) }
    let s := { arr0 with fences := [(u, { start := 90 })] }
    let b := { s with flights := [x], stitch := 602 }
    s.flights.filter (landsIn u) = [] ∧ s.arrivingIn u = [] ∧ s.groupBusy u = false ∧ Map.find (ran (.fenceDrainEnd u) s).fences u = some { start := 90, closedAt := some 100 } ∧
      b.flights.filter (landsIn u) = [x] ∧ b.flight x.id = some x ∧ 90 + 512 ≤ b.stitch ∧
      ((ran (.fenceDrainEnd u) b).flight x.id).map (fun y => y.status) = some (some xWindowClosed) ∧ ran (.fenceDrainEnd u) { b with stitch := 601 } = { b with stitch := 601 } := by
  decide +kernel

theorem test_unit_off :
    let u := FenceUnit.sbuf k0 3
    let g := FenceUnit.group 0 1 2
    let s := { arr0 with fences := [(u, { start := 90, closedAt := some 99 }), (g, { start := 90, closedAt := some 100 })], mem := [(sbufAddr k0 (3 * 65536), 1#8)] }
    Map.find s.fences u = some { start := 90, closedAt := some 99 } ∧ 99 + 1 ≤ s.stitch ∧ (ran (.unitPowerOff u) s).mem = [] ∧ (ran (.unitPowerOff u) s).sbufState k0 3 = 2 ∧
      s.stitch < 100 + 1 ∧ ran (.unitPowerOff g) s = s := by decide +kernel

theorem test_group_off :
    let g := FenceUnit.group 0 1 2
    let s := { arr0 [(F.stkStat.grp_ready, Ix.stw 0 1, 15)] with fences := [(g, { start := 90, closedAt := some 90 })] }
    Map.find s.fences g = some { start := 90, closedAt := some 90 } ∧ (ran (.unitPowerOff g) s).get F.stkStat.grp_ready (Ix.stw 0 1) = 11 := by decide +kernel

theorem test_group_zero :
    let s := { arr0 with zeroing := [((0, 6), 0)], wall := stackClearWall }
    Map.find s.zeroing ((0 : DieIx).val, 4 * (1 : Fin 2).val + (2 : Fin 4).val) = some 0 ∧ 0 + stackClearWall ≤ s.wall ∧ (ran (.groupZeroDone 0 1 2) s).get F.stkStat.grp_ready (Ix.stw 0 1) = 4 := by decide +kernel

/-- The first cinch is 64 st ahead at the earliest; one within MIN_SPACING of it is refused (R312). -/
theorem test_cinch_request :
    let s := run0
    let q := run0 [(F.nirCinchResult.gen, Ix.mod, 0xFFFF), (F.nirCinchT.stitch, Ix.mod, 100)]
    s.bit F.nirCinchResult.pending Ix.mod = false ∧ s.get F.nirCinchResult.gen Ix.mod = 0 ∧ (ran (.cinchRequest 0) s).get F.nirCinchT.stitch Ix.mod = 164 ∧
      (ran (.cinchRequest 65635) q).get F.nirCinchResult.status Ix.mod = 2 ∧ (ran (.cinchRequest 65636) q).get F.nirCinchResult.gen Ix.mod = 1 ∧
      (ran (.cinchRequest 65636) (q.set F.nirCinchResult.pending Ix.mod 1)).get F.nirCinchResult.status Ix.mod = 1 := by decide +kernel

theorem test_cinch_broadcast :
    let s := fun n => { run0 [(F.nirCinchT.stitch, Ix.mod, n)] with cinchWait := [(0, false)] }
    (0, false) ∈ (s 103).cinchWait ∧ Map.find (s 103).cinchLatch (some 0) = none ∧ (s 103).dieDark 0 = false ∧ (s 103).stitch + 2 < 103 ∧
      (ran (.cinchBroadcast 0) (s 103)).cinchLatch = [(some 0, 103, 0)] ∧ (ran (.cinchBroadcast 0) (s 102)).get F.nirCinchMiss.dies Ix.mod = 1 := by decide +kernel

theorem test_cinch_copy :
    let s := { run0 [(F.cluRtrCnt.sigdrop, k0.ix, 5)] with cinchLatch := [(some 0, 100, 7)], cinchWait := [(0, false)] }
    let t := ran (.cinchCopy (some 0)) s
    Map.find s.cinchLatch (some 0) = some (100, 7) ∧ s.stitch = 100 ∧ s.cc = 0 ∧ s.dieDark 0 = false ∧ isCounter F.cluRtrCnt.sigdrop.reg F.cluRtrCnt.sigdrop.lo = true ∧
      s.settleSync.copies (some 0) F.cluRtrCnt.sigdrop.reg k0.ix = true ∧ Map.find t.shadow (fkey F.cluRtrCnt.sigdrop k0.ix) = some 5 ∧ t.cinchWait = [(0, true)] ∧
      s.settleSync.copies (some 1) F.cluRtrCnt.sigdrop.reg k0.ix = false := by decide +kernel

theorem test_cinch_report :
    let s := { run0 [(F.nirCinchResult.pending, Ix.mod, 1)] with cinchWait := [(0, true)] }
    (0, true) ∈ s.cinchWait ∧ s.bit F.nirCinchResult.pending Ix.mod = true ∧ (ran (.cinchReport 0) s).get F.nirCinchResult.done Ix.mod = 1 ∧
      (ran (.cinchReport 0) { s with cinchWait := [(0, true), (1, false)] }).regs = s.regs := by decide +kernel

/-! ## Partitions, loads and swaps -/

theorem test_partition :
    let s := run0 [(F.hrnPart.dies, Ix.mod 1, 2)]
    s.readyHeld = false ∧ Map.find s.active 2 = none ∧ s.dieCount = 24 ∧ (ran (.partitionWrite 2 5#24) s).get F.hrnPart.dies (Ix.mod 2) = 5 ∧
      ran (.partitionWrite 2 7#24) s = s ∧ (ran (.partitionWrite 1 0#24) s).get F.hrnPart.dies (Ix.mod 1) = 0 := by decide +kernel

theorem test_load_go :
    let s := run0
    (ran (.harnessLoadGo 2) s).get F.hrnStat.shadow (Ix.mod 2) = shLoading ∧
      (ran (.harnessLoadGo 2) (s.set F.hrnStat.shadow (Ix.mod 2) shCommitted)).get F.hrnLoadResult.code (Ix.mod 2) = 0x12 := by decide +kernel

/-- Without an image the load ends TARGET (Table 10.8). -/
theorem test_load_refused :
    let s := run0 [(F.hrnStat.shadow, Ix.mod 2, shLoading)]
    s.get F.hrnStat.shadow (Ix.mod 2) = shLoading ∧ (s.loadHarness 2).code ≠ 0 ∧ (ran (.harnessLoadDone 2) s).get F.hrnStat.shadow (Ix.mod 2) = 3 := by decide +kernel

theorem test_key_refused :
    let s := { run0 with keys := [(0, imgKey)] }
    ran (.keyRecord 5 1 2 1 []) s = s := by decide +kernel

/-- A harness of one virtual die bound to die 0, cluster (0, 0). -/
def h0 : Harness :=
  { part := 2, hid := 4, baseId := 0, strict := false, patch := false, streaming := false, opkey := true, fpr := 0, vdies := 1, drain := 64, resume := 0,
    raw := [⟨vkey 2 1 1, 0x10#8, 0, 0⟩] }

/-- Partition 2 with an active harness and a shadow that is READY. -/
def swap0 (l : List (Fld × Ix × Nat) := []) : State :=
  { arr0 ([(F.hrnPart.dies, Ix.mod 2, 1), (F.hrnStat.shadow, Ix.mod 2, shReady)] ++ l) with active := [(2, h0)], shadowHrn := [(2, { h0 with hid := 5 })] }

theorem test_swap_request :
    let s := swap0
    let fixed := s.set F.hrnSwapCtl.movable (Ix.mod 2) 0
    s.bit F.hrnSwapResult.committed (Ix.mod 2) = false ∧ (ran (.swapRequest 2 0) s).swaps = [(2, { at_ := 164, asked := 100 })] ∧
      (ran (.swapRequest 2 163) fixed).get F.hrnSwapResult.status (Ix.mod 2) = swLate ∧ (ran (.swapRequest 2 164) fixed).swaps.length = 1 ∧
      (ran (.swapRequest 2 0) (s.set F.hrnSwapResult.committed (Ix.mod 2) 1)).get F.hrnSwapResult.status (Ix.mod 2) = swBusy ∧
      (ran (.swapRequest 2 0) (s.set F.hrnSwapCtl.paused (Ix.mod 2) 1)).get F.hrnSwapT.stitch (Ix.mod 2) = 228 := by decide +kernel

theorem test_swap_commit :
    let w : Swap := { at_ := 148, asked := 80 }
    let s := { swap0 with swaps := [(2, w)] }
    let bad := s.set F.hrnStat.shadow (Ix.mod 2) 0
    Map.find s.swaps 2 = some w ∧ w.at_ ≤ s.stitch + 48 ∧ s.swapRefusal 2 w = swOk ∧ (ran (.swapCommit 2) s).get F.hrnStat.shadow (Ix.mod 2) = shCommitted ∧
      bad.swapRefusal 2 w = swNotReady ∧ (ran (.swapCommit 2) bad).get F.hrnCnt.swap_ref (Ix.mod 2) = 1 ∧ ran (.swapCommit 2) { s with stitch := 99 } = { s with stitch := 99 } := by
  decide +kernel

theorem test_swap_activation :
    let w : Swap := { at_ := 100, asked := 20, committed := true }
    let s := { swap0 with swaps := [(2, w)] }
    let cut := { s with swaps := [(2, { w with cut := true })] }
    w.at_ ≤ s.stitch ∧ s.swapCut 2 w = false ∧ (Map.find s.shadowHrn 2).isSome = true ∧ cut.swapCut 2 { w with cut := true } = true ∧
      (ran (.swapActivation 2) cut).get F.hrnSwapResult.status (Ix.mod 2) = swHalted ∧ ran (.swapActivation 2) { s with stitch := 99 } = { s with stitch := 99 } := by decide +kernel

theorem test_pause :
    let w : Swap := { at_ := 164, asked := 20, paused := true }
    let s := { swap0 with swaps := [(2, w)] }
    Map.find s.active 2 = some h0 ∧ w.at_ ≤ s.stitch + h0.drain ∧ s.stitch < w.at_ ∧ (ran (.pauseStart 2) s).pauseUntil = [(2, 164)] ∧
      ran (.pauseStart 2) { s with stitch := 99 } = { s with stitch := 99 } := by decide +kernel

theorem test_halt :
    let h : Halt := { first := ⟨1552, 0, 0, 0⟩, sf := 97, haltAt := 100 }
    let s := { swap0 [(F.coreSfltRec.code, c0.ix, sLoop)] with halts := [(2, h)] }
    Map.find s.halts 2 = some h ∧ h.haltAt ≤ s.stitch ∧ h.byCore = true ∧ c0 ∈ s.busyCores (s.diesOf 2) ∧ (ran (.partitionHalt 2) s).get F.coreSeqTask.state c0.ix = qHalted ∧
      (ran (.scheduleFaultEvent 2) s).get F.stwSchedFirst.code (Ix.stw 0) = sLoop ∧ ran (.partitionHalt 2) { s with stitch := 99 } = { s with stitch := 99 } := by decide +kernel

theorem test_launch :
    let s := swap0 [(F.coreSeqTask.state, c0.ix, qIdle)]
    Map.find s.active 2 = some h0 ∧ s.partClearing 2 = false ∧ s.readyHeld = false ∧ (c0, 2, false) ∈ s.usableCores h0 ∧
      (ran (.hrnLaunch 2 0) s).get F.coreSeqLaunch.stitch c0.ix = 164 ∧ ran (.hrnLaunch 3 0) s = s := by decide +kernel

theorem test_activation_write :
    let w : ActWrite := ⟨a0, 0, fabStack 0 0, fabStack 0 0x10000, 0⟩
    let s := { arr0 with actWrites := [w] }
    s.actWrites[0]? = some w ∧ s.acceptsWrite a0 = true ∧ (s.set F.arrState.state a0.ix aOff).acceptsWrite a0 = false := by decide +kernel

/-! ## The serving unit -/

/-- A descriptor: TAG 9, context, CONTROL, prompt length, positions inherited, tokens to make; TOP_P and the repetition penalty 1.0. -/
def descOf (ctx ctl len npos max : Nat) : List Byte :=
  natToBytes 8 9 ++ natToBytes 4 ctx ++ natToBytes 4 ctl ++ natToBytes 8 0 ++ natToBytes 4 len ++ natToBytes 4 npos ++ natToBytes 4 max ++ natToBytes 4 0 ++
    natToBytes 4 0x3F800000 ++ natToBytes 4 0 ++ natToBytes 4 0x3F800000 ++ List.replicate 460 0#8

/-- Partition 2 serves: frames of 16 entries of 8 st, one layer stage, class 0 with S = 100, its sampler on die 0. -/
def serve0 (l : List (Fld × Ix × Nat) := []) : State :=
  let m := Ix.mod 2
  { kv0 ([(F.srvFrameCfg0.nent, m, 16), (F.srvFrameCfg0.frame_st, m, 128), (F.srvFrameCfg0.nl, m, 1), (F.srvFrameCfg0.s1_st, m, 100), (F.srvFrameCfg1.slm_st, m, 16),
    (F.srvFrameCfg1.eofs_st, m, 4), (F.srvFrameUsable.mask, Ix.mod 2 0, 0xFFFF), (F.srvCls.valid, Ix.mod 2 0, 1), (F.srvCls.s_st, Ix.mod 2 0, 100), (F.srvCfg.en, m, 1),
    (F.srvFrameVocab.vocab, m, 1000), (F.coreKvfRoleFree.count, c0.ix 0, 8)] ++ l) with
    active := [(2, h0)], tack := [(⟨2, 0, 0⟩, k0)], homeList := [((c0, 0), [0, 1, 2, 3, 4, 5, 6, 7])] }

/-- Context 7 with a prompt of two tokens, in a state, on seat 0. -/
def ctx7 (stt : Nat) (c : ReqCtx → ReqCtx) (s : State := serve0) : State :=
  { s.set F.srvCtx.state (Ix.mod 2 7) stt with ctxs := [((2, 7), c { desc := descOf 7 0 2 0 5, prompt := [11, 12], order := 1, key := 0, admitted := true })] }

theorem test_tail : (ran (.subqTailWrite 2 3#32) serve0).get F.srvSubqTail.tail (Ix.mod 2) = 3 := by decide +kernel

theorem test_descriptor_read :
    let s := serve0.set F.srvSubqTail.tail (Ix.mod 2) 1
    s.bit F.srvCfg.en (Ix.mod 2) = true ∧ s.partEmber 2 = false ∧ (s.get F.srvSubqHead.head (Ix.mod 2) + 0) % 2 ^ 32 ≠ s.get F.srvSubqTail.tail (Ix.mod 2) ∧
      s.promptCopies = [] ∧ Map.find s.descAt 2 = none ∧ s.storeUsed 2 = 0 ∧ ran (.descriptorRead 2 []) serve0 = serve0 := by decide +kernel

theorem test_prompt_done :
    let c : PromptCopy := ⟨2, descOf 7 0 2 0 5⟩
    let s := { serve0 with promptCopies := [c] }
    let t := ran (.promptCopyDone 2 0 [11#32, 12#32]) s
    descPspace c.desc = 0 ∧ c.part = (2 : PartIx).val ∧ s.descRefusal 2 c.desc [11, 12] (0 : Fin 16) = 0 ∧ t.get F.srvCtx.state (Ix.mod 2 7) = cQueued ∧
      t.get F.srvSubqHead.head (Ix.mod 2) = 1 ∧ t.get F.srvCtx.accept (Ix.mod 2 7) = 100 := by decide +kernel

/-- Token 1,000 is outside the vocabulary (Table 11.3). -/
theorem test_prompt_refused :
    let c : PromptCopy := ⟨2, descOf 7 0 2 0 5⟩
    let s := { serve0 with promptCopies := [c] }
    let t := ran (.promptCopyDone 2 0 [11#32, 1000#32]) s
    s.descRefusal 2 c.desc [11, 1000] (0 : Fin 16) = 6 ∧ 0 < s.bufferFree 2 ∧ t.get F.srvCnt.refused (Ix.mod 2) = 1 ∧ t.recs.length = 1 := by decide +kernel

theorem test_request : (ran (.cancel 2 7) serve0).reqQ = [(2, 7, 1)] ∧ (ran (.release 2 7) serve0).reqQ = [(2, 7, 2)] := by decide +kernel

theorem test_admission :
    let s := ctx7 cQueued (fun c => { c with admitted := false })
    let t := ran (.seatAdmission 2) s
    s.hasFrames 2 = true ∧ s.servHeld 2 = false ∧ (sortOn classOrder ((s.ctxsIn 2 cQueued).filter fun e => !e.2.admitted)).map (fun e => (e.1, e.2.forked, e.2.rebuild)) = [(7, false, false)] ∧
      s.partEmber 2 = false ∧ s.freeSeat 2 = some 1 ∧
      (s.ctx 2 7).map (fun c => s.reservationFits 2 c) = some true ∧ t.get F.srvCtx.seat (Ix.mod 2 7) = 1 ∧ t.kvCmds.map (fun c => (c.op, c.seat, c.at_)) = [(kvSeatOpen, 1, 164)] ∧
      ran (.seatAdmission 2) (s.set F.srvCfg.en (Ix.mod 2) 0) = s.set F.srvCfg.en (Ix.mod 2) 0 := by decide +kernel

theorem test_admission_full :
    let s := ctx7 cQueued (fun c => { c with admitted := false }) (serve0 [(F.coreKvfRoleFree.count, c0.ix 0, 0)])
    (firstDone (tryAdmit 2) s (sortOn classOrder ((s.ctxsIn 2 cQueued).filter fun e => !e.2.admitted))).isNone = true ∧ (ran (.seatAdmission 2) s).kvCmds = [] := by decide +kernel

/-- Entry 20 starts at stitch 160; its pass is booked 64 st ahead (R362). -/
theorem test_booking :
    let s := { ctx7 cPrefill id with stitch := 96 }
    let t := ran (.prefillBooking 2) s
    s.serving 2 = true ∧ s.entryFrom 2 160 = 20 ∧ s.entryStart 2 20 = 160 ∧ s.ctxsIn 2 cGenerate = [] ∧ (s.bookOrder 2).map (fun e => e.1) = [7] ∧
      s.passClass 2 0 1 = some 0 ∧ s.seatCopying 2 0 = false ∧ (s.ctx 2 7).map (fun c => (s.ctxStalled 2 c, c.samplesAt 0, c.booked, c.prefillEnd)) = some (false, false, 0, 2) ∧
      s.fits 2 20 0 false 0 = true ∧ t.passes.map (fun q => (q.ctx, q.start, q.pos)) = [(7, 160, 0)] ∧ ran (.prefillBooking 2) { s with stitch := 97 } = { s with stitch := 97 } := by
  decide +kernel

theorem test_stream :
    let s := ctx7 cWait id
    s.serving 2 = true ∧ s.withheld 2 = false ∧ (s.waiting 2).map (fun e => e.1) = [7] ∧
      (ran (.streamAdmission 2) s).get F.srvCtx.state (Ix.mod 2 7) = cGenerate ∧ ran (.streamAdmission 2) serve0 = serve0 := by decide +kernel

theorem test_promotion :
    let s := ctx7 cPrefill (fun c => { c with entered := 36 }) (serve0 [(F.srvCfg.promote_fr, Ix.mod 2, 1), (F.srvFrameCfg0.frame_st, Ix.mod 2, 64)])
    s.ctxState 2 7 = cPrefill ∧ 36 + s.get F.srvCfg.promote_fr (Ix.mod 2) * s.frameSt 2 ≤ s.stitch ∧ (ran (.prefillPromotion 2 7) s).get F.srvCtx.promoted (Ix.mod 2 7) = 1 ∧
      ran (.prefillPromotion 2 7) { s with stitch := 99 } = { s with stitch := 99 } := by decide +kernel

def passAt (start endAt : Nat) (samples started : Bool) (drawn : Option Drawn := none) : Pass := ⟨3, 2, 7, 0, 1, 20, 0, start, endAt - 1, endAt, samples, false, started, drawn⟩

theorem test_pass_start :
    let s := { ctx7 cPrefill id with passes := [passAt 100 200 false false] }
    s.passes.find? (fun r => decide (r.id = 3)) = some (passAt 100 200 false false) ∧ (s.ctx 2 7).isSome = true ∧ s.serving 2 = true ∧ s.seatCopying 2 0 = false ∧
      (s.ctx 2 7).map (fun c => s.ctxStalled 2 c) = some false ∧ s.spillCount 2 0 ≤ s.clsZ 2 0 ∧ (ran (.passStart 3) s).passes = [passAt 100 200 false true] ∧ (ran (.passStart 3) { s with stitch := 101 }).passes = [] ∧
      ran (.passStart 3) { s with stitch := 99 } = { s with stitch := 99 } := by decide +kernel

theorem test_sample_none :
    let q := passAt 100 200 true true
    let s := { ctx7 cGenerate id with passes := [q] }
    let rcd := s.bytes (s.recAddr 0 7) recBytes
    s.upsets = [] ∧ q.drawn = none ∧ Map.find s.samplerAt 0 = none ∧ s.stitch ≤ q.endAt ∧ sampleToken rcd (validCands []) 2 = none ∧ (ran (.samplerSample 3 []) s).get F.smpCnt.samples (Ix.stw 0) = 1 ∧
      ran (.samplerSample 3 []) { s with stitch := 201 } = { s with stitch := 201 } ∧
      ran (.samplerSample 3 []) { s with samplerAt := [(0, 1500)] } = { s with samplerAt := [(0, 1500)] } := by decide +kernel

theorem test_emit :
    let q := passAt 90 99 true true (some ⟨some 42, none, false, false⟩)
    let s := { ctx7 cGenerate id with passes := [q] }
    let t := ran (.passEmit 2) s
    s.passDue 2 true = some q ∧ s.haltDrops 2 99 = false ∧ s.ctxState 2 7 = cGenerate ∧ (s.ctx 2 7).map (fun c => s.brokenFor q c) = some none ∧ 0 < s.bufferFree 2 ∧
      (t.ctx 2 7).map (fun c => (c.gen, c.len)) = some ([42], 2) ∧ t.recs.length = 1 ∧ t.get F.srvCtx.delivered (Ix.mod 2 7) = 1 ∧
      ({ s with stitch := 99, cc := 14 } : State).passDue 2 true = none := by decide +kernel

/-- The last position of a prompt that is a root puts it into HOLD (R363). -/
theorem test_complete :
    let q := passAt 90 99 false true
    let s := { ctx7 cPrefill (fun c => { c with desc := descOf 7 1 2 0 0 }) with passes := [q] }
    s.passDue 2 false = some q ∧ (s.ctx 2 7).map (fun c => (c.rebuild, c.promoted, c.prefillEnd, descRoot c.desc, s.brokenFor q c)) = some (false, none, 2, true, none) ∧
      (ran (.passComplete 2) s).get F.srvCtx.state (Ix.mod 2 7) = cHold ∧ (serve0).passDue 2 false = none := by decide +kernel

/-- Ring 3 has four entries; its oldest record goes to BASE + 32 × (PROD mod SIZE) (R380). -/
def ring3 (recs : List RingRec) : State :=
  let ix := Ix.mod 2 3
  { serve0 [(F.srvRingCfg.en, ix, 1), (F.srvRingCfg.size_log2, ix, 6), (F.srvRingCfg.vec, ix, 5), (F.srvRingCfg.mod_n, ix, 2), (F.srvRingCfg.mod_st, ix, 10), (F.srvRingBase.addr, ix, 0x1000),
    (F.srvRingProd.prod, ix, 65), (F.srvRingCons.cons, ix, 2), (F.hstPcieStat.bme, Ix.mod, 1), (F.hstMsix.mask, Ix.mod 5, 0)] with recs := recs }

theorem test_ring_write :
    let q : RingRec := ⟨2, 3, false, [1#8], 90⟩
    let s := ring3 [⟨2, 4, false, [], 80⟩, q]
    s.bit F.srvRingCfg.en (Ix.mod 2 3) = true ∧ s.bit F.hstPcieStat.bme Ix.mod = true ∧ s.ringUsed 2 3 < s.ringSize 2 3 ∧
      (ran (.ringRecordWrite 2 3) s).out.take 1 = [.hostWrite 0x1020 [1#8]] ∧ (ran (.ringRecordWrite 2 3) s).get F.srvRingProd.prod (Ix.mod 2 3) = 66 ∧
      ran (.ringRecordWrite 2 3) (s.set F.srvRingCons.cons (Ix.mod 2 3) 1) = s.set F.srvRingCons.cons (Ix.mod 2 3) 1 := by decide +kernel

theorem test_ring_signal :
    let s := { ring3 [] with ringSig := [((2, 3), (2, 99))] }
    s.get F.srvRingCfg.mod_n (Ix.mod 2 3) ≤ 2 ∧ s.bit F.hstMsix.mask (Ix.mod (s.get F.srvRingCfg.vec (Ix.mod 2 3))) = false ∧ (ran (.ringMsix 2 3) s).out = [.msix 5] ∧
      ran (.ringMsix 2 3) { s with ringSig := [((2, 3), (1, 91))] } = { s with ringSig := [((2, 3), (1, 91))] } ∧ (ran (.ringConsWrite 2 3 9#32) s).get F.srvRingCons.cons (Ix.mod 2 3) = 9 := by
  decide +kernel

theorem test_datagram :
    let q : RingRec := ⟨2, 3, true, [7#8], 90⟩
    let s := st [(F.hstTflow.en, Ix.mod 2 3, 1)] (ring3 [q])
    s.recs.filter (fun q => decide (q.part = 2) && decide (q.ring = 3) && q.eth) = [q] ∧ s.flowPaused (Ix.mod 2 3) = false ∧ q.entered + s.get F.srvRingCfg.mod_st (Ix.mod 2 3) ≤ s.stitch ∧
      (ran (.tokenDatagramSend 2 3) s).out.take 1 = [.datagram 0 ([1#8, 2#8, 3#8, 1#8] ++ natToBytes 4 0 ++ natToBytes 8 100 ++ [7#8])] ∧
      ran (.tokenDatagramSend 2 3) { s with stitch := 99 } = { s with stitch := 99 } ∧ (ring3 [q]).bit F.hstTflow.en (Ix.mod 2 3) = false := by decide +kernel

theorem test_latency :
    let s := { serve0 with stitch := 4096, latWins := [((2, 1, 0), { ttftN := 1 })] }
    let t := ran (.latencyGoalInterval 2) s
    0 + 4096 ≤ s.stitch ∧ t.latWins = [] ∧ t.out.length = 1 ∧ ran (.latencyGoalInterval 2) { s with stitch := 4095 } = { s with stitch := 4095 } := by decide +kernel

/-! ## Weights -/

/-- Die 0's stacks are open to class 5 in their first 1 MiB; queue pair 7 is READY and serves die 0. -/
def wgt0 (l : List (Fld × Ix × Nat) := []) : State :=
  { arr0 ([(F.hrnPart.dies, Ix.mod 2, 1), (F.stkWin.open_, Ix.stw 0 0, 1), (F.stkWin.space, Ix.stw 0 0, 2), (F.stkWin.srcmask, Ix.stw 0 0, 32),
      (F.stkWin.size, Ix.stw 0 0, 0x100000), (F.stwShardLen.value, Ix.stw 0, 0x8000), (F.hstQp.state, Ix.mod 7, 1)] ++ l) with
    net := { qps := [(7, { ctx := 0, sPsn := 4, ePsn := 0 })] } }

def job0 : ShardJob := { verify := false, qp := 7, ofs := 0, len := 0x8000, expect := [], asked := 0x8000, outs := [2] }

def fetching (j : ShardJob) (l : List (Fld × Ix × Nat) := []) : State := { wgt0 l with wts := { jobs := [(0, j)] } }

theorem test_shard_fetch :
    let s := wgt0
    let t := ran (.shardFetch 0 7) s
    s.dieDark 0 = false ∧ s.shardJob 0 = none ∧ s.stackWindow 0 5 0 0x8000 = true ∧ s.namedAreas 0 = [] ∧ s.qpServes 7 0 = true ∧ s.qpPaused 7 = false ∧
      s.qpServes 6 0 = false ∧ t.out = [.rdmaRead 7 4 0 0 0x8000] ∧ t.get F.stwShardStat.state (Ix.stw 0) = shFetching ∧
      (ran (.shardFetch 0 6) s).get F.stwShardStat.status (Ix.stw 0) = shsNetFail := by decide +kernel

/-- Busy; a byte past the window's end; an area that the active harness names; a die whose shard a harness does not name. -/
theorem test_shard_refused :
    let past := (wgt0).set F.stwShardLen.value (Ix.stw 0) 0x100001
    (ran (.shardFetch 0 7) (fetching job0)).get F.stwShardStat.status (Ix.stw 0) = shsBusy ∧ past.stackWindow 0 5 0 0x100001 = false ∧
      (ran (.shardFetch 0 7) past).get F.stwShardStat.status (Ix.stw 0) = shsWindow ∧
      ((ran (.shardVerify 0) wgt0).shardJob 0).map (fun j => (j.verify, j.len)) = some (true, 0x8000) := by decide +kernel

theorem test_shard_in_use :
    let s := { wgt0 with active := [(2, { h0 with raw := [⟨vkey 2 1 1, 0x10#8, 0, 0⟩, ⟨regKey .stwShardRef (Ix.stw 0), 0#8, 0, 0⟩] })] }
    s.namedAreas 0 = [(0, 256)] ∧ rangesMeet 0 0x8000 0 256 = true ∧ s.shardJob 0 = none ∧ rangesMeet 0x100 0x8000 0 256 = false ∧
      (ran (.shardFetch 0 7) s).get F.stwShardStat.status (Ix.stw 0) = shsInUse := by decide +kernel

theorem test_shard_abort :
    let s := fetching job0
    (fetching { job0 with outs := [] }).shardJob 0 = some { job0 with outs := [] } ∧ ran (.shardAbort 0) s = s.setJob 0 { job0 with aborting := true } ∧
      (ran (.shardAbort 0) (fetching { job0 with outs := [] })).get F.stwShardStat.status (Ix.stw 0) = shsAborted ∧
      ran (.shardAbort 0) (fetching { job0 with verify := true }) = fetching { job0 with verify := true } := by decide +kernel

/-- The last two bytes of a fetch; one byte of two while an abort waits (R387). -/
theorem test_read_response :
    let j := { job0 with landed := 0x7FFE }
    let s := fetching j
    let t := ran (.rdmaReadResponse 0 [1#8, 2#8]) s
    let u := ran (.rdmaReadResponse 0 [1#8]) (fetching { j with aborting := true })
    s.shardJob 0 = some j ∧ j.asked = j.len ∧ j.refetch = none ∧ j.outs = [2] ∧ t.get F.stwShardStat.landed (Ix.stw 0) = 0x8000 ∧
      t.get F.stwShardStat.state (Ix.stw 0) = shHashing ∧ t.stackWrites.map (fun w => (w.port, w.addr, w.data)) = [(129, fabStack 0 0x7FFE, [1#8, 2#8])] ∧
      (u.shardJob 0).map (fun k => k.outs) = some [1] ∧ ran (.rdmaReadResponse 0 []) s = s := by decide +kernel

/-- What has landed has no shard header. -/
theorem test_hash_done :
    let j := { job0 with outs := [], landed := 0x8000 }
    let s := fetching j
    let t := ran (.shardHashDone 0) s
    s.stackWrites = [] ∧ j.refetch = none ∧ shardHeaderOk (s.bytes (fabStack 0 0) 256) 0x8000 = false ∧ t.get F.stwShardStat.status (Ix.stw 0) = shsFormat ∧
      t.eventSeq = 1 ∧ t.areas.map (fun a => a.state) = [shBad] ∧ ran (.shardHashDone 0) (fetching job0) = fetching job0 := by decide +kernel

theorem test_qp_error :
    let s := fetching job0
    let t := ran (.qpError 7 0x81) s
    s.get F.hstQp.state (Ix.mod 7) = 1 ∧ s.shardJob 0 = some job0 ∧ job0.verify = false ∧ job0.qp = (7 : Fin 256).val ∧ t.shardJob 0 = none ∧
      t.get F.hstQp.synd (Ix.mod 7) = 0x81 ∧ t.get F.stwShardStat.synd (Ix.stw 0) = 0x81 ∧ ran (.qpError 6 0) s = s := by decide +kernel

/-- A reload transfer into the other set of arrays, granted, with a line in the buffer. -/
def reload0 : Xfer :=
  { x0 with fixed := true, srck := 2, dspace := 4, dst := some (planeAddr ⟨0, 0, 0, 32⟩ 0), len := 256, total := 256, granted := true, data := List.replicate 256 7#8 }

theorem test_reload_line :
    let s := carried reload0
    let c := s.set F.coreArrstat.compute_set c0.ix 1
    let busy := c.set F.coreArrstat.streaming c0.ix 1
    let free := (s.set F.coreArrstat.streaming c0.ix 1)
    s.flight reload0.id = some reload0 ∧ addrCoreId (planeAddr ⟨0, 0, 0, 32⟩ 0) = some c0 ∧ reload0.isReload = true ∧ reload0.status = none ∧ reload0.pos = 0 ∧
      reload0.lost = [] ∧ ran (.reloadLineLand 0) busy = busy ∧ ((ran (.reloadLineLand 0) free).core c0).portFree = 1608 := by decide +kernel

/-- Digest slot 0 covers group 0 every 64 st from stitch 36 of the activation; arrays 0 and 5 are bound. -/
def dig0 (l : List (Fld × Ix × Nat) := []) : State :=
  wgt0 ([(F.coreWptrDigSlot.period, c0.ix 0, 64), (F.coreWptrDigSlot.phase, c0.ix 0, 36), (F.coreWptrArr.valid, c0.ix 0, 1), (F.coreWptrArr.img, c0.ix 0, 3),
    (F.coreWptrArr.valid, c0.ix 5, 1)] ++ l)

theorem test_digest_slot :
    let s := dig0
    let t := ran (.digestSlotStart c0 0) s
    let off := s.set F.arrState.state a0.ix aOff
    s.digStarts c0 0 = true ∧ s.regionOn c0.cluId = true ∧ Map.find (s.dig c0).slotAt 0 = none ∧ (s.dig c0).repairs = [] ∧ s.sweepArray c0 = some (0, 3) ∧
      s.idleFrom a0 = some 1600 ∧ (t.dig c0).reads = [⟨0, 3, false, 1600, 2112⟩] ∧ (t.engine a0).reissueAt = 2496 ∧
      off.idleFrom a0 = none ∧ (ran (.digestSlotStart c0 0) off).get F.coreWptrDigStat.skip c0.ix = 1 ∧
      ran (.digestSlotStart c0 0) { s with cc := 1 } = { s with cc := 1 } ∧ ran (.digestSlotStart c0 1) s = s := by decide +kernel

/-- A waiting repair goes before the sweep (R400). -/
theorem test_digest_repair_slot :
    let s := (dig0).setDig c0 { repairs := [(0, 7)] }
    let off := s.set F.arrState.state a0.ix aOff
    (s.dig c0).repairs = [((0 : Fin 64).val, 7)] ∧ s.idleFrom (c0.arr 0) = some 1600 ∧
      ((ran (.digestSlotStart c0 0) s).dig c0).reads = [⟨0, 7, true, 1600, 2368⟩] ∧ off.idleFrom (c0.arr 0) = none ∧
      ((ran (.digestSlotStart c0 0) off).dig c0).repairs = [(0, 7)] := by decide +kernel

/-- A readback of array 0 for an image it is no longer bound to is dropped. -/
theorem test_digest_readback :
    let r : DigRead := ⟨0, 4, false, 1000, 1600⟩
    let s := (dig0).setDig c0 { reads := [r] }
    let t := ran (.digestReadbackDone c0) s
    (s.dig c0).reads = [] ++ r :: [] ∧ r.arr = (0 : Fin 64).val ∧ r.endAt ≤ s.now ∧ s.stackWrites = [] ∧ s.boundImage c0 0 = some 3 ∧
      (t.dig c0).reads = [] ∧ t.get F.stwShardDcnt.swept (Ix.stw 0) = 0 ∧ ran (.digestReadbackDone c0) dig0 = dig0 := by decide +kernel

/-- A readback, and a rewrite's, that end for the image the array is bound to. -/
theorem test_digest_readback_bound :
    let s := fun (fix : Bool) => (dig0).setDig c0 { reads := [⟨0, 3, fix, 1000, 1600⟩] }
    ((s false).dig c0).reads = [⟨0, 3, false, 1000, 1600⟩] ∧ ((s true).dig c0).reads = [⟨0, 3, true, 1000, 1600⟩] ∧ (1600 : Nat) ≤ (s true).now ∧
      (s true).boundImage c0 0 = some 3 ∧ (s false).boundImage c0 0 = some 3 := by decide +kernel

/-- A shard header of one image without a scale run, 8,480 B long, with a digest. -/
def hdr0 (dig : List Byte) : List Byte :=
  shardMagic ++ natToBytes 2 1 ++ natToBytes 2 0 ++ natToBytes 4 1 ++ natToBytes 8 0x100 ++ natToBytes 8 0x2100 ++ natToBytes 8 0 ++ natToBytes 8 0x2100 ++
    natToBytes 8 8224 ++ dig

/-- Memory that holds, after 256 B of header, 8,224 B of zeros, and the header with their digest. -/
def goodShard : Memory := Memory.writeList [] (fabStack 0 0) (hdr0 (sha256 (Memory.readN [] (fabStack 0 256) 8224)))

theorem hdr0_len (dig : List Byte) : (hdr0 dig).length = 56 + dig.length := by simp [hdr0, shardMagic]; omega

/-- The header found is the one written, the hash of the rest is the digest it names, and that is what the command expects. -/
theorem test_hash_good :
    let e := sha256 (Memory.readN [] (fabStack 0 256) 8224)
    (Memory.readN goodShard (fabStack 0 0) 88) = hdr0 e ∧ sha256 (Memory.readN goodShard (fabStack 0 256) 8224) = e := by
  have hl := sha256_length (Memory.readN [] (fabStack 0 256) 8224)
  have hh := hdr0_len (sha256 (Memory.readN [] (fabStack 0 256) 8224))
  refine ⟨?_, ?_⟩
  · have h := Memory.readN_writeList (m := []) rfl (fabStack 0 0) (hdr0 (sha256 (Memory.readN [] (fabStack 0 256) 8224)))
    rw [hh, hl] at h
    exact h
  · exact congrArg sha256 (Memory.readN_writeList_ne rfl _ (by rw [hh, hl]; decide))

/-- The image an array is bound to matches its digest entry in the stacks, whatever the memory's other bytes. -/
theorem test_stack_hash (src dig : Nat) (m : Memory) (h : Memory.wf m = true) (hd : src + 8192 ≤ dig ∨ dig + 32 ≤ src) :
    let k := Memory.writeList m dig (sha256 (Memory.readN m src 8192))
    sha256 (Memory.readN k src 8192) = Memory.readN k dig 32 := by
  have hl := sha256_length (Memory.readN m src 8192)
  have h1 := Memory.readN_writeList h dig (sha256 (Memory.readN m src 8192))
  rw [hl] at h1
  exact (congrArg sha256 (Memory.readN_writeList_ne h _ (by omega))).trans h1.symm

theorem test_stack_hash_waits :
    let s := (dig0).setDig c0 { hashes := [(0, 3)] }
    (s.dig c0).hashes = [(0, 3)] ∧ s.stackWrites = [] ∧ ran (.digestStackHashDone c0) dig0 = dig0 := by decide +kernel

theorem test_sweep_due :
    let s := { dig0 [(F.stwShardScfg.sper, Ix.stw 0, 1)] with active := [(2, { h0 with streaming := true })], stitch := 256 }
    s.stackWrites = [] ∧ s.dieDark 0 = false ∧ s.partOf 0 = some 2 ∧ (Map.find s.active 2).map (fun h => h.streaming) = some true ∧
      max (s.actStitch 0) (Map.getD s.wts.sweepAt 0 0) + 256 ≤ s.stitch ∧ ran (.shardSweep 0) { s with stitch := 255 } = { s with stitch := 255 } := by decide +kernel

theorem test_chk_write :
    let s := run0
    let busy := s.setChan k0 3 { cur := some 0 }
    (busy.chan k0 3).cur = some 0 ∧ (ran (.chkRegisterWrite k0 3 true 5#64) busy).get F.chkCnt.ignwr (k0.ix 3) = 1 ∧ (s.chan k0 3).cur = none ∧
      (ran (.chkRegisterWrite k0 3 true 0x1FFFFFFFF#64) s).get F.chkRun.reg (k0.ix 3) = 0xFFFFFFFF ∧
      (ran (.chkRegisterWrite k0 3 false 0xF#64) s).get F.chkCfg.poly (k0.ix 3) = 3 := by decide +kernel

/-! ## Links -/

/-- Module 5 of a ring of 16 in X; port 0 is UP, its neighbour is module 6; window 0 of core 0 is open to class 3. -/
def lnk0 (l : List (Fld × Ix × Nat) := []) : State :=
  { win0 ([(F.nirTorusId.id, Ix.mod, 5), (F.nirTorusId.sx_m1, Ix.mod, 15), (F.lnkStat.state, Ix.mod 0, lkUp), (F.lnkStat.peer, Ix.mod 0, 6), (F.nirFpDie.state, Ix.mod 3, 1),
      (F.coreWin.srcmask, c0.ix 0, 8)] ++ l) with tack := [(⟨2, 0, 0⟩, k0)], wall := 5000 }

def lk0 (stt : Nat) : State := (lnk0).set F.lnkStat.state (Ix.mod 0) stt

/-- A frame from module 6 for module 5, partition 2, XID 0x1234, alive value `alive`. -/
def fr (ty vc alive ext : Nat) (data : List Byte := []) : Frame := Frame.put ⟨frameHdr ty vc true true 5 6 2 0 0x1234 ext, data⟩ 8 8 alive

theorem test_torus_id :
    (ran (.torusIdWrite 0x0F0007#32) lnk0).ownId = 7 ∧ (ran (.torusIdWrite 7#32) { lnk0 with kdl := { k5 := true } }).net.idIgnored = 1 := by decide +kernel

theorem test_train :
    let s := lnk0 [(F.lnkChkAlive.exp, Ix.mod 0 2, 9)]
    s.ringSize3 0 = 16 ∧ s.ringSize3 1 = 1 ∧ (ran (.linkTrain 2) s).lkState 2 = lkUnused ∧ (ran (.linkTrain 0) s).lkState 0 = lkTraining ∧
      (ran (.linkTrain 0) s).get F.lnkChkAlive.exp (Ix.mod 0 2) = 0 := by decide +kernel

/-- The neighbour is 6; a port whose neighbour says 7 is miswired. -/
theorem test_training_done :
    let s := (lk0 lkTraining).setPort 0 { ident := true }
    let wrong := s.set F.lnkStat.peer (Ix.mod 0) 7
    (s.port 0).ident = true ∧ s.neighbourOk 0 = true ∧ wrong.neighbourOk 0 = false ∧ (ran (.linkTrainingDone 0 true) s).lkState 0 = lkUp ∧
      (ran (.linkTrainingDone 0 true) wrong).lkState 0 = lkMiswired ∧ (ran (.linkTrainingDone 0 false) s).lkState 0 = lkFailed ∧
      ran (.linkTrainingDone 0 true) (lk0 lkTraining) = lk0 lkTraining ∧ ran (.linkTrainingDone 0 true) lnk0 = lnk0 := by decide +kernel

theorem test_check_fail :
    let s := lnk0
    let t := ran (.linkFrameCheckFail 0) s
    s.lkState 0 = lkUp ∧ t.get F.lnkChkCnt.mismatch (Ix.mod 0) = 1 ∧ t.out = [.frame 0 (s.lctl 0 1)] ∧ ran (.linkFrameCheckFail 1) s = s ∧
      (ran (.laneLockLost 0) s).lkState 0 = lkFailed ∧ ran (.laneLockLost 1) s = s := by decide +kernel

/-- Frames 254, 255 and 0 of VC 1 wait for acknowledgement; ACK 255 covers the first two; NAK with EXP 0 asks for the third again. -/
theorem test_ack_nak :
    let held := [fr 1 1 254 0, fr 1 1 255 0, fr 1 1 0 0]
    let s := (lnk0).setPort 0 { replay := held }
    let ack := fr 5 0 0 (0 + 255 * 2 ^ 12)
    let nak := fr 5 0 0 (1 + 0 * 2 ^ 12)
    let sixteen := (lnk0).setPort 0 { replay := [fr 1 1 0 0], tries := 15 }
    ack.ty = 5 ∧ ack.ext 80 4 = 0 ∧ nak.ext 80 4 = 1 ∧ (s.port 0).waiting = [] ∧ ((ran (.lctlAck 0 ack) s).port 0).replay = [fr 1 1 0 0] ∧
      (ran (.lctlNak 0 nak) s).out = [.frame 0 (fr 1 1 0 0)] ∧ (ran (.lctlNak 0 nak) sixteen).lkState 0 = lkFailed ∧ ran (.lctlAck 0 nak) s = s ∧
      ran (.lctlNak 0 ack) s = s := by decide +kernel

theorem test_ident :
    let s := lk0 lkTraining
    let f := fr 5 0 0 2
    f.ty = 5 ∧ f.ext 80 4 = 2 ∧ ((ran (.lctlIdent 0 f) s).port 0).ident = true ∧ ran (.lctlIdent 0 f) lnk0 = lnk0 := by decide +kernel

/-- The last LCTL frame left 3,168 units of wall time ago; one unit less and nothing is due; 64 units freed make it due. -/
theorem test_lctl_send :
    let at_ := fun n => (lnk0).setPort 0 { lctlAt := n }
    (ran (.lctlSend 0) (at_ 1832)).out.length = 1 ∧ ran (.lctlSend 0) (at_ 1833) = at_ 1833 ∧
      (ran (.lctlSend 0) ((lnk0).setPort 0 { lctlAt := 5000, freed := [(3, 64)] })).out.length = 1 := by decide +kernel

theorem test_attachment :
    let s := (lnk0).set F.nirFpDie.state (Ix.mod 3) 2
    (s.port 0).alternate = false ∧ s.dieDark (attachDie 0) = true ∧ ((ran (.attachmentSwitch 0) s).port 0).alternate = true ∧
      (lnk0).dieDark (attachDie 0) = false ∧ ran (.attachmentSwitch 0) lnk0 = lnk0 := by decide +kernel

/-- Alive value 128 behind the one expected is a repeat; one ahead is a loss (R407). -/
theorem test_repeat :
    let s := lnk0
    (ran (.signalFrame 0 (fr 3 0 128 0)) s).get F.lnkChkAlive.repeat_ (Ix.mod 0 0) = 1 ∧ (ran (.signalFrame 0 (fr 3 0 127 0)) s).get F.lnkChkAlive.loss (Ix.mod 0 0) = 127 ∧
      (ran (.badtypeFrame 0 (fr 6 0 0 0)) s).get F.lnkCnt.badtype (Ix.mod 0) = 1 ∧ (fr 6 0 0 0).ty = 6 ∧ ran (.badtypeFrame 0 (fr 5 0 0 0)) s = s ∧
      ran (.writeFrame 1 (fr 1 0 0 0)) s = s := by decide +kernel

theorem test_signal_frame :
    let s := lnk0
    let f := fr 3 0 0 (9 * 2 ^ 12 + 4 * 2 ^ 19)
    let dead := { s with tack := [] }
    f.ty = 3 ∧ f.dst = s.ownId ∧ f.alive = 0 ∧ s.attached 0 = true ∧ Map.find s.tack ⟨f.part, f.ext 80 5, f.ext 85 7⟩ = some k0 ∧ s.dieDark 0 = false ∧ s.dieEmber 0 = false ∧
      (ran (.signalFrame 0 f) s).syncQ = [⟨s.now, k0, 9, false, 4, 4⟩] ∧ (ran (.signalFrame 0 f) dead).get F.lnkCnt.drop (Ix.mod 0) = 1 := by decide +kernel

/-- COMPL for a transfer's XID with status 3 and 96 B landed. -/
theorem test_compl_frame :
    let f := (fr 2 1 0 (3 + 96 * 2 ^ 4)).put 64 16 (x0).xid
    let x := { x0 with torus := some 6, launched := some 1600 }
    let s := { lnk0 with flights := [x] }
    f.ty = 2 ∧ f.xid = (x0).xid ∧ s.flight x.id = some x ∧ x.status = none ∧ ((ran (.complFrame 0 f) s).flight x.id).map (fun y => (y.status, y.landed)) = some (some 3, 96) ∧
      (ran (.complFrame 0 f) lnk0).get F.lnkCnt.dupcompl (Ix.mod 0) = 1 := by decide +kernel

/-- A WRITE of three bytes to offset 0x40 of core 0's scratchpad, window 0; and of a window that is closed. -/
theorem test_write_frame :
    let ext := fun win => win * 2 ^ 18 + 0x40 * 2 ^ 22 + 3 * 2 ^ 61
    let f := fr 1 0 0 (ext 0) [1#8, 2#8, 3#8]
    let g := fr 1 0 0 (ext 1) [1#8, 2#8, 3#8]
    let s := lnk0
    let t := ran (.writeFrame 0 f) s
    Sound s ∧ f.ty = 1 ∧ f.first = true ∧ f.last = true ∧ s.frameDst f = some (spadAddr c0 0x40) ∧ addrSpace (spadAddr c0 0x40) = 0 ∧ f.src ≠ f.dst ∧ s.upsets = [] ∧
      f.data.length = f.ext 141 24 ∧ f.ext 165 1 = 0 ∧ (firstCheck f (spadAddr c0 0x40) 3 s).1 = xOk ∧ s.darkAt (spadAddr c0 0x40) = false ∧
      s.gateShut (spadAddr c0 0x40) 3 = false ∧ t.bytes (spadAddr c0 0x40) 3 = [1#8, 2#8, 3#8] ∧ t.inject.length = 1 ∧
      (firstCheck g (spadAddr c0 0x40) 3 s).1 = xWindowClosed ∧ (ran (.writeFrame 0 g) s).inject.length = 1 ∧ (ran (.writeFrame 0 g) s).mem = [] := by
  unfold Sound
  decide +kernel

/-- The module's own COMPL for module 6 leaves by port 0; one of another system or for a module of a ring of one is dropped. -/
theorem test_forward :
    let out := fun (dst : Nat) => (⟨frameHdr 2 1 true true dst 5 2 0 7 0, []⟩ : Frame)
    let s := fun (f : Frame) (l : List (Fld × Ix × Nat)) => { lnk0 l with inject := [f] }
    let down := s (⟨frameHdr 3 1 true true 6 5 2 0 7 0, []⟩) [(F.lnkStat.state, Ix.mod 0, lkFailed)]
    (s (out 6) []).torusPort 6 = some 0 ∧ (s (out 6) []).route (out 6) 6 = some (0, 0) ∧ ((s (out 6) []).port 0).canSend ((out 6).put 6 1 0) = true ∧
      (ran (.frameForward none) (s (out 6) [])).out.length = 1 ∧ ran (.frameForward none) (s (out 0x1006) []) = lnk0 ∧ ran (.frameForward none) lnk0 = lnk0 ∧
      (ran (.frameForward none) down).get F.lnkCnt.drop (Ix.mod 0) = 1 := by decide +kernel

/-- Port 0 is the parent; alignment runs in K5, and every 65,536 st afterwards. -/
def tim0 (l : List (Fld × Ix × Nat) := []) : State := lnk0 ([(F.nirTorusTcfg.tparent, Ix.mod, 0), (F.nirTorusTcfg.lockstep, Ix.mod, 1)] ++ l)

theorem test_time_exchange :
    let s := { tim0 [(F.nirTorusTstat.aligned, Ix.mod, 1)] with stitch := 65536 }
    let k5 := { tim0 with kdl := { kin := some { stage := 5 } } }
    s.timeParent = some 0 ∧ k5.aligning = true ∧ (ran (.timeExchange 77#64) s).net.timeReq = some 77 ∧ (ran (.timeExchange 77#64) k5).net.timeReq = some 77 ∧
      ran (.timeExchange 77#64) { s with stitch := 65535 } = { s with stitch := 65535 } := by decide +kernel

theorem test_tsync_req :
    let s := tim0
    let f := fr 4 3 0 0 (natToBytes 8 1000)
    f.ty = 4 ∧ f.ext 80 4 = 0 ∧ (s.port 0).waiting = [] ∧ (s.port 0).replay = [] ∧ Map.getD (s.port 0).used 6 0 + 2 ≤ 1024 ∧ ((ran (.tsyncReq 0 f 1500#64 1516#64) s).port 0).child = true ∧
      (ran (.tsyncReq 0 f 1500#64 1516#64) s).out.length = 1 := by decide +kernel

/-- Sent at 1,000, received there at 1,500, answered at 1,516, received at 1,100: the offset is ((1000 − 1500) + (1100 − 1516)) / 2 = −458 in
1/8 cc, −4 st and 54 left; after alignment it is too large (R423, R424). -/
theorem test_tsync_resp :
    let f := fr 4 3 0 (1 + 2 * 2 ^ 4 + 2 ^ 9) (natToBytes 8 1000 ++ natToBytes 8 1500 ++ natToBytes 8 1516 ++ natToBytes 8 0)
    let net := fun (s : State) => { s with net := { s.net with timeReq := some 1000 } }
    let k5 := net { tim0 with kdl := { kin := some { stage := 5 } } }
    let t := ran (.tsyncResp 0 f 1100#64) k5
    let later := net (tim0 [(F.nirTorusTstat.aligned, Ix.mod, 1)])
    f.ext 80 4 = 1 ∧ f.ext 89 1 = 1 ∧ f.ext 84 5 = 2 ∧ k5.net.timeReq = some (f.word 0) ∧ t.stitch = 104 ∧ t.get F.nirTorusTstat.depth Ix.mod = 3 ∧
      t.get F.nirTorusTstat.resid Ix.mod = 54 ∧ (ran (.tsyncResp 0 f 1100#64) later).aligned = false ∧ (ran (.tsyncResp 0 f 1100#64) tim0).stitch = 100 := by decide +kernel

/-- A step from the parent for stitch 164, 64 st ahead, and one for 163. -/
theorem test_tsync_step :
    let f := fun at_ => fr 4 3 0 2 (natToBytes 8 at_ ++ natToBytes 8 4)
    let s := { tim0 [(F.nirTorusTstat.aligned, Ix.mod, 1)] with standby := 4, pllLock := List.range 24 }
    let down := s.set F.nirTimeStep.cur_step Ix.mod 3
    let root := s.set F.nirTorusTcfg.tparent Ix.mod 7
    let alone := s.set F.nirTorusTcfg.lockstep Ix.mod 0
    (f 164).ext 80 4 = 2 ∧ down.canAnnounce 4 = true ∧ down.curStep + 1 = 4 ∧ (ran (.tsyncStep 0 (f 164)) down).get F.nirTimeStep.next_step Ix.mod = 4 ∧ s.lockstep = true ∧ s.timeRoot = false ∧ root.timeRoot = true ∧ s.curStep = 5 ∧ (ran (.tsyncStep 0 (f 163)) s).aligned = false ∧
      Map.find (ran (.tsyncStep 0 (f 0)) root).stepReqs .root = some 4 ∧ alone.lockstep = false := by decide +kernel

/-! ## Registers and the host's interfaces -/

/-- The module answers PCIe requests, its stack groups are ready; peer 1 may use management Ethernet. -/
def hst0 (l : List (Fld × Ix × Nat) := []) : State :=
  { wgt0 ([(F.nirMgmtCfg.en, Ix.mod, 1), (F.nirMgmtCfg.peer_en, Ix.mod, 2), (F.nirMgmtPeer.addr, Ix.mod 1, 99), (F.hstPcieStat.bme, Ix.mod, 1),
      (F.stkStat.grp_ready, Ix.stw 0 0, 15)] ++ l) with
    net := { answersAt := some 0, qps := [(7, { ctx := 2, sPsn := 4, ePsn := 20, retries := 1 })] }, wall := 1000000 }

/-- NIR.COOL.CFG: PPL in [13:0], CPV in [31:14], both RW; NIR.THM.SDREC is RO; CORE.CRED.CFG is written by a harness. -/
theorem test_register_write :
    let s := run0
    let t := ran (.registerWrite .nirCoolCfg Ix.mod 0 false (4000#64 <<< 14 ||| 12000#64)) s
    s.unitUp .nirCoolCfg Ix.mod = true ∧ t.get F.nirCoolCfg.ppl Ix.mod = 10000 ∧ t.get F.nirCoolCfg.cpv Ix.mod = 4000 ∧
      (ran (.registerWrite .nirThmSdrec Ix.mod 0 true 0xFF#64) s).get F.nirThmSdrec.cause Ix.mod = 0 ∧ Reg.meetsRwh .coreCredCfg 0 64 = true ∧
      (ran (.registerWrite .coreCredCfg c0.ix 0 false 5#64) s).ignored = [((.coreCredCfg, c0.ix), 1)] ∧
      s.unitUp .coreCredCfg (Ix.mk 1 0 0 0 0) = false := by decide +kernel

/-- PLIM is held between 3,000 and the grade's limit. -/
theorem test_register_commands :
    let s := run0
    s.gradeLimit = 15000 ∧ (ran (.registerWrite .nirPwrGov Ix.mod 0 false 100#64) s).get F.nirPwrGov.plim Ix.mod = 3000 ∧
      (ran (.registerWrite .nirCinchAt Ix.mod 0 false 164#64) s).cinchWait = [] := by decide +kernel

/-- An event of one count adds to the counter in the cycle of the read: the read answers 3 and leaves 1 (R16). -/
theorem test_rc_read :
    let s := run0 [(F.chkCnt.mismatch, k0.ix 3, 3)]
    let t := ran (.rcCounterRead .chkCnt (k0.ix 3) 16 true) s
    s.unitUp .chkCnt (k0.ix 3) = true ∧ (⟨16, 16, .rc, 0⟩ : FieldSpec) ∈ Reg.fields .chkCnt ∧ isCounter .chkCnt 16 = true ∧ t.out = [.answer 3 true] ∧
      t.get F.chkCnt.mismatch (k0.ix 3) = 1 ∧ (ran (.rcCounterRead .chkCnt (k0.ix 3) 16 false) s).get F.chkCnt.mismatch (k0.ix 3) = 0 ∧
      ran (.rcCounterRead .chkCnt (k0.ix 3) 8 true) s = s := by decide +kernel

/-- NIR.COOL.CFG stands at 0x7008, alone in its 8 B word; LNK[0].CNT at 0x500010. -/
theorem test_bar0 :
    let s := hst0 [(F.lnkCnt.drop, Ix.mod 0, 6)]
    let t := ran (.bar0Access 0x500010#28 none 4) s
    s.pcieUp = true ∧ s.barPlace 0x7008 = .reg .nirCoolCfg Ix.mod 0 ∧ s.barPlace 0x500010 = .reg .lnkCnt (Ix.mod 0) 0 ∧ s.barPlace 0x500014 = .reg .lnkCnt (Ix.mod 0) 4 ∧
      t.out = [.answer (6 * 2 ^ 16) true] ∧ t.get F.lnkCnt.drop (Ix.mod 0) = 0 ∧ s.barOk 0xFFFFFFC 4 = true ∧ s.barOk 0x7009 4 = false ∧
      (ran (.bar0Access 0x7009#28 (some 1#64) 4) s).get F.hstPcieRefaddr.addr Ix.mod = 0x7009 ∧ (ran (.bar0Access 0x7009#28 none 4) s).out = [.answer 0 false] ∧
      s.barPlace 0x700C = .reserved ∧ ran (.bar0Access 0x7008#28 none 4) run0 = run0 := by decide +kernel

theorem test_mgmt :
    let s := hst0
    s.mgmtFrom 99#128 = true ∧ s.mgmtFrom 98#128 = false ∧ (ran (.mgmtRead32 99#128 7#8 0x7008#32) s).out = [.mgmt 1 7 0 (100 + 4150 * 2 ^ 14)] ∧
      (ran (.mgmtWrite64 99#128 7#8 0x500010#32 0#64) s).out = [.mgmt 4 7 0 0] ∧ (ran (.mgmtRead64 99#128 7#8 4#32) s).out = [.mgmt 3 7 1 0] ∧
      (ran (.mgmtWrite32 99#128 7#8 0x10000000#32 0#64) s).out = [.mgmt 2 7 1 0] ∧ ran (.mgmtRead32 98#128 7#8 0#32) s = s ∧
      (ran (.mgmtConsoleBytes 99#128 7#8 (List.replicate 257 1#8)) s).net.conIn.length = 256 ∧ (ran (.mgmtBadOp 99#128 6#8 7#8) s).out = [.mgmt 6 7 2 0] := by
  decide +kernel

theorem test_console :
    let s := hst0
    s.shut = false ∧ (ran (.consoleRegisterRead 0x7008#32 false) s).out = [.answer (100 + 4150 * 2 ^ 14) true] ∧
      (ran (.consoleRegisterWrite 0x7008#32 false (4000#64 <<< 14)) s).get F.nirCoolCfg.ppl Ix.mod = 1 ∧ (ran (.consoleRegisterRead 2#32 false) s).out = [.answer 0 false] ∧
      ran (.consoleKindlingCommand .full) { s with shut := true } = { s with shut := true } := by decide +kernel

/-- BAR2's lower half shows die 0, whose stacks class 4 may reach up to offset 0xFFFFF. -/
theorem test_bar2 :
    let s := hst0 [(F.stkWin.srcmask, Ix.stw 0 0, 16)]
    s.get F.hstBar2sel.die (Ix.mod 0) = 0 ∧ s.stackAccess 4 0 0xFFFFE 2 = true ∧ s.stackAccess 4 0 0xFFFFE 3 = false ∧
      (ran (.bar2Access 0xFFFFE#36 (some [1#8, 2#8]) 0 .clean) s).stackWrites.length = 1 ∧ (ran (.bar2Access 0xFFFFE#36 none 2 .clean) s).out = [.dynDone (fabStack 0 0xFFFFE) xOk [0#8, 0#8]] ∧
      (ran (.bar2Access 0xFFFFE#36 none 3 .clean) s).get F.hstPcieCnt.refrd Ix.mod = 1 ∧ (ran (.bar2Access 0xFFFFE#36 (some [1#8, 2#8, 3#8]) 0 .clean) s).get F.hstPcieCnt.refwr Ix.mod = 1 ∧
      ran (.bar2Access 0#36 none 8 .clean) run0 = run0 := by decide +kernel

theorem test_qp_enable :
    let s := hst0 [(F.hstQp.rpsn, Ix.mod 9, 33)]
    let t := ran (.qpEnableWrite 9 true) s
    s.bit F.hstQp.en (Ix.mod 9) = false ∧ t.get F.hstQp.state (Ix.mod 9) = 1 ∧ (Map.find t.net.qps 9).map (fun k => k.ePsn) = some 33 ∧ s.wts.jobs = [] ∧
      (ran (.qpEnableWrite 9 false) t).get F.hstQp.state (Ix.mod 9) = 0 ∧ ran (.qpEnableWrite 9 true) t = t := by decide +kernel

/-- Queue pair 7 belongs to partition 2 and expects PSN 20; region 3 is the first 4 KiB of die 0. -/
def rdma0 (l : List (Fld × Ix × Nat) := []) : State :=
  let s := hst0 ([(F.hstMr.en, Ix.mod 3, 1), (F.hstMr.rkey, Ix.mod 3, 55), (F.hstMr.wr, Ix.mod 3, 1), (F.hstMr.rd, Ix.mod 3, 1), (F.hstMr.size, Ix.mod 3, 0x1000)] ++ l)
  s.setQp 7 { ctx := 2 + 2 * 2 ^ 8, sPsn := 4, ePsn := 20, retries := 1 }

theorem test_rdma :
    let s := rdma0
    let w := fun (psn : BitVec 24) (va : Word64) => ran (.rdmaWriteRequest 7 psn 55#32 va [1#8, 2#8] false) s
    s.get F.hstQp.state (Ix.mod 7) = 1 ∧ (s.qp 7).ePsn = 20 ∧ s.rdmaDie 7 true 55 0xFFE 2 = some 0 ∧ s.rdmaDie 7 false 55 0xFFF 2 = none ∧ ((w 20#24 0xFFE#64).qp 7).ePsn = 21 ∧
      (w 20#24 0xFFE#64).stackWrites.length = 1 ∧ (w 20#24 0xFFF#64).get F.hstRdmaCnt.accerr Ix.mod = 1 ∧ (w 21#24 0#64).out = [.rdmaReply 7 rdSequence []] ∧
      (w 19#24 0#64).out = [.rdmaReply 7 rdAck []] ∧ (ran (.rdmaReadRequest 7 19#24 55#32 0#64 2 false .clean) s).out = [.rdmaReply 7 rdAck [0#8, 0#8]] ∧
      ran (.rdmaWriteRequest 6 20#24 55#32 0#64 [1#8] false) s = s := by decide +kernel

theorem test_rdma_others :
    let s := rdma0
    let job := { s with wts := { jobs := [(0, { job0 with landed := 0x7FFE })] } }
    (s.qp 7).cnpAt = none ∧ (ran (.rdmaReadRequest 7 21#24 55#32 0#64 2 true .clean) s).out = [.cnp 7, .rdmaReply 7 rdSequence []] ∧
      (ran (.rdmaInvalidRequest 7) s).get F.hstRdmaCnt.invreq Ix.mod = 1 ∧ ((ran (.cnpReceive 7) s).qp 7).rate = 1 / 2 ∧ ((ran (.qpRetryTimeout 7) job).qp 7).retries = 0 ∧
      (ran (.qpRetryTimeout 7) job).out = [.rdmaRead 7 3 0x7FFE 0 2] ∧ (s.qp 7).retries = 0 + 1 := by decide +kernel

theorem test_pfc :
    let s := rdma0
    Map.find (ran (.pfcFrame 1 3 100) s).net.pfc (1, 3) = some 1001584 ∧ Map.find (ran (.pfcFrame 1 3 0) s).net.pfc (1, 3) = none := by decide +kernel

/-- A read whose retry failed answers ECC_UE and is counted (R277). -/
theorem test_read_ecc :
    let s := hst0 [(F.stkWin.srcmask, Ix.stw 0 0, 16)]
    let t := ran (.bar2Access 0xFFFFE#36 none 2 .failed) s
    t.out = [.dynDone (fabStack 0 0xFFFFE) xEccUe []] ∧ t.get F.stkEcc.ue (Ix.stw 0 0) = 1 ∧
      (ran (.rdmaReadRequest 7 20#24 55#32 0#64 2 false .failed) rdma0).out = [.rdmaReply 7 rdFailed []] := by decide +kernel

/-- A W1C bit that hardware set in this cycle stays set (R16). -/
theorem test_w1c_same_cycle :
    let s := run0 [(F.cluRtrErr.static_err, k0.ix, 1)]
    let old := { run0 with cycleRegs := some (run0).regs }.set F.cluRtrErr.static_err k0.ix 1
    (ran (.registerWrite .cluRtrErr k0.ix 0 true 0xFFFFFFFFFFFFFFFF#64) s).get F.cluRtrErr.static_err k0.ix = 0 ∧ old.before.get F.cluRtrErr.static_err k0.ix = 0 ∧
      (ran (.registerWrite .cluRtrErr k0.ix 0 true 0xFFFFFFFFFFFFFFFF#64) old).get F.cluRtrErr.static_err k0.ix = 1 := by decide +kernel
/-- An event ring of 64 entries, one event waiting. -/
def evt0 (l : List (Fld × Ix × Nat) := []) : State :=
  { hst0 ([(F.nirEvqCfg.en, Ix.mod, 1), (F.nirEvqCfg.size_log2, Ix.mod, 6), (F.nirEvqBase.addr, Ix.mod, 0x4000), (F.nirEvqProd.count, Ix.mod, 63),
      (F.nirEvqProdaddr.addr, Ix.mod, 0x100)] ++ l) with events := [⟨0x28, 2, 0, some 2, 7, 100, false, []⟩] }

theorem test_event_write :
    let s := evt0
    let t := ran .eventWrite s
    let full := evt0 [(F.nirEvqProd.count, Ix.mod, 64)]
    min s.evqRoom s.events.length = 1 ∧ t.events = [] ∧ t.get F.nirEvqProd.count Ix.mod = 64 ∧
      t.out.head? = some (.hostWrite (0x4000 + 128 * 63) (natToBytes 2 0x28 ++ [2 + 4 + 16] ++ [0#8] ++ natToBytes 4 7 ++ natToBytes 8 100 ++ List.replicate 112 0#8)) ∧
      full.evqRoom = 0 ∧ ran .eventWrite full = full ∧ (ran (.eventConsWrite 1#32) full).get F.nirEvqProd.count Ix.mod = 65 := by decide +kernel

theorem test_pcie_config :
    let s := evt0 [(F.hstPcieStat.bme, Ix.mod, 0)]
    s.net.perst = false ∧ s.net.answersAt = some 0 ∧ (ran (.pcieConfigWrite 1 4#32) s).events = [] ∧ (ran (.pcieConfigWrite 1 4#32) s).get F.hstPcieStat.bme Ix.mod = 1 ∧
      (ran (.pcieConfigWrite 1 3#32) evt0).get F.hstPcieStat.bme Ix.mod = 0 ∧ (ran (.pcieConfigWrite 4 9#32) s).net.pcieCfg = [(4, 9)] ∧ ran (.pcieConfigWrite 1 4#32) run0 = run0 := by
  decide +kernel

theorem test_perst :
    let s := evt0 [(F.nirPwrStat.vbus, Ix.mod, 5400)]
    let t := ran .perstAssert s
    t.pcieUp = false ∧ t.get F.hstPcieStat.bme Ix.mod = 0 ∧ (ran .perstDeassert t).net.answersAt = some 1000000 ∧
      (ran .perstDeassert (t.set F.nirPwrStat.vbus Ix.mod 5399)).net.answersAt = none ∧ ran .perstDeassert s = s ∧ (ran .functionLevelReset s).pcieUp = true := by decide +kernel

theorem test_pmbus :
    let s := { hst0 with net := { pmStatus := 5 } }
    (ran .statusWord s).out = [.answer 5 true] ∧ (ran .clearFaults s).smbAlert = false ∧ (ran .smbusUnknownCommand s).out = [.nack] ∧
      ran .readVin { s with shut := true } = { s with shut := true } := by decide +kernel

theorem test_jtag :
    let s := hst0
    (ran (.jtagSamplePreload 5 6) s).out = [.answer 5 true] ∧ (ran (.jtagExtest 5) (ran (.jtagSamplePreload 5 6) s)).net.jtagScan = 6 ∧ (ran .jtagBypass s).out = [.answer 0 true] ∧
      (ran (.jtagKeyProgram 3 1#384 2#384) s).keys = [(3, (1, 2))] ∧ (ran (.jtagKeyProgram 3 1#384 2#384) { s with net := { mfgLock := true } }).out = [.answer 0 false] := by
  decide +kernel

/-! ## Power -/

/-- The supply is at 60 V; die 0 has two billets of 450 A. -/
def pow0 (l : List (Fld × Ix × Nat) := []) : State :=
  { run0 ([(F.nirPwrStat.vbus, Ix.mod, 6000), (F.nirBilStat.state, Ix.mod 0, 2), (F.nirBilStat.state, Ix.mod 1, 2), (F.nirBilStat.ilim, Ix.mod 0, 450),
      (F.nirBilStat.ilim, Ix.mod 1, 450), (F.stwPwrRail.cap_a, Ix.stw 0, 900)] ++ l) with
    billets := [(0, { mem := List.replicate 256 0#8 }), (1, { mem := List.replicate 256 0#8 })] }

/-- The ranges of Table 14.1 at their ends: 45, 51, 54, 63 and 66 V. -/
theorem test_bus_ranges :
    let s := pow0
    (ran (.busLow 5399) s).get F.nirPwrStat.supply Ix.mod = 1 ∧ ran (.busLow 5400) s = s ∧ (ran (.busLow 5100) s).get F.nirPwrGov.gov_step Ix.mod = 1 ∧
      ran (.busLow 5099) s = s ∧ (ran (.busEmberRange 4500) s).get F.nirPwrStat.supply Ix.mod = 2 ∧ (ran (.busEmberRange 5099) s).embers = [(none, (164, 2))] ∧
      ran (.busEmberRange 5100) s = s ∧ (ran (.busHigh 6600) s).get F.nirPwrStat.supply Ix.mod = 3 ∧ ran (.busHigh 6300) s = s ∧ ran (.busHigh 6601) s = s := by decide +kernel

theorem test_bus_low_repeat :
    let s := pow0 [(F.nirPwrStat.supply, Ix.mod, 1), (F.nirPwrGov.gov_step, Ix.mod, 4)]
    (ran .busLowRepeat s).get F.nirPwrGov.gov_step Ix.mod = 5 ∧ Map.find (ran .busLowRepeat s).stepReqs .governor = some 5 ∧ (ran (.busRestored 5450) s).get F.nirPwrStat.supply Ix.mod = 0 ∧
      ran (.busRestored 5449) s = s ∧ ran .busLowRepeat pow0 = pow0 := by decide +kernel

theorem test_bus_off :
    let s := pow0
    (ran (.busUndervoltage 4499 true) s).shut = true ∧ (ran (.busUndervoltage 4499 true) s).out.length = 1 ∧ ran (.busUndervoltage 4500 true) s = s ∧
      (ran (.busOvervoltage 6601 false) s).stitch = 0 ∧ ran (.busOvervoltage 6600 false) s = s := by decide +kernel

/-- An identity area of the wrong length starts no kindling. -/
theorem test_bus_on :
    let s := { pow0 with shut := true }
    let t := ran (.busPowerOn 5400 [] true []) s
    t.get F.nirKindleStat.cause Ix.mod = 7 ∧ t.shut = false ∧ t.faultPin = true ∧ ran (.busPowerOn 5399 [] true []) s = s ∧ ran (.busPowerOn 6301 [] true []) s = s ∧
      ran (.busPowerOn 6000 [] true []) { s with shut := false, kdl := { kin := some {} } } = { s with shut := false, kdl := { kin := some {} } } := by decide +kernel

/-- Baseplate temperature down 25 °C (100 codes) from a maximum is a cycle (R444). -/
theorem test_billet_report :
    let s := { pow0 with billets := [(0, { up := true, turn := some 400 })] }
    let cyc := fun tbp => (Map.find (ran (.billetReport 0 100 20 tbp) s).billets 0).map fun x => x.wear.cyc
    cyc 300 = some 1 ∧ cyc 301 = some 0 ∧ (ran (.billetReport 0 100 20 300) s).get F.nirBilMeas.iout (Ix.mod 0) = 100 ∧ ran (.billetReport 1 0 0 0) s = s := by decide +kernel

theorem test_billet_trip :
    let s := pow0
    let t := ran (.billetTrip 0 2) s
    s.bilOn 0 = true ∧ t.get F.stwPwrRail.cap_a (Ix.stw 0) = 450 ∧ t.get F.nirPwrGov.gov_step Ix.mod = 1 ∧ t.dying = [] ∧ t.bilOn 1 = true ∧
      ran (.billetTrip 2 2) s = s ∧ (Map.find s.billets 0).isSome = true ∧ ran (.billetWithdrawn 2) s = s := by decide +kernel

theorem test_billet_inserted :
    (Map.find (ran (.billetInserted 2 [1#8]) pow0).billets 2).map (fun x => (x.mem, x.fitted)) = some ([1#8], true) ∧ ran (.billetInserted 1 []) pow0 = pow0 := by decide +kernel

theorem test_billet_wear :
    let s := pow0
    (s.billets.map fun e => e.1).Nodup ∧ s.bilOn 0 = true ∧ (Map.find (ran .billetWearUpdate s).billets 0).map (fun x => (x.n, x.wear.eqh)) = some (0, 0) ∧
      (ran .billetWearSave s).flashWear.length = 1 := by decide +kernel

/-! ## Regions -/

/-- Region (0, 1) in a power state, its sequence at q; at stitch 5,000. -/
def r1 : CluId := ⟨0, 1⟩
def reg0 (stt : Nat) (q : RegionSeq := {}) (l : List (Fld × Ix × Nat) := []) : State :=
  { pow0 ([(F.cluPwrStat.state, r1.ix, stt)] ++ l) with stitch := 5000, seqs := [(r1, q)] }

theorem test_region_commands :
    let s := reg0 rOff
    let stat := fun (i : Instr) (s : State) => (ran i s).get F.stwPwrSeqResult.status (Ix.stw 0)
    s.dieDark 0 = false ∧ s.regionBound r1 = false ∧ stat (.regionOn r1 5002#64) s = 1 ∧ ((ran (.regionOn r1 5003#64) s).seq r1).onAt = some 5003 ∧
      stat (.regionOn r1 5003#64) (reg0 rDead) = 3 ∧ stat (.regionOn r1 5003#64) (reg0 rOn) = 4 ∧ stat (.regionOff r1 5002#64) s = 1 ∧ stat (.regionOff r1 5003#64) (reg0 rDead) = 3 ∧
      stat (.regionOff r1 5003#64) s = 4 ∧ ((ran (.regionOff r1 5003#64) (reg0 rOn)).seq r1).offAt = some 5003 := by decide +kernel

theorem test_region_bound :
    let s := { reg0 rOn with active := [(2, { h0 with raw := [⟨vkey 2 1 1, 0x10#8, 0, 0⟩] })] }
    s.regionBound k0 = true ∧ (ran (.regionOff k0 5003#64) s).get F.stwPwrSeqResult.status (Ix.stw 0) = 2 := by decide +kernel

theorem test_phase :
    let s := reg0 rOn { failed := 3 }
    let t := ran (.phaseFailure r1 8) s
    s.dieDark 0 = false ∧ (t.seq r1).failed = 0x103 ∧ t.get F.cluPwrStat.nfail r1.ix = 3 ∧ (t.seq r1).toDead = true ∧ ran (.phaseFailure r1 0) s = s ∧
      ran (.phaseFailure r1 8) (reg0 rOff) = reg0 rOff := by decide +kernel

theorem test_prep :
    let s := reg0 rPrep { since := 4968 }
    ((ran (.regionPrepEnd r1 3#9) s).seq r1).ready = true ∧ (ran (.regionPrepEnd r1 7#9) s).regionState r1 = rDead ∧ phases 3 = 2 ∧
      ran (.regionPrepEnd r1 0#9) (reg0 rPrep { since := 4969 }) = reg0 rPrep { since := 4969 } := by decide +kernel

/-- The first stage needs 6 A: with 706 A of the 730 A in use it begins, with 725 A the region waits. -/
theorem test_header_stage :
    let s := reg0 rPrep { ready := true }
    let use := fun (s : State) n => { s with transitI := [(0, n)] }
    let q : RegionSeq := { stage := 4, since := 4936, len := 64 }
    s.slowDue r1 = false ∧ s.lowerDue r1 = false ∧ (use s 72400).headroom r1 1 = true ∧ (use s 72401).headroom r1 1 = false ∧
      (ran (.regionHeaderStage r1) (use s 72400)).regionState r1 = rLadder ∧ (ran (.regionHeaderStage r1) (use s 72401)).regionState r1 = rWait ∧
      ((ran (.regionHeaderStage r1) (reg0 rPrep { ready := true } [(F.cluPwrStat.slow, r1.ix, 1)])).seq r1).len = 128 ∧ (reg0 rLadder q).stitch = q.since + q.len ∧
      ran (.regionHeaderStage r1) (reg0 rLadder { q with since := 4937 }) = reg0 rLadder { q with since := 4937 } := by decide +kernel

theorem test_wait :
    let s := reg0 rWait { since := 4984, firstWait := some 905 }
    let slow := reg0 rWait { since := 4984, firstWait := some 904 }
    s.checkDue r1 = true ∧ s.lowerDue r1 = false ∧ s.slowDue r1 = false ∧ (ran (.regionWaitRecheck r1) s).regionState r1 = rLadder ∧ slow.slowDue r1 = true ∧
      slow.checkDue r1 = false ∧ ((ran (.regionSlowLadder r1) slow).seq r1).len = 128 ∧ ran (.regionSlowLadder r1) s = s ∧
      (reg0 rLadder { firstWait := some 904 }).slowDue r1 = true := by decide +kernel

/-- The clearing ends 16 st after it began. -/
theorem test_clearing_end :
    let s := reg0 rClearing { since := 4984 }
    (ran (.regionClearingEnd r1) s).regionState r1 = rOn ∧ (ran (.regionClearingEnd r1) s).get F.cluPwrCnt.powerups r1.ix = 1 ∧
      ran (.regionClearingEnd r1) (reg0 rClearing { since := 4985 }) = reg0 rClearing { since := 4985 } := by decide +kernel

theorem test_power_down :
    let q : RegionSeq := { offAt := some 5000 }
    let t := ran (.regionPowerDown r1) (reg0 rOn q)
    t.regionState r1 = rDown ∧ (Map.find t.fences (.region r1)).isSome = true ∧ (t.core ⟨0, 1, 2⟩).stopAt = some t.now ∧ (ran (.regionPowerDown r1) (reg0 rWait q)).regionState r1 = rDown ∧
      (ran (.regionPowerDown r1) (reg0 rDead q)).seq r1 = {} ∧ ran (.regionPowerDown r1) (reg0 rOn { offAt := some 5001 }) = reg0 rOn { offAt := some 5001 } := by decide +kernel

theorem test_header_open :
    let q : RegionSeq := { openAt := some 5000, stage := 2, toDead := true }
    let fence := { reg0 rDown { stage := 4 } with fences := [(.region r1, { start := 4900, closedAt := some 4990 })] }
    ((ran (.regionHeaderOpen r1) (reg0 rDown q)).seq r1).openAt = some 5016 ∧ (ran (.regionHeaderOpen r1) (reg0 rDown { q with stage := 0 })).regionState r1 = rDead ∧
      ((ran (.regionHeaderOpen r1) fence).seq r1).openAt = some 5006 ∧ (fence.seq r1).openAt = none ∧ ran (.regionHeaderOpen r1) (reg0 rDown) = reg0 rDown := by decide +kernel

theorem test_short :
    let t := ran (.regionShort r1) (reg0 rOn)
    t.regionState r1 = rDead ∧ t.get F.stwPwrCnt.shorts (Ix.stw 0) = 1 ∧ ran (.regionShort r1) (reg0 rPrep) = reg0 rPrep := by decide +kernel

/-! ## The governor -/

theorem test_stitch_request :
    let s := reg0 rOff
    let t := ran (.hostStitchRequest r1 true 5000#64) s
    t.stwQ = [(0, true, 1, 5064)] ∧ t.out = [.answer 5064 true] ∧ ((ran (.stewardCommand 0) t).seq r1).onAt = some 5064 ∧ ran (.stewardCommand 1) t = t := by decide +kernel

theorem test_current_report :
    let s := { reg0 rOn with stitch := 4992 }
    let t := ran (.regionCurrentReport 0 (some 1) 1500 [400, 399, 1000, 1001]) s
    s.stitch % 16 = 0 ∧ s.dieDark 0 = false ∧ t.get F.cluPwrMeas.ireg r1.ix = 1023 ∧ (t.win r1).sum = 1500 ∧ t.get F.cluPwrMeas.valid r1.ix = 5 ∧
      Map.find (ran (.regionCurrentReport 0 none 70 []) s).transitI 0 = some 70 ∧ (reg0 rOff).wins = [] ∧
      ran (.regionCurrentReport 0 (some 1) 1500 []) (reg0 rOn) = reg0 rOn := by decide +kernel

/-- PLIM is 15,000 W at reset; 90 % of it lets the governor release after 2^20 stitches; an average that stays above it raises a step. -/
theorem test_governor :
    let s := fun n g => { pow0 [(F.nirPwrPin.p1ms, Ix.mod, n), (F.nirPwrPin.p100us, Ix.mod, n), (F.nirPwrGov.gov_step, Ix.mod, g)] with stitch := 2 ^ 20 }
    let above := fun (g : Nat) => { s 15001 g with mon := { overIn := some 0, peakIn := some 1 } }
    let peak := fun (g : Nat) => { s 16501 g with mon := { peakIn := some 0 } }
    (s 0 0).powerLimit = 15000 ∧ (s 0 0).peakLimit = 16500 ∧ (above 4).mon.overIn = some 0 ∧ (ran (.governorInputCheck false) (above 4)).get F.nirPwrGov.gov_step Ix.mod = 5 ∧
      (ran (.governorInputCheck false) (above 4)).mon.overIn = some 100 ∧ ran (.governorInputCheck true) (above 4) = above 4 ∧
      (ran (.governorInputCheck true) (peak 5)).get F.nirPwrGov.gov_step Ix.mod = 5 ∧
      (ran .governorRelease (s 13500 2)).get F.nirPwrGov.gov_step Ix.mod = 1 ∧ ran .governorRelease (s 13501 2) = s 13501 2 ∧
      ran .governorRelease { s 0 2 with govSince := 1 } = { s 0 2 with govSince := 1 } := by decide +kernel

/-- A steward refuses a stitch that is too near; it switches region (0, 1) on, or off where nothing is bound to it; no region 130 exists. -/
theorem test_steward :
    let s := fun (stt : Nat) (q : List (Nat × Bool × Nat × Nat)) => { reg0 stt with stwQ := q }
    let stat := fun (t : State) => t.get F.stwPwrSeqResult.status (Ix.stw 0)
    (s rOff []).dieDark 0 = false ∧ (s rOff []).bit F.stwThmCt.heatoff (Ix.stw 0 1) = false ∧ (s rOn []).regionBound r1 = false ∧
      stat (ran (.stewardCommand 0) (s rOff [(0, true, 1, 5002)])) = 1 ∧ ((ran (.stewardCommand 0) (s rOff [(0, true, 1, 5003)])).seq r1).onAt = some 5003 ∧
      ((ran (.stewardCommand 0) (s rOn [(0, false, 1, 5003)])).seq r1).offAt = some 5003 ∧ ran (.stewardCommand 0) (s rOff [(0, true, 130, 5003)]) = s rOff [] := by
  decide +kernel

/-- Region (0, 1) is alone and ON; its mean current over the window is far above a budget of nothing. -/
def win1 (x : RegionWin) (l : List (Fld × Ix × Nat) := []) : State :=
  { reg0 rOn {} ([(F.cluPwrStat.state, k0.ix, rOff), (F.cluPwrStat.code, r1.ix, 20), (F.cluPwrMeas.valid, r1.ix, 15)] ++ l) with stitch := 5120, lastWin := some 19, wins := [(r1, x)] }

theorem test_window_start :
    let x : RegionWin := { sum := 16000, n := 16, low := some 700, decl := some 0, excess := 7 }
    let s := win1 x
    let t := ran .creditWindowStart s
    let quiet := win1 { sum := 0, n := 16, low := some 609, decl := some 0 }
    s.onRegions = [r1] ∧ s.curStep = 5 ∧ x.over s.winStep = true ∧ t.lastWin = some 20 ∧ t.get F.cluPwrCnt.excess r1.ix = 1 ∧ t.get F.nirPwrGov.gov_step Ix.mod = 1 ∧
      (t.win r1).n = 0 ∧ (ran .creditWindowStart quiet).get F.cluPwrStat.code r1.ix = 21 ∧ (ran .creditWindowStart quiet).get F.cluPwrCnt.excess r1.ix = 0 ∧
      (ran .creditWindowStart { s with lastStep := some 4864 }).get F.cluPwrCnt.excess r1.ix = 0 ∧ ran .creditWindowStart { s with stitch := 5121 } = { s with stitch := 5121 } := by
  decide +kernel

/-! ## Telemetry -/

def tlm0 (t : Telemetry) (l : List (Fld × Ix × Nat) := []) : State := { run0 l with tlm := [(0, t)] }

/-- A code of 3 is stored as 0 in FB_SEL. -/
theorem test_references :
    let s := tlm0 {} [(F.tlmRef.main_ok, Ix.stw 0, 1), (F.tlmRef.fb_ok, Ix.stw 0, 1)]
    let en := ran (.mainRefEnable 0 true) s
    en.get F.tlmRef.main_en (Ix.stw 0) = 1 ∧ (ran (.mainRefEnable 0 false) en).get F.tlmRef.main_ok (Ix.stw 0) = 0 ∧ (ran (.mainRefSettled 0) (ran (.mainRefEnable 0 true) run0)).reference 0 = 1 ∧
      ran (.mainRefSettled 0) s = s ∧ ran (.fallbackSelect 0 3) s = s ∧ (ran (.fallbackSelect 0 2) s).get F.tlmRef.fb_ok (Ix.stw 0) = 0 ∧
      (ran (.fallbackSettled 0) run0).reference 0 = 2 := by decide +kernel

theorem test_acc_queue :
    let s := tlm0 { queue := [5, 6] } [(F.tlmAccSum.sum, Ix.stw 0 9, 77)]
    (ran (.accClear 0 9) s).get F.tlmAccSum.sum (Ix.stw 0 9) = 0 ∧ (ran (.accClear 0 9) s).get F.tlmAccRange.min (Ix.stw 0 9) = 0xFFF ∧
      (ran (.queueRead 0) s).out = [.answer 5 true] ∧ (ran (.queueRead 0) s).get F.tlmQ.entry (Ix.stw 0) = 6 := by decide +kernel

/-- A result of the cycle of a clear counts after it; a read takes no entry of its cycle, and one that a full queue lost comes in (R474, R489). -/
theorem test_acc_queue_cycle :
    let q := { ({} : Telemetry) with cycle := 1600, hits := [(9, 100), (9, 50), (8, 7)], queue := [5, 6], fresh := 1, lost := [9] }
    let s := tlm0 q [(F.tlmAccSum.sum, Ix.stw 0 9, 777), (F.tlmCnt.qovf, Ix.stw 0, 1)]
    let c := ran (.accClear 0 9) s
    let r := ran (.queueRead 0) s
    c.get F.tlmAccSum.sum (Ix.stw 0 9) = 150 ∧ c.get F.tlmAccSum.count (Ix.stw 0 9) = 2 ∧ c.get F.tlmAccRange.min (Ix.stw 0 9) = 50 ∧
      c.get F.tlmAccRange.max (Ix.stw 0 9) = 100 ∧ (s.tlmNow 0).fresh < (s.tlmNow 0).queue.length ∧ r.out = [.answer 5 true] ∧ (r.tlmOf 0).queue = [6, 9] ∧
      r.get F.tlmCnt.qovf (Ix.stw 0) = 0 ∧ (ran (.queueRead 0) (tlm0 { q with fresh := 2 })).out = [.answer 0 true] := by decide +kernel

/-- Channel 4 of converter C1: an urgent request, one too many in the frame, one while another waits; a triggered one, and a full queue. -/
theorem test_requests :
    let s := fun (c : Converter) l => tlm0 { c1 := c } ([(F.tlmCh.conv, Ix.stw 0 4, 1), (F.tlmCh.trig, Ix.stw 0 4, 1)] ++ l)
    let count := fun f (c : Converter) l i => (ran i (s c l)).get f (Ix.stw 0)
    (s {} []).dieDark 0 = false ∧ (ran (.tlmUrgWrite 0 4) (s { urgents := 7 } [])).tlm = [(0, { c1 := { urgent := some 4, urgents := 8 } })] ∧
      count F.tlmCnt.urg_limit { urgents := 8 } [] (.tlmUrgWrite 0 4) = 1 ∧ count F.tlmCnt.urg_busy { urgent := some 3 } [(F.tlmCh.urg, Ix.stw 0 4, 1)] (.channelTrigger 0 4) = 1 ∧
      (ran (.channelTrigger 0 4) (s {} [])).tlm = [(0, { c1 := { waiting := [4] } })] ∧ count F.tlmCnt.trig_drop { waiting := List.replicate 8 1 } [] (.channelTrigger 0 4) = 1 ∧
      ran (.channelTrigger 0 5) (s {} []) = s {} [] := by decide +kernel

theorem test_urgent :
    let c : Converter := { urgent := some 4, slot := 200 }
    let s := tlm0 { c0 := c } [(F.tlmRef.main_ok, Ix.stw 0, 1), (F.tlmCh.acc, Ix.stw 0 4, 9)]
    let q := tlm0 { c0 := { c with cur := some 8 } } [(F.tlmRef.main_ok, Ix.stw 0, 1), (F.tlmCh.dest, Ix.stw 0 4, 1)]
    (ran (.urgentConversion 0 0 100) s).get F.tlmAccSum.sum (Ix.stw 0 9) = 100 ∧ (ran (.urgentConversion 0 0 100) s).get F.tlmCnt.aborts (Ix.stw 0) = 0 ∧
      (ran (.urgentConversion 0 0 100) q).get F.tlmCnt.aborts (Ix.stw 0) = 1 ∧ ((ran (.urgentConversion 0 0 100) q).tlmOf 0).queue.length = 1 ∧
      ran (.urgentConversion 0 1 100) s = s := by decide +kernel

/-- Sensor 5 of line A at 760 is valid, at 761 not; a line off its code by 12 LSB passes, by 13 fails for the second time. -/
theorem test_slots :
    let s := tlm0 { c0 := { slot := 5, ref := 1 } }
    let selfTest := fun code => ran (.conversionSlot 0 0 code 0) (tlm0 { c0 := { slot := 132, ref := 1, test := true }, lines := [(0, 1)] })
    let ch := ran (.conversionSlot 0 0 9 0) (tlm0 { c0 := { slot := 255, ref := 1, cur := some 4 } })
    ((ran (.conversionSlot 0 0 0 760) s).tlmOf 0).samples = [(5, 760)] ∧ ((ran (.conversionSlot 0 0 0 761) s).tlmOf 0).samples = [] ∧
      (selfTest 1036).lineFaulty 0 0 = false ∧ (selfTest 1037).lineFaulty 0 0 = true ∧ ch.get F.tlmAccSum.sum (Ix.stw 0 0) = 9 ∧ (ch.tlmOf 0).c0.slot = 0 ∧ (ch.tlmOf 0).c0.frames = 1 ∧
      (ran (.conversionSlot 0 0 0 5) (tlm0 { c0 := { slot := 128 } })).get F.tlmCnt.noref (Ix.stw 0) = 1 := by decide +kernel

theorem test_frame_due :
    let s := tlm0 { c0 := { frames := 3 }, c1 := { frames := 3 }, formed := 2 }
    s.dieDark 0 = false ∧ (s.tlmOf 0).formed < min (s.tlmOf 0).c0.frames (s.tlmOf 0).c1.frames ∧
      ran (.telemetryFrameEnd 0 none none) (tlm0 { c0 := { frames := 3 }, c1 := { frames := 2 }, formed := 2 }) = tlm0 { c0 := { frames := 3 }, c1 := { frames := 2 }, formed := 2 } := by
  decide +kernel

/-! ## Thermal protection and cooling -/

/-- Die 0 at a temperature code, its report due; the runs of throttle and hard-limit reports of the die before. -/
def hot0 (t : Nat) (run : Nat × Nat) : State := { tlm0 { formed := 1 } [(F.stwThmDie.tdie, Ix.stw 0, t)] with thmRun := [((0, 0), run)] }

/-- Throttle above code 540 and the hard limit at 600, each in two reports. -/
theorem test_thermal_report :
    let s := hot0 541 (1, 0)
    let t := ran (.thermalReport 0 false) s
    s.dieDark 0 = false ∧ s.throttled = [] ∧ t.get F.nirThmStat.thm_step Ix.mod = 1 ∧ t.throttled = [(0, 0)] ∧ (ran (.thermalReport 0 false) (hot0 540 (1, 0))).throttled = [] ∧
      (ran (.thermalReport 0 false) (hot0 600 (0, 1))).shut = true ∧ (ran (.thermalReport 0 false) (hot0 600 (0, 1))).get F.nirThmSdrec.temp Ix.mod = 600 ∧
      (ran (.thermalReport 0 false) (hot0 599 (0, 1))).shut = false ∧ ran (.thermalReport 1 false) s = s := by decide +kernel

/-- 24,750,000 units of wall time are 2 ms, 1,237,500,000 are 100 ms. -/
theorem test_thermal_ceiling :
    let hot := fun w => { hot0 541 (2, 0) with wall := w }
    let cool := fun w => { run0 [(F.nirThmStat.thm_step, Ix.mod, 2), (F.nirCoolMargin.pcap, Ix.mod, 0xFFFF)] with coolSince := some 0, wall := w }
    (ran .thermalRaiseRepeat (hot 24750000)).get F.nirThmStat.thm_step Ix.mod = 1 ∧ ran .thermalRaiseRepeat (hot 24749999) = hot 24749999 ∧ (cool 0).thermalCool = true ∧
      (ran .thermalRelease (cool 1237500000)).get F.nirThmStat.thm_step Ix.mod = 1 ∧ ran .thermalRelease (cool 1237499999) = cool 1237499999 := by decide +kernel

/-- 60 V and 100 A are 6,000 W. -/
theorem test_nirdo_sample :
    let s := run0
    let t := ran (.nirdoSample 6000 10000 (some (560, 79))) s
    t.get F.nirPwrPin.p1ms Ix.mod = 6000 ∧ t.get F.nirCoolMeas.tin Ix.mod = 560 ∧ t.get F.nirCoolMeas.thfault Ix.mod = 1 ∧ t.out.length = 1 ∧ thermistorOk 560 = true ∧
      thermistorOk 79 = false ∧ (ran (.nirdoSample 6000 10000 none) s).out = [] ∧ ran (.nirdoSample 1 1 none) { s with shut := true } = { s with shut := true } := by decide +kernel

theorem test_flow :
    let s := run0
    let lost := ran .flowLoss s
    (ran (.flowPulse 20000) s).mon.pulses = 1 ∧ ran (.flowPulse 19999) s = s ∧ Map.find lost.embers none = some (164, 1) ∧ ran .flowLoss lost = lost ∧
      (ran .flowEvaluate { s with mon := { pulses := 10, lowRun := 2 } }).bit F.nirCoolMeas.lowflow Ix.mod = false ∧
      (ran .flowEvaluate { s with mon := { pulses := 9, lowRun := 2 } }).bit F.nirCoolMeas.lowflow Ix.mod = true ∧
      (ran .flowEvaluate { s with mon := { pulses := 10 } }).get F.nirCoolMeas.flow Ix.mod = 60 := by decide +kernel

/-- 2,000 W from 20 °C at the inlet (code 240) to 70 °C at the hottest die (code 440): 95 °C is reached at 3,000 W. -/
theorem test_margin :
    let s := { run0 with mon := { n := 1, sumP := 20000000, nT := 1, sumIn := 240, sumOut := 250, nHot := 1, sumHot := 440 } }
    let t := ran .marginEstimate s
    t.get F.nirCoolMargin.pcap Ix.mod = 3000 ∧ t.get F.nirCoolMargin.m Ix.mod = 1000 ∧ t.get F.nirCoolMargin.rth Ix.mod = 25000 ∧
      (ran .marginEstimate run0).get F.nirCoolMargin.m Ix.mod = 0xFFFF := by decide +kernel

/-- At 35 °C and above the derated limit falls from 15,000 W; an inlet above the range for 1 s is reported once. -/
theorem test_inlet :
    let s := fun x => { run0 with mon := { in1s := some x } }
    let hot := fun w => { run0 with wall := w, mon := { inHighAt := some 0 } }
    (s 300).inletRange = (220, 300) ∧ (ran .inletEvaluate (s 300)).get F.nirIdLimits.pder Ix.mod = 15000 ∧ (ran .inletEvaluate (s 324)).get F.nirIdLimits.pder Ix.mod = 13500 ∧
      (hot 12375000000).forSecond (some 0) = true ∧ (ran .inletEvaluate (hot 12375000000)).out.length = 1 ∧ (ran .inletEvaluate (hot 12374999999)).out = [] ∧
      (ran .inletEvaluate run0).get F.nirIdLimits.pder Ix.mod = 15000 := by decide +kernel

/-- 60 V and 200 A are 12,000 W, 300 A 18,000 W: above PLIM and its peak; a hot inlet's second begins. -/
theorem test_nirdo_over :
    let t := fun i => ran (.nirdoSample 6000 i (some (301, 300))) run0
    (run0).powerLimit = 15000 ∧ (t 30000).mon.overIn = some 500 ∧ (t 30000).mon.peakIn = some 0 ∧ (t 20000).mon.overIn = none ∧ (t 20000).mon.inHighAt = some 0 ∧
      (t 20000).mon.inLowAt = none ∧ thermistorOk 301 = true ∧ (run0).inletRange.2 = 300 := by decide +kernel
/-! ## Kindling -/

/-- A module of one lit die in a stage of a full kindling of that die. -/
def kin0 (k : Kindling) (l : List (Fld × Ix × Nat) := []) : State := { pow0 ([(F.nirKindleStat.state, Ix.mod, 1)] ++ l) with kdl := { kin := some { k with dies := [0] } } }

theorem test_k0 :
    let s := kin0 {}
    s.kdl.kin = some { dies := [0] } ∧ s.litDies = [0] ∧ (ran (.kindleStageK0 7#32 false true 0#48 0#24) s).get F.nirKindleStat.cause Ix.mod = 1 ∧
      (ran (.kindleStageK0 7#32 true false 0#48 0#24) s).get F.nirKindleStat.cause Ix.mod = 2 ∧ ran (.kindleStageK0 7#32 true true 0#48 0#24) (kin0 { stage := 1 }) = kin0 { stage := 1 } := by
  decide +kernel

/-- A billet that carries no identity is refused; the sockets of a die that is not populated are blanked. -/
theorem test_k0_billets :
    let s := kin0 {} [(F.nirIdInfo.grade, Ix.mod, 8)]
    let x : Billet := { mem := List.replicate 256 0#8 }
    Map.find s.billets 0 = some x ∧ x.fitted = true ∧ (({ mem := x.mem, wear := s.wearOf x } : Billet).refusal true).isSome = true ∧
      (kindleSocket 0#48 0 s).get F.nirBilStat.state (Ix.mod 0) = 1 ∧ (kindleSocket 0#48 2 s).get F.nirBilStat.state (Ix.mod 2) = 0 := by decide +kernel

theorem test_k1 :
    let s := kin0 { stage := 1, us := 50 }
    let t := ran (.kindleStageK1 7#32 true 0#24) s
    (ran (.kindleStageK1 7#32 false 0#24) s).get F.nirKindleStat.cause Ix.mod = 4 ∧ t.stitch = 0 ∧ t.running = true ∧ t.pllLock = [0] ∧
      t.get F.nirKindleRep.end_us (Ix.mod 1) = 57 ∧ (t.kdl.kin.map fun k => (k.stage, k.us)) = some (2, 57) := by decide +kernel

theorem test_k2_k3 :
    let s := kin0 { stage := 2 }
    let t := ran (.kindleStageK2 0#32 0#24 1#24) s
    let u := ran (.kindleStageK3 0#32 [⟨0, 1, true, 0, 90⟩]) (kin0 { stage := 3 })
    t.get F.tlmRef.main_ok (Ix.stw 0) = 1 ∧ (t.kdl.kin.map fun k => k.stage) = some 3 ∧ u.get F.stkStat.grp_ready (Ix.stw 0 1) = 15 ∧
      u.get F.stkStat.grp_ready (Ix.stw 0 0) = 0 ∧ u.get F.nirFpDie.stk0 (Ix.mod 0) = 1 := by decide +kernel

theorem test_k4_due : (kin0 { stage := 4 }).kdl.kin = some { stage := 4, dies := [0] } ∧ Kindling.keepsClock { stage := 4, dies := [0] } = false ∧
    ran (.kindleStageK4 0#32 ⟨[], [], [], []⟩) (kin0 { stage := 5 }) = kin0 { stage := 5 } := by decide +kernel

/-- The X ring has 16 modules, the others one; while port 0 trains the stage waits. -/
theorem test_k5 :
    let s := kin0 { stage := 5 } [(F.nirTorusId.sx_m1, Ix.mod, 15)]
    let t := ran (.kindleStageK5 0#32) s
    t.lkState 0 = lkTraining ∧ t.lkState 2 = lkUnused ∧ (t.kdl.kin.map fun k => k.begun) = some true ∧ ran (.kindleStageK5 0#32) t = t := by decide +kernel

theorem test_k6_due :
    let s := kin0 { stage := 6, begun := true }
    let f := { s with kdl := { kin := some { stage := 6, begun := false } } }
    k0 ∈ s.kinRegions { stage := 6, begun := true, dies := [0] } ∧ s.regionState ⟨0, 1⟩ ≠ rOn ∧ f.kinRegions { stage := 6 } = [] ∧
      ((ran (.kindleStageK6 0#32 ⟨[], [], [], [], true⟩) f).kdl.kin.map fun k => (k.stage, k.begun)) = some (6, true) ∧
      (({ f with kdl := { kin := some { stage := 6, begun := true } } } : State).kinRegions { stage := 6, begun := true }) = [] := by decide +kernel

theorem test_k7 :
    let s := kin0 { stage := 7, known := false }
    s.withheldCause { stage := 7, known := false, dies := [0] } = 6 ∧ s.withheldCause { stage := 7, dies := [0] } = 0 ∧ s.litDies = [0] := by decide +kernel

theorem test_time_limit :
    let s := kin0 { stage := 2 }
    s.dieDark 0 = false ∧ (1#24).getLsbD 0 = true ∧ ran (.stageTimeLimit 1#24) pow0 = pow0 := by decide +kernel

theorem test_kindle_full :
    let s := pow0 [(F.nirKindleStat.state, Ix.mod, 2)]
    let t := ran .kindleFull s
    s.shut = false ∧ s.running = true ∧ t.kdl.fullAsked = true ∧ Map.find t.embers none = some (164, 0) ∧ (ran .kindleFull { s with running := false }).get F.nirKindleStat.cause Ix.mod = 7 ∧
      (ran .kindleFull { s with running := false }).identOk = false ∧ ran .kindleFull pow0 = pow0 := by decide +kernel

/-! ## Lost dies and ember mode -/

theorem test_poll :
    let s := pow0
    s.running = true ∧ s.dieDark 0 = false ∧ (ran (.stewardPollTimeout 0) s).dying = [(0, 1)] ∧ ran (.stewardPollTimeout 1) s = s ∧ ran (.dieDark 0) s = s := by decide +kernel

theorem test_die_dark :
    let s := { pow0 [(F.hrnPart.dies, Ix.mod 2, 1), (F.nirEmberCfg.grace, Ix.mod, 10)] with dying := [(0, 5)], wall := 7 }
    Sound s ∧ Map.find s.dying (0 : DieIx).val = some 5 ∧ s.partOf 0 = some 2 ∧ s.swaps = [] ∧ s.regionState k0 ≠ rDead := by
  unfold Sound
  decide +kernel

theorem test_grace :
    let s := fun w => { pow0 [(F.nirKindleStat.state, Ix.mod, 2)] with kdl := { grace := [(2, 500)] }, wall := w }
    Map.find (ran (.graceExpiry 2) (s 500)).embers (some 2) = some (164, 3) ∧ (s 500).embers = [] ∧ ran (.graceExpiry 2) (s 499) = s 499 ∧ ran (.graceExpiry 3) (s 500) = s 500 := by
  decide +kernel

/-- Context 7, with a seat, is kept after a core's fault and rebuilt after the loss of a die (R510, R511). -/
theorem test_resume :
    let s := fun loss => { ctx7 cGenerate (fun c => { c with len := 1 }) with servHalt := [(2, { sf := 90, haltAt := 95, dieLoss := loss, resumeAt := some 100 })] }
    let lost := ran (.servingResume 2) (s true)
    let h : ServHalt := { sf := 90, haltAt := 95, resumeAt := some 100 }
    ((s false).ctxs.map fun e => e.1).Nodup ∧ (ran (.servingResume 2) (s false)).ctxState 2 7 = cGenerate ∧ lost.ctxState 2 7 = cQueued ∧
      ((lost.ctx 2 7).map fun c => (c.admitted, c.replay)) = some (false, 1) ∧ Map.find (s false).servHalt 2 = some h ∧
      ran (.servingResume 2) { s true with stitch := 99 } = { s true with stitch := 99 } := by decide +kernel

/-- READY, no decision: 64 st ahead; BUSY behind a decision; STATE for a partition without dies. -/
theorem test_ember_enter :
    let s := pow0 [(F.nirKindleStat.state, Ix.mod, 2), (F.hrnPart.dies, Ix.mod 2, 1)]
    let t := ran (.emberEnter (some 2)) s
    t.embers = [(some 2, (164, 0))] ∧ (ran (.emberEnter (some 2)) t).get F.nirEmberStat.result Ix.mod = emBusy ∧ (ran (.emberEnter (some 3)) s).get F.nirEmberStat.result Ix.mod = emState ∧
      (ran (.emberEnter none) s).embers = [(none, (164, 0))] ∧ ran (.emberEnter none) { s with shut := true } = { s with shut := true } := by decide +kernel

theorem test_ember_exit :
    let s := { pow0 [(F.nirKindleStat.state, Ix.mod, 5), (F.nirEmberStat.module, Ix.mod, 1), (F.nirCoolMeas.tin, Ix.mod, 260)] with
      mon := { busSince := some 0, clearRun := 3 }, wall := 12375000000 }
    let early := { s with wall := 12374999999 }
    s.emberClear = true ∧ early.emberClear = false ∧ ((ran (.emberExit none) s).kdl.kin.map fun k => (k.stage, k.dies)) = some (3, [0]) ∧
      (ran (.emberExit none) early).get F.nirEmberStat.result Ix.mod = emNotClear ∧ (ran (.emberExit (some 2)) s).get F.nirEmberStat.result Ix.mod = emState ∧
      (ran (.emberExit none) { s with kdl := { kin := some {} } }).get F.nirEmberStat.result Ix.mod = emBusy := by decide +kernel

theorem test_ember_gate :
    let s := fun sc n => { pow0 [(F.nirKindleStat.state, Ix.mod, 2), (F.hrnPart.dies, Ix.mod 2, 1)] with embers := [(sc, (n, 3))], active := [(2, h0)] }
    let t := ran (.emberGate (some 2)) (s (some 2) 100)
    let u := ran (.emberGate none) (s none 100)
    t.active = [] ∧ t.get F.nirEmberStat.parts Ix.mod = 4 ∧ t.get F.nirEmberStat.cause Ix.mod = 3 ∧ t.mustClear = [2] ∧ (t.seq k0).offAt = some 100 ∧
      u.get F.nirEmberStat.module Ix.mod = 1 ∧ Map.find u.stepReqs .ember = some 5 ∧ u.embers = [] ∧ ran (.emberGate none) (s none 101) = s none 101 ∧
      ran (.emberGate none) pow0 = pow0 := by decide +kernel


/-- The pause of a swap ends at its resume stitch: the GENERATE context is placed again (R342, R364). -/
theorem test_pause_ends :
    let s := { ctx7 cGenerate (fun c => { c with len := 1 }) with pauseUntil := [(2, 100)] }
    let t := ran (.servingResume 2) s
    s.serving 2 = true ∧ Map.find s.pauseUntil (2 : PartIx).val = some 100 ∧ s.servHalt = [] ∧ t.pauseUntil = [] ∧ t.passes.length = 1 ∧
      ran (.servingResume 2) { s with stitch := 99 } = { s with stitch := 99 } := by decide +kernel
/-! ## Commands that no sender can form -/

theorem test_refused_registers :
    Instr.wellFormed (.registerWrite .nirCoolCfg Ix.mod 1 true 0#64) = false ∧ Instr.wellFormed (.registerWrite .nirCoolCfg Ix.mod 1 false 0#64) = true ∧
      Instr.wellFormed (.mgmtBadOp 0#128 5#8 0#8) = false ∧ Instr.wellFormed (.mgmtConsoleBytes 0#128 0#8 (List.replicate 257 0#8)) = false := by decide +kernel

theorem test_refused_rows :
    Instr.wellFormed (.rowWrite c0 0 []) = false ∧ Instr.wellFormed (.rowWrite c0 0 (List.replicate 33 0#8)) = false ∧ Instr.wellFormed (.rowReadback c0 0 31) = false := by
  decide +kernel

theorem test_refused_lengths :
    Instr.wellFormed (.keyRecord 5 1 2 1 []) = false ∧ Instr.wellFormed (.descriptorRead 2 [0#8]) = false ∧ Instr.wellFormed (.samplerSample 3 []) = false ∧
      Instr.wellFormed (.busPowerOn 6000 [] true []) = false ∧ Instr.wellFormed (.regionCurrentReport 0 none 0 [1]) = false ∧
      Instr.wellFormed (.regionCurrentReport 0 (some 1) 0 []) = false ∧ Instr.wellFormed (.bar2Access 0#36 (some []) 0 .clean) = false ∧ Instr.wellFormed (.bar2Access 0#36 none 0 .clean) = false := by
  decide +kernel

theorem test_refused_requests :
    Instr.wellFormed (.rwQueueRequest 0 255#48 none 2) = false ∧ Instr.wellFormed (.rwQueueRequest 0 254#48 (some [0#8, 0#8]) 0) = true := by decide +kernel

theorem test_refused_frames :
    let f : Frame := ⟨0#192, [1#8]⟩
    (∀ i ∈ [Instr.writeFrame 0 f, .complFrame 0 f, .signalFrame 0 f, .tsyncReq 0 f 0#64 0#64, .tsyncResp 0 f 0#64, .tsyncStep 0 f, .lctlAck 0 f, .lctlNak 0 f, .lctlIdent 0 f,
      .badtypeFrame 0 f, .frameForward (some (0, f))], i.wellFormed = false) ∧ frameData ⟨0#192, List.replicate 4128 0#8⟩ = false := by decide +kernel

end Sys2Proof.Tests
end

section
/-!
PROOFS. Clock steps (chapter 01): what each of the commands does to the step in force, the announced step and the standby PLLs, and the
obligation on them.
-/

namespace Sys2Proof
open Sys2Proof.Machine

/-! ### Frames -/

theorem FieldsBut.regsBut {l : List (Fld × Ix)} {m : List Reg} {s t : State} (h : FieldsBut l s t) (hs : ∀ p ∈ l, p.1.reg ∈ m) :
    RegsBut m s t := fun g ix hg => h g ix fun p hp hk => by
  have hr : p.1.reg = g.reg := congrArg FKey.reg hk
  exact hg (hr ▸ hs p hp)

theorem FieldsBut.get_of_one {g : Fld} {jx : Ix} {s t : State} (h : FieldsBut [(g, jx)] s t) {f : Fld} (ix : Ix)
    (hne : g.reg ≠ f.reg ∨ g.lo ≠ f.lo) : t.get f ix = s.get f ix :=
  h f ix fun p hp hk => by
    obtain rfl := List.mem_singleton.1 hp
    exact hne.elim (· (congrArg FKey.reg hk)) (· (congrArg FKey.lo hk))

theorem Quiet.trans {s t u : State} (h : Quiet s t) (k : Quiet t u) : Quiet s u := by
  obtain ⟨h1, h2, h3, h4, h5, h6⟩ := h
  obtain ⟨k1, k2, k3, k4, k5, k6⟩ := k
  exact ⟨k1.trans h1, k2.trans h2, k3.trans h3, k4.trans h4, k5.trans h5, k6.trans h6⟩

theorem Quiet.emit (s : State) (c v d : Nat) (p : Option Nat) (l : List (Nat × Nat)) : Quiet s (s.emit c v d p l) := by
  simp [Quiet]

end Sys2Proof

namespace Sys2Proof.Machine
open Sys2Proof

/-! ### The commands' meanings -/

theorem exec_standbyPllLockLoss (d : DieIx) (s : State) : exec (.standbyPllLockLoss d) s = .next (standbyPllLockLoss d s) := rfl
theorem exec_pllRelock (d : DieIx) (s : State) : exec (.pllRelock d) s = .next (pllRelock d s) := rfl
theorem exec_ceilStepWrite (v : Fin 8) (s : State) : exec (.ceilStepWrite v) s = .next (ceilStepWrite v s) := rfl
theorem exec_clockStepRequest (src : StepSource) (s : State) :
    exec (.clockStepRequest src) s = .next (requestStep src (s.sourceStep src) s) := rfl
theorem exec_clockStepAnnounce (a : BitVec 64) (s : State) : exec (.clockStepAnnounce a) s = .next (clockStepAnnounce a.toNat s) := rfl
theorem exec_stepCommit (s : State) : exec .stepCommit s = .next (stepCommit s) := rfl
theorem exec_clockStepEffect (s : State) : exec .clockStepEffect s = .next (clockStepEffect s) := rfl
theorem exec_stitchLoRead (s : State) : exec .stitchLoRead s = .next (stitchLoRead s) := rfl

/-! ### The register file and finite maps -/

theorem State.bit_congr {s t : State} {f : Fld} {ix : Ix} (h : t.get f ix = s.get f ix) : t.bit f ix = s.bit f ix := by
  simp [State.bit, h]

theorem State.bit_eq_false_iff {s : State} {f : Fld} {ix : Ix} : s.bit f ix = false ↔ s.get f ix = 0 := by
  simp [State.bit]

theorem State.get_inc_same (s : State) (f : Fld) (ix : Ix) : (s.inc f ix).get f ix = min (s.get f ix + 1) (2 ^ f.width - 1) := by
  have : 0 < 2 ^ f.width := Nat.two_pow_pos _
  rw [State.inc, State.get_set_same, satAdd]
  exact Nat.mod_eq_of_lt (by omega)

theorem State.emit_eventSeq (s : State) (c v d : Nat) (p : Option Nat) (l : List (Nat × Nat)) :
    (s.emit c v d p l).eventSeq = (s.eventSeq + 1) % 2 ^ 32 := by
  unfold State.emit; dsimp only; split <;> rfl

theorem Map.find_foldl_put {κ ν : Type} [DecidableEq κ] (l : List κ) (v : ν) (m : Map κ ν) {k : κ} (h : k ∈ l ∨ Map.find m k = some v) :
    Map.find (l.foldl (fun t d => Map.put t d v) m) k = some v := by
  induction l generalizing m with
  | nil => simpa using h
  | cons x l ih =>
    refine ih _ ?_
    by_cases hx : x = k
    · subst hx; exact .inr (Map.find_put_same ..)
    · rw [Map.find_put_ne _ _ _ _ hx]
      simpa [Ne.symm hx] using h

/-! ### The time registers (R33) -/

theorem readReg_stitchHi (s : State) :
    readReg .nirTimeStitchHi Ix.mod 0 32 s = (s.get F.nirTimeStitchHi.count_hi Ix.mod % 2 ^ 32, s) := by
  have hv : s.viewReg .nirTimeStitchHi Ix.mod = s.get F.nirTimeStitchHi.count_hi Ix.mod := by
    simp [State.viewReg, State.peekReg, Reg.fields, State.peekField, F.nirTimeStitchHi.count_hi]
  have hc : s.clearRc .nirTimeStitchHi Ix.mod 0 32 = s := by simp [State.clearRc, Reg.fields]
  simp only [readReg, hv, hc, bitsOf, Nat.shiftRight_zero]

/-- R33: the high half is latched from the count whose low half is answered. -/
theorem stitchLoRead_latches (s : State) (h : s.stitch < 2 ^ 64) :
    (readReg .nirTimeStitchHi Ix.mod 0 32 (stitchLoRead s)).1 = s.stitch / 2 ^ 32 := by
  have hl : (stitchLoRead s).get F.nirTimeStitchHi.count_hi Ix.mod = s.stitch / 2 ^ 32 % 2 ^ 32 := State.get_set_same ..
  rw [readReg_stitchHi, hl, Nat.mod_mod]
  exact Nat.mod_eq_of_lt (by omega)

theorem stitchLoRead_frame (s : State) :
    FieldsBut [(F.nirTimeStitchHi.count_hi, Ix.mod)] s (stitchLoRead s) ∧ Quiet s (stitchLoRead s) :=
  ⟨FieldsBut.congr (FieldsBut.set (FieldsBut.refl _ _) _ _ _ (by simp)) rfl, ⟨rfl, rfl, rfl, rfl, rfl, rfl⟩⟩

/-! ### The step to announce next, and retuning -/

/-- What the choice of the next step rests on. -/
theorem State.standbyStep_congr {s t : State} (hr : t.running = s.running) (hk : t.kdl = s.kdl) (hq : t.stepReqs = s.stepReqs)
    (hc : t.curStep = s.curStep) (he : t.effCeil = s.effCeil)
    (hm : t.bit F.nirEmberStat.module Ix.mod = s.bit F.nirEmberStat.module Ix.mod) : t.standbyStep = s.standbyStep := by
  simp [State.standbyStep, State.nextStep, State.beforeK4, State.openReqs, hr, hk, hq, hc, he, hm]

theorem State.effCeil_congr {s t : State} (hc : t.get F.nirTimeStep.ceil_step Ix.mod = s.get F.nirTimeStep.ceil_step Ix.mod)
    (hg : t.get F.nirPwrGov.gov_step Ix.mod = s.get F.nirPwrGov.gov_step Ix.mod)
    (ht : t.get F.nirThmStat.thm_step Ix.mod = s.get F.nirThmStat.thm_step Ix.mod) : t.effCeil = s.effCeil := by
  simp [State.effCeil, hc, hg, ht]

theorem State.nextStep_of_beforeK4 {s : State} (h : s.beforeK4 = true) : s.nextStep = none := by
  simp [State.nextStep, h]

theorem State.beforeK4_of {s : State} (h : s.running = false ∨ ∃ k, s.kdl.kin = some k ∧ k.stage ≤ 4) : s.beforeK4 = true := by
  rcases h with h | ⟨k, hk, hs⟩
  · simp [State.beforeK4, h]
  · simp [State.beforeK4, hk, hs]

/-- R40: the step to announce is one from the step in force. -/
theorem State.nextStep_adjacent {s : State} {k : Nat} (h : s.nextStep = some k) : k = s.curStep + 1 ∨ k + 1 = s.curStep := by
  unfold State.nextStep at h
  split at h
  · cases h
  · dsimp only at h
    split at h
    · exact .inl (Option.some.inj h).symm
    · split at h
      · have := Option.some.inj h
        omega
      · cases h

theorem retune_standby {s : State} (h : s.bit F.nirTimeStep.pending Ix.mod = false) : (retune s).standby = s.standbyStep := by
  unfold retune
  split
  · rename_i h'
    exact h'.resolve_left (Bool.eq_false_iff.1 h)
  · rfl

theorem retune_pllLock {s : State} {x : Nat} (h : x ∉ s.pllLock) : x ∉ (retune s).pllLock := by
  unfold retune
  split
  · exact h
  · exact List.not_mem_nil

theorem retune_standbyLocked {s : State} (h : s.get F.nirTimeStep.standby_locked Ix.mod = 0) :
    (retune s).get F.nirTimeStep.standby_locked Ix.mod = 0 := by
  unfold retune
  split
  · exact h
  · exact State.get_set_same ..

theorem retune_eventSeq (s : State) : (retune s).eventSeq = s.eventSeq := by
  unfold retune; split <;> rfl

theorem retune_get {s : State} {f : Fld} (h : f.lo ≠ 7) : (retune s).get f Ix.mod = s.get f Ix.mod :=
  (retune_spec s).1.get_of_one _ (.inr h.symm)

/-! ### Loss of lock and relock (R42, R44) -/

/-- Die d's standby PLL is reported unlocked. -/
def pllUnlocked (d : DieIx) (s : State) : State :=
  { s with pllLock := s.pllLock.filter fun x => decide (x ≠ d.val) }.set F.nirTimeStep.standby_locked Ix.mod 0

/-- The announcement gives way to step k and stitch a. -/
def withdrawStep (k a : Nat) (s : State) : State :=
  { s.sets Ix.mod [(F.nirTimeStep.next_step, k), (F.nirTimeStep.pending, 0), (F.nirTimeStepAt.stitch, a)] with committed := false }

theorem pllUnlocked_frame (d : DieIx) (s : State) :
    FieldsBut [(F.nirTimeStep.standby_locked, Ix.mod)] s (pllUnlocked d s) ∧ Quiet s (pllUnlocked d s) :=
  ⟨FieldsBut.set (FieldsBut.congr (FieldsBut.refl _ _) rfl) _ _ _ (by simp), ⟨rfl, rfl, rfl, rfl, rfl, rfl⟩⟩

theorem pllUnlocked_get {d : DieIx} {s : State} {f : Fld} {ix : Ix} (h : f.reg ≠ .nirTimeStep ∨ f.lo ≠ 7) :
    (pllUnlocked d s).get f ix = s.get f ix :=
  (pllUnlocked_frame d s).1.get_of_one _ (h.imp Ne.symm Ne.symm)

theorem pllUnlocked_standbyLocked (d : DieIx) (s : State) : (pllUnlocked d s).get F.nirTimeStep.standby_locked Ix.mod = 0 :=
  State.get_set_same ..

theorem pllUnlocked_pllLock (d : DieIx) (s : State) : d.val ∉ (pllUnlocked d s).pllLock := by
  simp [pllUnlocked]

/-- A CLOCK event changes the event buffer's counts alone. -/
theorem clockEvent_get (d k : Nat) (s : State) {f : Fld} (ix : Ix) (h : f.reg ≠ .nirEvqCnt) :
    (clockEvent d k s).get f ix = s.get f ix := State.get_emit _ _ _ _ _ _ _ _ h

theorem clockEvent_frame (d k : Nat) (s : State) :
    RegsBut [.nirEvqCnt] s (clockEvent d k s) ∧ Quiet s (clockEvent d k s) ∧ (clockEvent d k s).eventSeq = (s.eventSeq + 1) % 2 ^ 32 :=
  ⟨RegsBut.emit (RegsBut.refl _ _) _ _ _ _ _ (by simp), Quiet.emit .., State.emit_eventSeq ..⟩

theorem clockEvent_pllLock (d k : Nat) (s : State) : (clockEvent d k s).pllLock = s.pllLock := State.emit_pllLock ..

theorem withdrawStep_frame (k a : Nat) (s : State) :
    FieldsBut [(F.nirTimeStep.next_step, Ix.mod), (F.nirTimeStep.pending, Ix.mod), (F.nirTimeStepAt.stitch, Ix.mod)] s (withdrawStep k a s) ∧
      Quiet s (withdrawStep k a s) :=
  ⟨FieldsBut.congr (FieldsBut.set (FieldsBut.set (FieldsBut.set (FieldsBut.refl _ _) _ _ _ (by simp)) _ _ _ (by simp)) _ _ _ (by simp)) rfl,
    ⟨rfl, rfl, rfl, rfl, rfl, rfl⟩⟩

theorem withdrawStep_get {k a : Nat} {s : State} {f : Fld} (h : f.reg ≠ .nirTimeStep ∨ f.lo ≠ 3 ∧ f.lo ≠ 6)
    (ha : f.reg ≠ .nirTimeStepAt) : (withdrawStep k a s).get f Ix.mod = s.get f Ix.mod := by
  refine (withdrawStep_frame k a s).1 f Ix.mod fun p hp hk => ?_
  have hr := congrArg FKey.reg hk
  have hl := congrArg FKey.lo hk
  simp only [List.mem_cons, List.not_mem_nil, or_false] at hp
  rcases hp with rfl | rfl | rfl
  · exact h.elim (· hr.symm) (·.1 hl.symm)
  · exact h.elim (· hr.symm) (·.2 hl.symm)
  · exact ha hr.symm

theorem withdrawStep_pending (k a : Nat) (s : State) : (withdrawStep k a s).get F.nirTimeStep.pending Ix.mod = 0 :=
  (State.get_set_reg _ F.nirTimeStepAt.stitch _ _ _ _ (by decide)).trans (State.get_set_same ..)

theorem withdrawStep_nextStep (k a : Nat) (s : State) : (withdrawStep k a s).get F.nirTimeStep.next_step Ix.mod = k % 8 :=
  (State.get_set_reg _ F.nirTimeStepAt.stitch _ _ _ _ (by decide)).trans
    ((State.get_set_lo _ F.nirTimeStep.pending _ _ _ _ (by decide)).trans (State.get_set_same ..))

/-- The state in which an announcement withdrawn by die d's report has been reported and the standby PLLs are not yet retuned. -/
def stepWithdrawn (d : DieIx) (s : State) : State :=
  withdrawStep s.curStep (s.lastStep.getD 0) (clockEvent d 0 (pllUnlocked d s))

theorem stepWithdrawn_get {d : DieIx} {s : State} {f : Fld} (h : f.reg ≠ .nirTimeStep ∨ f.lo ≠ 3 ∧ f.lo ≠ 6 ∧ f.lo ≠ 7)
    (ha : f.reg ≠ .nirTimeStepAt) (he : f.reg ≠ .nirEvqCnt) : (stepWithdrawn d s).get f Ix.mod = s.get f Ix.mod :=
  (withdrawStep_get (h.imp_right fun h => ⟨h.1, h.2.1⟩) ha).trans
    ((clockEvent_get _ _ _ _ he).trans (pllUnlocked_get (h.imp_right fun h => h.2.2)))

theorem stepWithdrawn_stepReqs (d : DieIx) (s : State) : (stepWithdrawn d s).stepReqs = s.stepReqs :=
  State.emit_stepReqs (pllUnlocked d s) ..

/-- The withdrawal changes nothing that the choice of the next step rests on. -/
theorem stepWithdrawn_standbyStep (d : DieIx) (s : State) : (stepWithdrawn d s).standbyStep = s.standbyStep := by
  refine State.standbyStep_congr (State.emit_running (pllUnlocked d s) ..) (State.emit_kdl (pllUnlocked d s) ..)
    (stepWithdrawn_stepReqs d s) ?_ (State.effCeil_congr ?_ ?_ ?_) (State.bit_congr ?_)
  all_goals exact stepWithdrawn_get (by decide) (by decide) (by decide)

theorem stepWithdrawn_standbyLocked (d : DieIx) (s : State) : (stepWithdrawn d s).get F.nirTimeStep.standby_locked Ix.mod = 0 :=
  (withdrawStep_get (by decide) (by decide)).trans ((clockEvent_get _ _ _ _ (by decide)).trans (pllUnlocked_standbyLocked d s))

theorem stepWithdrawn_pllLock (d : DieIx) (s : State) : d.val ∉ (stepWithdrawn d s).pllLock := by
  show d.val ∉ (clockEvent d 0 (pllUnlocked d s)).pllLock
  rw [clockEvent_pllLock]
  exact pllUnlocked_pllLock d s

theorem stepWithdrawn_frame (d : DieIx) (s : State) :
    RegsBut [.nirTimeStep, .nirTimeStepAt, .nirEvqCnt] s (stepWithdrawn d s) ∧ Quiet s (stepWithdrawn d s) ∧
      (stepWithdrawn d s).eventSeq = (s.eventSeq + 1) % 2 ^ 32 := by
  obtain ⟨fu, qu⟩ := pllUnlocked_frame d s
  obtain ⟨re, qe, he⟩ := clockEvent_frame d 0 (pllUnlocked d s)
  obtain ⟨fw, qw⟩ := withdrawStep_frame s.curStep (s.lastStep.getD 0) (clockEvent d 0 (pllUnlocked d s))
  exact ⟨((fu.regsBut (by simp [F.nirTimeStep.standby_locked])).trans (re.mono (by simp))).trans
    (fw.regsBut (by simp [F.nirTimeStep.next_step, F.nirTimeStep.pending, F.nirTimeStepAt.stitch])), (qu.trans qe).trans qw, he⟩

section
variable {s : State} {d : DieIx}

/-- A report of lost lock withdraws an announced step up to its commit stitch, leaves it standing after, and is an event of its own with
no step announced. -/
theorem standbyPllLockLoss_cases :
    standbyPllLockLoss d s = if s.bit F.nirTimeStep.pending Ix.mod then
      if s.stitch + 40 ≤ s.stepAt then retune (stepWithdrawn d s) else pllUnlocked d s
    else clockEvent d 1 (pllUnlocked d s) := by
  have hp : (pllUnlocked d s).bit F.nirTimeStep.pending Ix.mod = s.bit F.nirTimeStep.pending Ix.mod :=
    State.bit_congr (pllUnlocked_get (.inr (by decide)))
  have ha : (pllUnlocked d s).stepAt = s.stepAt := pllUnlocked_get (.inl (by decide))
  have hc : (pllUnlocked d s).curStep = s.curStep := pllUnlocked_get (.inr (by decide))
  rw [stepWithdrawn, ← hp, ← ha, ← hc]
  rfl

theorem standbyPllLockLoss_withdraws (hp : s.bit F.nirTimeStep.pending Ix.mod = true) (ha : s.stitch + 40 ≤ s.stepAt) :
    standbyPllLockLoss d s = retune (stepWithdrawn d s) := by
  rw [standbyPllLockLoss_cases, if_pos hp, if_pos ha]

theorem standbyPllLockLoss_late (hp : s.bit F.nirTimeStep.pending Ix.mod = true) (ha : s.stepAt < s.stitch + 40) :
    standbyPllLockLoss d s = pllUnlocked d s := by
  rw [standbyPllLockLoss_cases, if_pos hp, if_neg (Nat.not_le.2 ha)]

theorem standbyPllLockLoss_idle (hp : s.bit F.nirTimeStep.pending Ix.mod = false) :
    standbyPllLockLoss d s = clockEvent d 1 (pllUnlocked d s) := by
  rw [standbyPllLockLoss_cases, if_neg (Bool.eq_false_iff.1 hp)]

end

/-- R44: the withdrawal; that the standby PLLs are then set for the step asked for is the model's reading (log 176). -/
theorem lockLoss_withdraws_step {s : State} {d : DieIx} (hp : s.bit F.nirTimeStep.pending Ix.mod = true) (ha : s.stitch + 40 ≤ s.stepAt) :
    ∃ t, exec (.standbyPllLockLoss d) s = .next t ∧ t.bit F.nirTimeStep.pending Ix.mod = false ∧
      t.bit F.nirTimeStep.standby_locked Ix.mod = false ∧ t.standby = s.standbyStep ∧
      t.get F.nirTimeStep.next_step Ix.mod = s.curStep % 8 ∧ t.curStep = s.curStep ∧ t.stepReqs = s.stepReqs ∧ d.val ∉ t.pllLock ∧
      t.eventSeq = (s.eventSeq + 1) % 2 ^ 32 ∧ RegsBut [.nirTimeStep, .nirTimeStepAt, .nirEvqCnt] s t ∧ Quiet s t := by
  obtain ⟨ra, qw, hev⟩ := stepWithdrawn_frame d s
  obtain ⟨fr, qr, hreqs, -⟩ := retune_spec (stepWithdrawn d s)
  have hpend : (stepWithdrawn d s).get F.nirTimeStep.pending Ix.mod = 0 := withdrawStep_pending ..
  refine ⟨retune (stepWithdrawn d s), by rw [exec_standbyPllLockLoss, standbyPllLockLoss_withdraws hp ha],
    ?_, ?_, ?_, ?_, ?_, ?_, ?_, ?_, ?_, qw.trans qr⟩
  · exact State.bit_eq_false_iff.2 ((retune_get (by decide)).trans hpend)
  · exact State.bit_eq_false_iff.2 (retune_standbyLocked (stepWithdrawn_standbyLocked d s))
  · rw [retune_standby (State.bit_eq_false_iff.2 hpend), stepWithdrawn_standbyStep]
  · exact (retune_get (by decide)).trans (withdrawStep_nextStep ..)
  · exact (retune_get (by decide)).trans (stepWithdrawn_get (by decide) (by decide) (by decide))
  · exact hreqs.trans (stepWithdrawn_stepReqs d s)
  · exact retune_pllLock (stepWithdrawn_pllLock d s)
  · exact (retune_eventSeq _).trans hev
  · exact ra.trans (fr.regsBut (by simp [F.nirTimeStep.standby_locked]))

/-- R44: after the commit stitch the step stands. -/
theorem lockLoss_after_commit {s : State} {d : DieIx} (hp : s.bit F.nirTimeStep.pending Ix.mod = true) (ha : s.stepAt < s.stitch + 40) :
    ∃ t, exec (.standbyPllLockLoss d) s = .next t ∧ d.val ∉ t.pllLock ∧ t.bit F.nirTimeStep.standby_locked Ix.mod = false ∧
      FieldsBut [(F.nirTimeStep.standby_locked, Ix.mod)] s t ∧ Quiet s t :=
  ⟨pllUnlocked d s, by rw [exec_standbyPllLockLoss, standbyPllLockLoss_late hp ha], pllUnlocked_pllLock d s,
    State.bit_eq_false_iff.2 (pllUnlocked_standbyLocked d s), pllUnlocked_frame d s⟩

theorem lockLoss_without_step {s : State} {d : DieIx} (hp : s.bit F.nirTimeStep.pending Ix.mod = false) :
    ∃ t, exec (.standbyPllLockLoss d) s = .next t ∧ d.val ∉ t.pllLock ∧ t.bit F.nirTimeStep.standby_locked Ix.mod = false ∧
      t.curStep = s.curStep ∧ t.eventSeq = (s.eventSeq + 1) % 2 ^ 32 ∧ RegsBut [.nirTimeStep, .nirEvqCnt] s t ∧ Quiet s t := by
  obtain ⟨fu, qu⟩ := pllUnlocked_frame d s
  obtain ⟨re, qe, hev⟩ := clockEvent_frame d 1 (pllUnlocked d s)
  refine ⟨clockEvent d 1 (pllUnlocked d s), by rw [exec_standbyPllLockLoss, standbyPllLockLoss_idle hp], ?_, ?_, ?_, hev, ?_, qu.trans qe⟩
  · rw [clockEvent_pllLock]; exact pllUnlocked_pllLock d s
  · exact State.bit_eq_false_iff.2 ((clockEvent_get _ _ _ _ (by decide)).trans (pllUnlocked_standbyLocked d s))
  · exact (clockEvent_get _ _ _ _ (by decide)).trans (pllUnlocked_get (.inr (by decide)))
  · exact (fu.regsBut (by simp [F.nirTimeStep.standby_locked])).trans (re.mono (by simp))

/-- Die d's standby PLL is among the locked ones. -/
def pllLocked (d : DieIx) (s : State) : State :=
  { s with pllLock := if s.pllLock.contains d.val then s.pllLock else d.val :: s.pllLock }

theorem mem_pllLocked {d : DieIx} {s : State} {x : Nat} : x ∈ (pllLocked d s).pllLock ↔ x = d.val ∨ x ∈ s.pllLock := by
  by_cases h : d.val ∈ s.pllLock
  · simp only [pllLocked, List.contains_iff_mem, h, if_true]
    exact ⟨.inr, fun hx => hx.elim (· ▸ h) id⟩
  · simp [pllLocked, h]

/-- R42: STANDBY_LOCKED is set once no lit die's standby PLL is missing. -/
theorem pllRelock_cases (d : DieIx) (s : State) :
    pllRelock d s = if ∀ x ∈ s.litDies, x = d.val ∨ x ∈ s.pllLock then (pllLocked d s).set F.nirTimeStep.standby_locked Ix.mod 1
      else pllLocked d s := by
  have h : ((pllLocked d s).litDies.all fun x => (pllLocked d s).pllLock.contains x) = true ↔
      ∀ x ∈ s.litDies, x = d.val ∨ x ∈ s.pllLock := by
    simp only [List.all_eq_true, List.contains_iff_mem, mem_pllLocked]
    rfl
  split
  · rename_i hall
    exact if_pos (h.2 hall)
  · rename_i hall
    exact if_neg (mt h.1 hall)

theorem pllRelock_spec (s : State) (d : DieIx) :
    ∃ t, exec (.pllRelock d) s = .next t ∧ d.val ∈ t.pllLock ∧ (∀ x ∈ s.pllLock, x ∈ t.pllLock) ∧
      ((∀ x ∈ s.litDies, x = d.val ∨ x ∈ s.pllLock) → t.get F.nirTimeStep.standby_locked Ix.mod = 1) ∧
      FieldsBut [(F.nirTimeStep.standby_locked, Ix.mod)] s t ∧ Quiet s t := by
  have hd : d.val ∈ (pllLocked d s).pllLock := mem_pllLocked.2 (.inl rfl)
  have hk : ∀ x ∈ s.pllLock, x ∈ (pllLocked d s).pllLock := fun x hx => mem_pllLocked.2 (.inr hx)
  have hf : FieldsBut [(F.nirTimeStep.standby_locked, Ix.mod)] s (pllLocked d s) := FieldsBut.congr (FieldsBut.refl _ _) rfl
  refine ⟨pllRelock d s, exec_pllRelock d s, ?_⟩
  rw [pllRelock_cases]
  split
  · exact ⟨hd, hk, fun _ => State.get_set_same .., hf.set _ _ _ (by simp), ⟨rfl, rfl, rfl, rfl, rfl, rfl⟩⟩
  · rename_i hn
    exact ⟨hd, hk, fun h => absurd h hn, hf, ⟨rfl, rfl, rfl, rfl, rfl, rfl⟩⟩

/-! ### Requests (R43, R45) -/

theorem storeRule_ceilStep (v : Nat) : storeRule F.nirTimeStep.ceil_step v = min v 5 := by
  show (if 5 < v then 5 else v) = min v 5
  split <;> omega

/-- The ceiling as a write of v stores it. -/
def ceilStored (v : Nat) (s : State) : State := s.set F.nirTimeStep.ceil_step Ix.mod (min v 5)

theorem ceilStored_ceil (v : Nat) (s : State) : (ceilStored v s).get F.nirTimeStep.ceil_step Ix.mod = min v 5 :=
  (State.get_set_same ..).trans (Nat.mod_eq_of_lt (Nat.lt_of_le_of_lt (Nat.min_le_right v 5) (by decide)))

theorem ceilStepWrite_eq (v : Nat) (s : State) : ceilStepWrite v s = requestStep .ceil (min v 5) (ceilStored v s) := by
  rw [ceilStepWrite, storeRule_ceilStep]
  exact congrArg (requestStep .ceil · (ceilStored v s)) (ceilStored_ceil v s)

/-- A request leaves every field of the module's registers but STANDBY_LOCKED. -/
theorem requestStep_get {src : StepSource} {k : Nat} {s : State} {f : Fld} (h : f.lo ≠ 7) :
    (requestStep src k s).get f Ix.mod = s.get f Ix.mod :=
  (requestStep_spec src k s).1.get_of_one _ (.inr h.symm)

/-- R43, R45: the ceiling is stored as at most 5 and asked for; the step in force and the announced step stay. -/
theorem ceilStepWrite_spec (s : State) (v : Fin 8) :
    ∃ t, exec (.ceilStepWrite v) s = .next t ∧ t.get F.nirTimeStep.ceil_step Ix.mod = min v.val 5 ∧
      Map.find t.stepReqs .ceil = some (min v.val 5) ∧ RegsBut [.nirTimeStep] s t ∧
      t.get F.nirTimeStep.cur_step Ix.mod = s.get F.nirTimeStep.cur_step Ix.mod ∧
      t.get F.nirTimeStep.next_step Ix.mod = s.get F.nirTimeStep.next_step Ix.mod ∧
      t.get F.nirTimeStep.pending Ix.mod = s.get F.nirTimeStep.pending Ix.mod ∧ Quiet s t := by
  obtain ⟨hf, hq, hr⟩ := requestStep_spec .ceil (min v.val 5) (ceilStored v s)
  have hget : ∀ f : Fld, f.lo ≠ 7 → f.lo ≠ 8 → (requestStep .ceil (min v.val 5) (ceilStored v s)).get f Ix.mod = s.get f Ix.mod :=
    fun f h7 h8 => (requestStep_get h7).trans (State.get_set_lo _ _ _ _ _ _ h8.symm)
  refine ⟨_, (exec_ceilStepWrite v s).trans (congrArg _ (ceilStepWrite_eq v s)), ?_, ?_, ?_, hget _ (by decide) (by decide),
    hget _ (by decide) (by decide), hget _ (by decide) (by decide), Quiet.trans ⟨rfl, rfl, rfl, rfl, rfl, rfl⟩ hq⟩
  · exact (requestStep_get (by decide)).trans (ceilStored_ceil v s)
  · rw [hr, Nat.min_assoc, Nat.min_self]
  · exact ((RegsBut.refl _ _).set _ _ _ (by simp [F.nirTimeStep.ceil_step])).trans (hf.regsBut (by simp [F.nirTimeStep.standby_locked]))

theorem clockStepRequest_spec (s : State) (src : StepSource) :
    ∃ t, exec (.clockStepRequest src) s = .next t ∧ Map.find t.stepReqs src = some (min (s.sourceStep src) 5) ∧
      FieldsBut [(F.nirTimeStep.standby_locked, Ix.mod)] s t ∧ Quiet s t := by
  obtain ⟨hf, hq, hr⟩ := requestStep_spec src (s.sourceStep src) s
  exact ⟨_, exec_clockStepRequest src s, hr, hf, hq⟩

/-! ### The announcement (R40, R42, R45, R425) -/

section
variable {s : State} {k : Nat}

theorem clockStepAnnounce_none (a : Nat) (h : s.nextStep = none) : clockStepAnnounce a s = s := by
  simp [clockStepAnnounce, h]

theorem clockStepAnnounce_not_ready (a : Nat) (h : s.nextStep = some k) (hc : s.canAnnounce k = false) : clockStepAnnounce a s = s := by
  simp [clockStepAnnounce, h, hc]

theorem clockStepAnnounce_alone (a : Nat) (h : s.nextStep = some k) (hc : s.canAnnounce k = true) (hl : s.lockstep = false) :
    clockStepAnnounce a s = announceStep k (max a (s.stitch + 64)) s := by
  simp [clockStepAnnounce, h, hc, hl]

theorem clockStepAnnounce_root (a : Nat) (h : s.nextStep = some k) (hc : s.canAnnounce k = true) (hl : s.lockstep = true)
    (hr : s.timeRoot = true) : clockStepAnnounce a s =
      forAll s.childPorts (fun p s' => sendStepFrame p (max a (s.stitch + 4096)) k s') (announceStep k (max a (s.stitch + 4096)) s) := by
  simp [clockStepAnnounce, h, hc, hl, hr]

theorem clockStepAnnounce_follower (a : Nat) (h : s.nextStep = some k) (hc : s.canAnnounce k = true) (hl : s.lockstep = true)
    (hr : s.timeRoot = false) : clockStepAnnounce a s = s := by
  simp [clockStepAnnounce, h, hc, hl, hr]

theorem announce_alone_spec (at_ : BitVec 64) (hs : s.stitch + 4096 < 2 ^ 64) (h : s.nextStep = some k) (hc : s.canAnnounce k = true)
    (hk : k ≤ 5) (hl : s.lockstep = false) :
    ∃ t, exec (.clockStepAnnounce at_) s = .next t ∧
      t.get F.nirTimeStep.next_step Ix.mod = k ∧ t.get F.nirTimeStep.pending Ix.mod = 1 ∧
      t.get F.nirTimeStepAt.stitch Ix.mod = max at_.toNat (s.stitch + 64) ∧
      FieldsBut [(F.nirTimeStep.next_step, Ix.mod), (F.nirTimeStep.pending, Ix.mod), (F.nirTimeStepAt.stitch, Ix.mod)] s t ∧ Quiet s t := by
  obtain ⟨hn, hp, ha, -, hf, hq⟩ := announceStep_spec k (max at_.toNat (s.stitch + 64)) s
  have hlt : max at_.toNat (s.stitch + 64) < 2 ^ 64 := Nat.max_lt.2 ⟨at_.isLt, by omega⟩
  exact ⟨_, by rw [exec_clockStepAnnounce, clockStepAnnounce_alone _ h hc hl], hn.trans (Nat.mod_eq_of_lt (by omega)), hp,
    ha.trans (Nat.mod_eq_of_lt hlt), hf, hq⟩

/-- R425: the time root announces further ahead, and a frame leaves for each child port (log 150). -/
theorem announce_root_spec (at_ : BitVec 64) (hs : s.stitch + 4096 < 2 ^ 64) (h : s.nextStep = some k) (hc : s.canAnnounce k = true)
    (hk : k ≤ 5) (hl : s.lockstep = true) (hr : s.timeRoot = true) :
    ∃ t, exec (.clockStepAnnounce at_) s = .next t ∧
      t.get F.nirTimeStep.next_step Ix.mod = k ∧ t.get F.nirTimeStep.pending Ix.mod = 1 ∧
      t.get F.nirTimeStepAt.stitch Ix.mod = max at_.toNat (s.stitch + 4096) ∧ t.inject.length = s.inject.length + s.childPorts.length ∧
      FieldsBut [(F.nirTimeStep.next_step, Ix.mod), (F.nirTimeStep.pending, Ix.mod), (F.nirTimeStepAt.stitch, Ix.mod)] s t ∧ Quiet s t := by
  obtain ⟨hn, hp, ha, hi, hf, hq⟩ := announceStep_spec k (max at_.toNat (s.stitch + 4096)) s
  obtain ⟨fs, hfs, hlen⟩ := sendStepFrames_spec s.childPorts (max at_.toNat (s.stitch + 4096)) k
    (announceStep k (max at_.toNat (s.stitch + 4096)) s)
  have hlt : max at_.toNat (s.stitch + 4096) < 2 ^ 64 := Nat.max_lt.2 ⟨at_.isLt, hs⟩
  have he := (clockStepAnnounce_root at_.toNat h hc hl hr).trans hfs
  refine ⟨_, (exec_clockStepAnnounce ..).trans (congrArg _ he), hn.trans (Nat.mod_eq_of_lt (by omega)), hp,
    ha.trans (Nat.mod_eq_of_lt hlt), ?_, hf.congr rfl, hq⟩
  rw [List.length_append, hi, hlen]

end

/-! ### Commitment and effect (R42-R44) -/

section
variable {s : State}

theorem stepCommit_due (hp : s.bit F.nirTimeStep.pending Ix.mod = true) (ha : s.stepAt ≤ s.stitch + 40) :
    stepCommit s = { s with committed := true } :=
  if_pos ⟨hp, ha⟩

theorem stepCommit_early (ha : s.stitch + 40 < s.stepAt) : stepCommit s = s :=
  if_neg fun h => Nat.not_le.2 ha h.2

theorem stepCommit_idle (hp : s.bit F.nirTimeStep.pending Ix.mod = false) : stepCommit s = s :=
  if_neg fun h => Bool.eq_false_iff.1 hp h.1

theorem clockStepEffect_early (ha : s.stitch < s.stepAt) : clockStepEffect s = s :=
  if_neg fun h => Nat.not_le.2 ha h.2

theorem clockStepEffect_idle (hp : s.bit F.nirTimeStep.pending Ix.mod = false) : clockStepEffect s = s :=
  if_neg fun h => Bool.eq_false_iff.1 hp h.1

end

/-- The counter of a step from `old` to `new`: a higher number is a lower frequency. -/
def stepCounter (old new : Nat) : Fld := if old < new then F.nirTimeStepCount.down else F.nirTimeStepCount.up

theorem stepCounter_reg (old new : Nat) : (stepCounter old new).reg = .nirTimeStepCount := by
  unfold stepCounter; split <;> rfl

/-- The announced step is in force. -/
def stepInForce (s : State) : State :=
  s.sets Ix.mod [(F.nirTimeStep.cur_step, s.get F.nirTimeStep.next_step Ix.mod), (F.nirTimeStep.pending, 0), (F.nirTimeStep.standby_locked, 0)]

theorem stepInForce_get (s : State) : (stepInForce s).get F.nirTimeStep.cur_step Ix.mod = s.get F.nirTimeStep.next_step Ix.mod % 8 ∧
    (stepInForce s).get F.nirTimeStep.pending Ix.mod = 0 ∧ (stepInForce s).get F.nirTimeStep.standby_locked Ix.mod = 0 := by
  refine ⟨?_, ?_, State.get_set_same ..⟩
  · exact (State.get_set_lo _ _ _ _ _ _ (by decide)).trans
      ((State.get_set_lo _ _ _ _ _ _ (by decide)).trans (State.get_set_same ..))
  · exact (State.get_set_lo _ _ _ _ _ _ (by decide)).trans (State.get_set_same ..)

theorem stepInForce_regsBut (s : State) : RegsBut [.nirTimeStep] s (stepInForce s) :=
  RegsBut.set (RegsBut.set (RegsBut.set (RegsBut.refl _ _) _ _ _ (by decide)) _ _ _ (by decide)) _ _ _ (by decide)

/-- The announced step is in force and counted. -/
def stepTaken (s : State) : State := (stepInForce s).inc (stepCounter s.curStep (s.get F.nirTimeStep.next_step Ix.mod)) Ix.mod

theorem stepTaken_get {s : State} {f : Fld} (ix : Ix) (h : f.reg ≠ .nirTimeStepCount) : (stepTaken s).get f ix = (stepInForce s).get f ix :=
  State.get_set_reg _ _ _ _ _ _ fun e => h (e.symm.trans (stepCounter_reg ..))

theorem stepTaken_count (s : State) {f : Fld} (h : stepCounter s.curStep (s.get F.nirTimeStep.next_step Ix.mod) = f) :
    (stepTaken s).get f Ix.mod = min (s.get f Ix.mod + 1) (2 ^ f.width - 1) := by
  have hr : f.reg = .nirTimeStepCount := h ▸ stepCounter_reg ..
  rw [stepTaken, h, State.get_inc_same, stepInForce_regsBut s f Ix.mod (by simp [hr])]

theorem stepTaken_regsBut (s : State) : RegsBut [.nirTimeStep, .nirTimeStepCount] s (stepTaken s) :=
  ((stepInForce_regsBut s).mono (by simp)).set _ _ _ (by simp [stepCounter_reg])

/-- At stitch S: the registers of the step taken, no PLL in standby, and the unlocked lit dies marked lost. -/
theorem clockStepEffect_due {s : State} (hp : s.bit F.nirTimeStep.pending Ix.mod = true) (ha : s.stepAt ≤ s.stitch) :
    (clockStepEffect s).regs = (stepTaken s).regs ∧ (clockStepEffect s).pllLock = [] ∧ (clockStepEffect s).dying =
      (s.litDies.filter fun d => !s.pllLock.contains d).foldl (fun t d => Map.put t d 2) s.dying ∧ Quiet s (clockStepEffect s) := by
  have hinc : ∀ u : State, (if s.curStep < s.get F.nirTimeStep.next_step Ix.mod then u.inc F.nirTimeStepCount.down Ix.mod
      else u.inc F.nirTimeStepCount.up Ix.mod) = u.inc (stepCounter s.curStep (s.get F.nirTimeStep.next_step Ix.mod)) Ix.mod := fun u => by
    unfold stepCounter; split <;> rfl
  unfold clockStepEffect
  rw [if_pos ⟨hp, ha⟩]
  dsimp only
  rw [hinc]
  exact ⟨rfl, rfl, rfl, ⟨rfl, rfl, rfl, rfl, rfl, rfl⟩⟩

/-- R42-R44: the effect at S. -/
theorem clockStepEffect_spec {s : State} (hp : s.bit F.nirTimeStep.pending Ix.mod = true) (ha : s.stepAt ≤ s.stitch) :
    ∃ t, exec .clockStepEffect s = .next t ∧
      t.get F.nirTimeStep.cur_step Ix.mod = s.get F.nirTimeStep.next_step Ix.mod % 8 ∧ t.bit F.nirTimeStep.pending Ix.mod = false ∧
      t.bit F.nirTimeStep.standby_locked Ix.mod = false ∧ t.pllLock = [] ∧
      (s.curStep < s.get F.nirTimeStep.next_step Ix.mod →
        t.get F.nirTimeStepCount.down Ix.mod = min (s.get F.nirTimeStepCount.down Ix.mod + 1) 0xFFFF) ∧
      (s.get F.nirTimeStep.next_step Ix.mod ≤ s.curStep →
        t.get F.nirTimeStepCount.up Ix.mod = min (s.get F.nirTimeStepCount.up Ix.mod + 1) 0xFFFF) ∧
      (∀ d ∈ s.litDies, d ∉ s.pllLock → Map.find t.dying d = some 2) ∧
      RegsBut [.nirTimeStep, .nirTimeStepCount] s t ∧ Quiet s t := by
  obtain ⟨hregs, hlock, hdying, hq⟩ := clockStepEffect_due hp ha
  obtain ⟨hcur, hpend, hlocked⟩ := stepInForce_get s
  have hget := State.get_congr hregs
  have hstep : ∀ f : Fld, f.reg ≠ .nirTimeStepCount → (clockStepEffect s).get f Ix.mod = (stepInForce s).get f Ix.mod := fun f h =>
    (hget ..).trans (stepTaken_get _ h)
  refine ⟨clockStepEffect s, exec_clockStepEffect s, (hstep _ (by decide)).trans hcur,
    State.bit_eq_false_iff.2 ((hstep _ (by decide)).trans hpend), State.bit_eq_false_iff.2 ((hstep _ (by decide)).trans hlocked), hlock,
    fun h => ?_, fun h => ?_, fun d hd hn => ?_, (stepTaken_regsBut s).congr hregs, hq⟩
  · exact (hget ..).trans (stepTaken_count s (if_pos h))
  · exact (hget ..).trans (stepTaken_count s (if_neg (Nat.not_lt.2 h)))
  · rw [hdying]
    exact Map.find_foldl_put _ _ _ (.inl (by simp [hd, hn]))

end Sys2Proof.Machine

namespace Sys2Proof
open Sys2Proof.Machine

/-- Settles O5, command by command: the time reads, the loss and return of lock, the requests, the announcement, the commitment and the
effect. -/
theorem clockSteps : Obligations.ClockSteps := by
  unfold Obligations.ClockSteps
  refine ⟨⟨fun s hs => ?_, fun s d => ?_⟩, fun s => ⟨ceilStepWrite_spec s, clockStepRequest_spec s⟩, fun s at_ hb => ?_, fun s at_ hs => ?_,
    fun s => ?_⟩
  · exact ⟨⟨stitchLoRead s, exec_stitchLoRead s, rfl, stitchLoRead_latches s hs, stitchLoRead_frame s⟩, readReg_stitchHi s⟩
  · exact ⟨lockLoss_withdraws_step, lockLoss_after_commit, lockLoss_without_step, pllRelock_spec s d⟩
  · rw [exec_clockStepAnnounce, clockStepAnnounce_none _ (State.nextStep_of_beforeK4 (State.beforeK4_of hb))]
  · refine ⟨?_, fun k hk hc h5 => ⟨State.nextStep_adjacent hk, announce_alone_spec at_ hs hk hc h5, announce_root_spec at_ hs hk hc h5,
      fun hl hr => by rw [exec_clockStepAnnounce, clockStepAnnounce_follower _ hk hc hl hr]⟩⟩
    rintro (hn | ⟨k, hk, hc⟩)
    · rw [exec_clockStepAnnounce, clockStepAnnounce_none _ hn]
    · rw [exec_clockStepAnnounce, clockStepAnnounce_not_ready _ hk hc]
  · rw [exec_stepCommit, exec_clockStepEffect]
    exact ⟨fun hp ha => by rw [stepCommit_due hp ha], fun ha => by rw [stepCommit_early ha],
      fun hp => ⟨by rw [stepCommit_idle hp], by rw [clockStepEffect_idle hp]⟩,
      fun ha => by rw [clockStepEffect_early ha], clockStepEffect_spec⟩

end Sys2Proof
end

section
/-!
PROOFS. Array engines (chapters 02 and 06): the start of AMV and AMVW on the arrays of a group, the completion of an array's operation, and
the obligation on them.
-/

namespace Sys2Proof
open Sys2Proof.Machine

/-! ### Frames -/

theorem Still.refl (s : State) : Still s s := ⟨rfl, rfl, rfl, rfl⟩

theorem Still.trans {s t u : State} (h : Still s t) (k : Still t u) : Still s u := by
  obtain ⟨h1, h2, h3, h4⟩ := h
  obtain ⟨k1, k2, k3, k4⟩ := k
  exact ⟨k1.trans h1, k2.trans h2, k3.trans h3, k4.trans h4⟩

theorem Still.now {s t : State} (h : Still s t) : t.now = s.now := by
  obtain ⟨_, hst, hcc, _⟩ := h
  simp [State.now, hst, hcc]

theorem Quiet.still {s t : State} (h : Quiet s t) : Still s t := by
  obtain ⟨hm, hst, hcc, hp, _⟩ := h
  exact ⟨hm, hst, hcc, hp⟩

theorem Quiet.core {s t : State} (h : Quiet s t) (c : CoreId) : t.core c = s.core c := by
  obtain ⟨_, _, _, _, hc, _⟩ := h
  simp [State.core, hc]

theorem Quiet.engines {s t : State} (h : Quiet s t) : t.engines = s.engines := by
  obtain ⟨_, _, _, _, _, he⟩ := h
  exact he

theorem RegsBut.raise {l : List Reg} {s t : State} (h : RegsBut l s t) (f : Fld) (ix : Ix) (hm : f.reg ∈ l) :
    RegsBut l s (t.raise f ix) := (h.set f ix 1 hm).congr rfl

end Sys2Proof

namespace Sys2Proof.Machine
open Sys2Proof

/-! ### The commands' meanings -/

theorem exec_amv (c : CoreId) (grp : Fin 16) (lat : Fin 8) (dst : Fin 1024) (s : State) :
    exec (.amv c grp lat dst) s = .next (onSlot c 0 (amvSlot c grp lat dst) s) := rfl
theorem exec_amvw (c : CoreId) (grp : Fin 16) (lat : Fin 8) (dst : Fin 1024) (s : State) :
    exec (.amvw c grp lat dst) s = .next (onSlot c 0 (amvwSlot c grp lat dst) s) := rfl
theorem exec_arrayOpComplete (a : ArrId) (s : State) : exec (.arrayOpComplete a) s = .next (arrayOpComplete a s) := rfl

/-! ### Arrays, engines and repeated updates -/

theorem ArrId.ix_injective : Function.Injective fun a : ArrId => a.ix := by
  rintro ⟨d, k, c, n⟩ ⟨d', k', c', n'⟩ h
  simp only [ArrId.ix, Ix.mk.injEq] at h
  obtain ⟨hd, hk, hc, hn, -⟩ := h
  simp [Fin.ext hd, Fin.ext hk, Fin.ext hc, Fin.ext hn]

theorem State.groupArrays_nodup (s : State) (c : CoreId) (g : Nat) : (s.groupArrays c g).Nodup :=
  List.Pairwise.map c.arr (fun _ _ hne h => hne (congrArg ArrId.arr h)) (List.Pairwise.filter _ (List.nodup_finRange 64))

@[simp] theorem State.engine_setEngine_same (s : State) (a : ArrId) (e : Engine) : (s.setEngine a e).engine a = e :=
  Map.getD_put_same ..

theorem State.engine_setEngine_ne (s : State) {a b : ArrId} (e : Engine) (h : a ≠ b) : (s.setEngine a e).engine b = s.engine b :=
  Map.getD_put_ne _ _ _ _ _ h

/-- What every single update keeps, a run of them keeps. -/
theorem forAll_keeps {α : Type} {R : State → State → Prop} (refl : ∀ s, R s s) (trans : ∀ {s t u}, R s t → R t u → R s u)
    {f : α → State → State} (xs : List α) (step : ∀ x ∈ xs, ∀ s, R s (f x s)) (s : State) : R s (forAll xs f s) := by
  induction xs generalizing s with
  | nil => exact refl s
  | cons x xs ih =>
    exact trans (step x (by simp) s) (ih (fun y hy => step y (by simp [hy])) _)

/-- Only a retired array reads RETIRED: no event still to come makes or ends that state (R93). -/
theorem State.arrState_eq_retired_iff (s : State) (a : ArrId) : s.arrState a = aRetired ↔ s.get F.arrState.state a.ix = aRetired := by
  unfold State.arrState
  dsimp only
  split
  · rename_i h
    have hne : s.get F.arrState.state a.ix ≠ aRetired := fun hr => by
      simp [hr, aRetired, aIdle, aCompute, aAccess] at h
    refine ⟨fun hr => ?_, fun hr => absurd hr hne⟩
    split at hr <;> simp [aClearing, aIdle, aRetired] at hr
  · exact Iff.rfl

/-! ### The start on one array (R75, R79, R94) -/

/-- Array a of state t runs an operation of an interval that started on it in state s. -/
def StartedOn (interval : Nat) (s t : State) (a : ArrId) : Prop :=
  (t.engine a).reissueAt = s.now + interval ∧ (t.engine a).convEnd = s.now + interval + 4 ∧
  (s.arrState a ≠ aRetired → t.get F.arrState.state a.ix = aCompute) ∧
  (s.arrState a = aRetired → t.get F.arrErr.retired_use a.ix = 1 ∧ t.get F.arrState.state a.ix = s.get F.arrState.state a.ix)

/-- Array a's engine, its state and its mark of use while retired are as before. -/
def ArrayKept (a : ArrId) (s t : State) : Prop :=
  t.engine a = s.engine a ∧ t.get F.arrState.state a.ix = s.get F.arrState.state a.ix ∧
    t.get F.arrErr.retired_use a.ix = s.get F.arrErr.retired_use a.ix

theorem ArrayKept.refl (a : ArrId) (s : State) : ArrayKept a s s := ⟨rfl, rfl, rfl⟩

theorem ArrayKept.trans {a : ArrId} {s t u : State} (h : ArrayKept a s t) (k : ArrayKept a t u) : ArrayKept a s u := by
  obtain ⟨he, hs, hr⟩ := h
  obtain ⟨ke, ks, kr⟩ := k
  exact ⟨ke.trans he, ks.trans hs, kr.trans hr⟩

theorem StartedOn.of_kept {interval : Nat} {s s' t t' : State} {a : ArrId} (h : StartedOn interval s' t a) (hs : ArrayKept a s s')
    (hn : s'.now = s.now) (ht : ArrayKept a t t') : StartedOn interval s t' a := by
  obtain ⟨-, hss, -⟩ := hs
  obtain ⟨hte, hts, htr⟩ := ht
  simpa only [StartedOn, ne_eq, State.arrState_eq_retired_iff, hte, hts, htr, hss, hn] using h

/-- The engine of an array once an operation has started on it. -/
def startedEngine (interval : Nat) (a : ArrId) (s : State) : Engine :=
  { s.engine a with
    reissueAt := s.now + interval
    convEnd := s.now + interval + 4
    wasOn := true
    busy := (s.engine a).busy + if s.arrState a = aRetired then 0 else s.now + interval + 4 - max s.now (s.engine a).convEnd
    hold := if interval / 16 % 2 = 0 then (s.engine a).hold else !(s.engine a).hold }

/-- A retired array is marked and keeps its state; any other computes. -/
theorem startArray_cases (interval : Nat) (a : ArrId) (s : State) :
    (s.arrState a = aRetired ∧ startArray interval a s = (s.setEngine a (startedEngine interval a s)).raise F.arrErr.retired_use a.ix) ∨
    (s.arrState a ≠ aRetired ∧ startArray interval a s = (s.setEngine a (startedEngine interval a s)).set F.arrState.state a.ix aCompute) := by
  have hr : (s.setEngine a (startedEngine interval a s)).arrState a = aRetired ↔ s.arrState a = aRetired := by
    simp only [State.arrState_eq_retired_iff, State.get_setEngine]
  by_cases h : s.arrState a = aRetired
  · exact .inl ⟨h, if_pos (hr.2 h)⟩
  · exact .inr ⟨h, if_neg (mt hr.1 h)⟩

theorem startArray_engines (interval : Nat) (a : ArrId) (s : State) :
    (startArray interval a s).engines = (s.setEngine a (startedEngine interval a s)).engines := by
  rcases startArray_cases interval a s with ⟨-, e⟩ | ⟨-, e⟩ <;> rw [e] <;> rfl

theorem startArray_startedOn (interval : Nat) (a : ArrId) (s : State) : StartedOn interval s (startArray interval a s) a := by
  have he : (startArray interval a s).engine a = startedEngine interval a s := by
    rw [State.engine, startArray_engines]
    exact State.engine_setEngine_same ..
  refine ⟨congrArg Engine.reissueAt he, congrArg Engine.convEnd he, fun h => ?_, fun h => ?_⟩
  · obtain ⟨h', -⟩ | ⟨-, e⟩ := startArray_cases interval a s
    · exact absurd h' h
    · rw [e, State.get_set_same]
      rfl
  · obtain ⟨-, e⟩ | ⟨h', -⟩ := startArray_cases interval a s
    · rw [e, State.raise_get, State.raise_get, State.get_set_same, State.get_set_reg _ _ _ _ _ _ (by decide)]
      exact ⟨rfl, rfl⟩
    · exact absurd h h'

theorem startArray_keeps_other (interval : Nat) {a b : ArrId} (h : a ≠ b) (s : State) : ArrayKept b s (startArray interval a s) := by
  have hix : a.ix ≠ b.ix := ArrId.ix_injective.ne h
  have hget : ∀ f : Fld, (startArray interval a s).get f b.ix = s.get f b.ix := fun f => by
    rcases startArray_cases interval a s with ⟨-, e⟩ | ⟨-, e⟩ <;> rw [e]
    · exact State.get_set_ix (s.setEngine ..) _ _ _ _ _ hix
    · exact State.get_set_ix (s.setEngine ..) _ _ _ _ _ hix
  refine ⟨?_, hget _, hget _⟩
  rw [State.engine, startArray_engines]
  exact State.engine_setEngine_ne _ _ h

/-- A start changes its engine and the array's state and error registers alone. -/
theorem startArray_frame (interval : Nat) (a : ArrId) (s : State) :
    RegsBut [.arrState, .arrErr] s (startArray interval a s) ∧ (startArray interval a s).cores = s.cores ∧
      Still s (startArray interval a s) := by
  have hs : RegsBut [.arrState, .arrErr] s (s.setEngine a (startedEngine interval a s)) := fun _ _ _ => rfl
  rcases startArray_cases interval a s with ⟨-, e⟩ | ⟨-, e⟩ <;> rw [e]
  · exact ⟨hs.raise _ _ (by decide), rfl, Still.refl _⟩
  · exact ⟨hs.set _ _ _ (by decide), rfl, Still.refl _⟩

/-! ### The start on a group -/

theorem startArrays_frame (interval : Nat) (as : List ArrId) (s : State) :
    RegsBut [.arrState, .arrErr] s (forAll as (startArray interval) s) ∧ (forAll as (startArray interval) s).cores = s.cores ∧
      Still s (forAll as (startArray interval) s) := by
  refine forAll_keeps (R := fun s t => RegsBut [.arrState, .arrErr] s t ∧ t.cores = s.cores ∧ Still s t)
    (fun s => ⟨RegsBut.refl _ _, rfl, Still.refl _⟩) (fun h k => ?_) as (fun a _ => startArray_frame interval a) s
  obtain ⟨hr, hc, hs⟩ := h
  obtain ⟨kr, kc, ks⟩ := k
  exact ⟨hr.trans kr, kc.trans hc, hs.trans ks⟩

theorem startArrays_keeps_other (interval : Nat) {as : List ArrId} {b : ArrId} (h : b ∉ as) (s : State) :
    ArrayKept b s (forAll as (startArray interval) s) :=
  forAll_keeps (ArrayKept.refl b) ArrayKept.trans as
    (fun _ ha => startArray_keeps_other interval fun e => h (e ▸ ha)) s

theorem startArrays_startedOn (interval : Nat) {as : List ArrId} (hd : as.Nodup) {a : ArrId} (ha : a ∈ as) (s : State) :
    StartedOn interval s (forAll as (startArray interval) s) a := by
  induction as generalizing s with
  | nil => cases ha
  | cons x xs ih =>
    obtain ⟨hx, hxs⟩ := List.nodup_cons.1 hd
    rcases List.mem_cons.1 ha with rfl | ha
    · exact (startArray_startedOn interval a s).of_kept (ArrayKept.refl ..) rfl (startArrays_keeps_other interval hx _)
    · have hxa : x ≠ a := fun e => hx (e ▸ ha)
      obtain ⟨-, -, hs⟩ := startArray_frame interval x s
      exact (ih hxs ha _).of_kept (startArray_keeps_other interval hxa s) hs.now (ArrayKept.refl ..)

/-! ### Pending lines (R201) -/

theorem State.pend_pendLine_same (s : State) (x : Nat) : ((s.pendLine x).mark x).pend = (s.mark x).pend + 1 := by
  have hne : ({ s.mark x with pend := (s.mark x).pend + 1 } : LineMark) ≠ {} := fun h => Nat.succ_ne_zero _ (congrArg LineMark.pend h)
  rw [State.pendLine, State.setMark, if_neg hne, State.mark]
  exact congrArg LineMark.pend (Map.getD_put_same ..)

theorem State.mark_pendLine_ne (s : State) {x y : Nat} (h : x / 256 ≠ y / 256) : (s.pendLine x).mark y = s.mark y := by
  unfold State.pendLine State.setMark State.mark
  dsimp only
  split
  · simp [Map.getD, Map.find_del_ne _ _ _ h]
  · exact Map.getD_put_ne _ _ _ _ _ h

theorem State.pend_pendLine_pos {s : State} (x : Nat) {y : Nat} (h : 0 < (s.mark y).pend) : 0 < ((s.pendLine x).mark y).pend := by
  by_cases hl : x / 256 = y / 256
  · have hm : ∀ t : State, t.mark y = t.mark x := fun t => by rw [State.mark, State.mark, hl]
    rw [hm, State.pend_pendLine_same]
    exact Nat.succ_pos _
  · rwa [State.mark_pendLine_ne s hl]

/-- Every line of a list is pending once each has had a write more. -/
theorem pendLines_pend_pos (xs : List Nat) (adr : Nat → Nat) {x : Nat} (s : State) (h : x ∈ xs ∨ 0 < (s.mark (adr x)).pend) :
    0 < ((forAll xs (fun i s => s.pendLine (adr i)) s).mark (adr x)).pend := by
  induction xs generalizing s with
  | nil => exact h.resolve_left List.not_mem_nil
  | cons y ys ih =>
    refine ih (s.pendLine (adr y)) ?_
    rcases h with hm | hp
    · rcases List.mem_cons.1 hm with rfl | hm
      · exact .inr (by rw [State.pend_pendLine_same]; exact Nat.succ_pos _)
      · exact .inl hm
    · exact .inr (State.pend_pendLine_pos _ hp)

theorem pendLines_frame (xs : List Nat) (adr : Nat → Nat) (s : State) :
    ∃ m, forAll xs (fun i s => s.pendLine (adr i)) s = { s with marks := m } := by
  induction xs generalizing s with
  | nil => exact ⟨s.marks, rfl⟩
  | cons y ys ih =>
    obtain ⟨m, hm⟩ := ih (s.pendLine (adr y))
    exact ⟨m, hm⟩

/-! ### The issue (R202) -/

theorem Core.charge_frame (k : Core) (st n len : Nat) :
    (k.charge st n len).ops = k.ops ∧ (k.charge st n len).latches = k.latches := by
  induction len generalizing k st with
  | zero => exact ⟨rfl, rfl⟩
  | succ len ih => exact ih _ _

theorem State.core_chargeCredits (s : State) (c : CoreId) (n len : Nat) :
    (s.chargeCredits c n len).core c = (s.core c).charge s.stitch n len := State.core_setCore_same ..

/-- A charge changes its core and the register that shows the use alone. -/
theorem State.chargeCredits_frame (s : State) (c : CoreId) (n len : Nat) :
    RegsBut [.coreCredUse] s (s.chargeCredits c n len) ∧ CoresBut c s (s.chargeCredits c n len) ∧
      (s.chargeCredits c n len).engines = s.engines ∧ Still s (s.chargeCredits c n len) := by
  refine ⟨?_, fun d hd => State.core_setCore_ne s c d _ hd.symm, rfl, ⟨rfl, rfl, rfl, rfl⟩⟩
  exact RegsBut.set (RegsBut.set (t := s.setCore c _) (fun _ _ _ => rfl) _ _ _ (by decide)) _ _ _ (by decide)

theorem groupLines_map_fst (s : State) (act : QFmt) (m : ConvMode) (as : List ArrId) (o : Nat) :
    (groupLines s act m as o).map Prod.fst = as := by
  induction as generalizing o with
  | nil => rfl
  | cons a as ih => simp [groupLines, ih]

/-- The operations of a group on latch `lat`, in rank order. -/
def groupOps (m : ConvMode) (c : CoreId) (grp lat base : Nat) (s : State) : List ArrayOp :=
  let l := Map.getD (s.core c).latches lat {}
  (groupLines s (QFmt.ofCode l.fmt) m (s.groupArrays c grp) 0).map (arrayOpOf s l m base (s.core c).lineSeq)

/-- Result lines of a group's operation on latch `lat`. -/
def groupOpLines (m : ConvMode) (c : CoreId) (grp lat : Nat) (s : State) : Nat :=
  groupTotal (groupLines s (QFmt.ofCode (Map.getD (s.core c).latches lat {}).fmt) m (s.groupArrays c grp) 0)

/-- Re-issue interval of an operation on latch `lat`. -/
def latchInterval (m : ConvMode) (c : CoreId) (lat : Nat) (s : State) : Nat :=
  opInterval (QFmt.ofCode (Map.getD (s.core c).latches lat {}).fmt) m

/-- The core has charged the operation's credits, and holds its operations and the latch. -/
def opQueued (m : ConvMode) (c : CoreId) (grp lat base : Nat) (s : State) : State :=
  let t := s.chargeCredits c (s.groupArrays c grp).length (latchInterval m c lat s / 16)
  let k := t.core c
  t.setCore c { k with ops := k.ops ++ groupOps m c grp lat base s, nextA := t.now + 1, lineSeq := k.lineSeq + groupOpLines m c grp lat s
                       latches := Map.put k.latches lat { Map.getD (s.core c).latches lat {} with busyUntil := t.now + latchInterval m c lat s } }

/-- The operation has started on every array of the group. -/
def opStarted (m : ConvMode) (c : CoreId) (grp lat base : Nat) (s : State) : State :=
  forAll (s.groupArrays c grp) (startArray (latchInterval m c lat s)) (opQueued m c grp lat base s)

/-- The operation has issued: every line of its destination is pending. -/
def opIssued (m : ConvMode) (c : CoreId) (grp lat base : Nat) (s : State) : State :=
  (forAll (List.range (groupOpLines m c grp lat s)) (fun i s => s.pendLine (spadAddr c (base + 256 * i)))
    (opStarted m c grp lat base s)).takeDraws (256 * opEvals (QFmt.ofCode (Map.getD (s.core c).latches lat {}).fmt) m)

theorem need_of {b : Bool} (h : b = true) (code detail : Nat) (k : SlotRes) : need b code detail k = k := if_pos h

theorem lowestReason_map_zero {α : Type} (f : α → Nat) (xs : List α) (h : ∀ x ∈ xs, f x = 0) : lowestReason (xs.map f) = 0 := by
  rw [List.map_eq_replicate_iff.2 h]
  generalize xs.length = n
  induction n with
  | zero => rfl
  | succ n ih => exact ih

theorem issuing_of_arrayReady {m : ConvMode} {s : State} {c : CoreId} {grp lat dst base : Nat} (h : arrayReady m s c grp lat dst base) :
    s.issuing c = true := by
  obtain ⟨⟨hi, -⟩, -⟩ := h
  exact hi

/-- Once the checks of Table 06.4 pass the operation issues. -/
theorem slotAFree_issueArrayOp_of_ready {m : ConvMode} {s : State} {c : CoreId} {grp lat dst base : Nat}
    (h : arrayReady m s c grp lat dst base) :
    slotAFree c s (issueArrayOp m c grp lat dst s) = .ok (opIssued m c grp lat base s) := by
  obtain ⟨⟨-, hA⟩, hreload, hload, hloc, hcred, hbusy, hfull, hcal, hvalid, hanchor⟩ := h
  have hreload' : (!((s.groupArrays c grp).any fun a => decide (0 < (s.engine a).reload))) = true := by
    simpa using hreload
  have hvalid' : ((s.groupArrays c grp).all fun a => s.bit F.coreCalrecStat.valid a.ix || !s.bit F.arrCfg.enable a.ix) = true := by
    simpa using hvalid
  have hanchor' : (s.bit F.coreSeqTask.anchor c.ix || !s.calReserved c (s.groupArrays c grp)) = true := by
    simpa using hanchor
  unfold slotAFree issueArrayOp
  simp only [need_of (decide_eq_true hA), need_of hreload', hload, hloc, hcred, lowestReason_map_zero _ _ hbusy, hfull, hcal,
    need_of hvalid', need_of hanchor', Bool.not_false, decide_true, need_of rfl]
  rfl

theorem opQueued_core (m : ConvMode) (c : CoreId) (grp lat base : Nat) (s : State) :
    ((opQueued m c grp lat base s).core c).ops = (s.core c).ops ++ groupOps m c grp lat base s ∧
      ((opQueued m c grp lat base s).core c).latches = Map.put (s.core c).latches lat
        { Map.getD (s.core c).latches lat {} with busyUntil := s.now + latchInterval m c lat s } := by
  simp only [opQueued, State.core_setCore_same, State.core_chargeCredits, Core.charge_frame]
  exact ⟨trivial, rfl⟩

theorem opQueued_frame (m : ConvMode) (c : CoreId) (grp lat base : Nat) (s : State) :
    RegsBut [.coreCredUse] s (opQueued m c grp lat base s) ∧ CoresBut c s (opQueued m c grp lat base s) ∧
      (opQueued m c grp lat base s).engines = s.engines ∧ Still s (opQueued m c grp lat base s) := by
  obtain ⟨hr, hc, he, hs⟩ := s.chargeCredits_frame c (s.groupArrays c grp).length (latchInterval m c lat s / 16)
  exact ⟨hr.congr rfl, fun d hd => (State.core_setCore_ne _ c d _ hd.symm).trans (hc d hd), he, hs⟩

/-! ### AMV and AMVW (R75) -/

theorem groupOps_times (m : ConvMode) (c : CoreId) (grp lat base : Nat) (s : State) :
    (groupOps m c grp lat base s).map (fun o => (o.arr, o.doneAt)) =
      (s.groupArrays c grp).map fun a => (a.arr.val, s.now + latchInterval m c lat s + 8) := by
  have hranks := groupLines_map_fst s (QFmt.ofCode (Map.getD (s.core c).latches lat {}).fmt) m (s.groupArrays c grp) 0
  refine Eq.trans ?_ (congrArg (List.map fun a => (a.arr.val, s.now + latchInterval m c lat s + 8)) hranks)
  rw [groupOps, List.map_map, List.map_map]
  rfl

theorem opStarted_frame (m : ConvMode) (c : CoreId) (grp lat base : Nat) (s : State) :
    RegsBut [.arrState, .arrErr, .coreCredUse] s (opStarted m c grp lat base s) ∧ CoresBut c s (opStarted m c grp lat base s) ∧
      (opStarted m c grp lat base s).core c = (opQueued m c grp lat base s).core c ∧ Still s (opStarted m c grp lat base s) := by
  obtain ⟨hr, hc, -, hs⟩ := opQueued_frame m c grp lat base s
  obtain ⟨kr, kc, ks⟩ := startArrays_frame (latchInterval m c lat s) (s.groupArrays c grp) (opQueued m c grp lat base s)
  have hcore : ∀ d, (opStarted m c grp lat base s).core d = (opQueued m c grp lat base s).core d := fun d => by
    rw [State.core, State.core, opStarted, kc]
  exact ⟨(hr.mono (by simp)).trans (kr.mono (by simp)), fun d hd => (hcore d).trans (hc d hd), hcore c, hs.trans ks⟩

/-- Queueing leaves every array alone. -/
theorem opQueued_keeps_array {m : ConvMode} {c : CoreId} {grp lat base : Nat} {s : State} (a : ArrId) :
    ArrayKept a s (opQueued m c grp lat base s) := by
  obtain ⟨hr, -, he, -⟩ := opQueued_frame m c grp lat base s
  exact ⟨by rw [State.engine, State.engine, he], hr _ _ (by decide), hr _ _ (by decide)⟩

theorem opIssued_eq (m : ConvMode) (c : CoreId) (grp lat base : Nat) (s : State) :
    ∃ k n, opIssued m c grp lat base s = { opStarted m c grp lat base s with marks := k, draws := n } := by
  obtain ⟨k, hk⟩ := pendLines_frame (List.range (groupOpLines m c grp lat s)) (fun i => spadAddr c (base + 256 * i))
    (opStarted m c grp lat base s)
  exact ⟨k, _, by rw [opIssued, hk]; rfl⟩

theorem opIssued_keeps_array (m : ConvMode) (c : CoreId) (grp lat base : Nat) (s : State) (a : ArrId) :
    ArrayKept a (opStarted m c grp lat base s) (opIssued m c grp lat base s) := by
  obtain ⟨k, n, e⟩ := opIssued_eq m c grp lat base s
  rw [e]
  exact ArrayKept.refl ..

section
variable (m : ConvMode) (c : CoreId) (grp lat base : Nat) (s : State)

theorem opIssued_startedOn {a : ArrId} (ha : a ∈ s.groupArrays c grp) :
    StartedOn (latchInterval m c lat s) s (opIssued m c grp lat base s) a := by
  obtain ⟨-, -, -, hs⟩ := opQueued_frame m c grp lat base s
  exact (startArrays_startedOn _ (s.groupArrays_nodup c grp) ha _).of_kept (opQueued_keeps_array a) hs.now (opIssued_keeps_array ..)

theorem opIssued_engine_other {a : ArrId} (ha : a ∉ s.groupArrays c grp) :
    (opIssued m c grp lat base s).engine a = s.engine a :=
  (((opQueued_keeps_array a).trans (startArrays_keeps_other _ ha _)).trans (opIssued_keeps_array ..)).1

theorem opIssued_core :
    ((opIssued m c grp lat base s).core c).ops = (s.core c).ops ++ groupOps m c grp lat base s ∧
      ((opIssued m c grp lat base s).core c).latches = Map.put (s.core c).latches lat
        { Map.getD (s.core c).latches lat {} with busyUntil := s.now + latchInterval m c lat s } := by
  obtain ⟨k, n, e⟩ := opIssued_eq m c grp lat base s
  obtain ⟨-, -, hc, -⟩ := opStarted_frame m c grp lat base s
  have hcore : (opIssued m c grp lat base s).core c = (opQueued m c grp lat base s).core c := by
    rw [e]
    exact hc
  rw [hcore]
  exact opQueued_core m c grp lat base s

theorem opIssued_pend {j : Nat} (hj : j < groupOpLines m c grp lat s) :
    0 < ((opIssued m c grp lat base s).mark (spadAddr c (base + 256 * j))).pend :=
  pendLines_pend_pos _ (fun i => spadAddr c (base + 256 * i)) _ (.inl (List.mem_range.2 hj))

theorem opIssued_frame :
    CoresBut c s (opIssued m c grp lat base s) ∧ RegsBut [.arrState, .arrErr, .coreCredUse] s (opIssued m c grp lat base s) ∧
      Still s (opIssued m c grp lat base s) := by
  obtain ⟨k, n, e⟩ := opIssued_eq m c grp lat base s
  obtain ⟨hr, hc, -, hs⟩ := opStarted_frame m c grp lat base s
  rw [e]
  exact ⟨hc, hr.congr rfl, hs⟩

end

theorem onSlot_of_issuing {s s' : State} {c : CoreId} {src : Nat} {f : State → SlotRes} (h : s.issuing c = true) (hf : f s = .ok s') :
    onSlot c src f s = s' := by
  rw [onSlot, if_pos h, hf]
  rfl

/-- AMV and AMVW issue their operation once its checks pass. -/
theorem exec_arrayOp_of_ready {c : CoreId} {grp : Fin 16} {lat : Fin 8} {dst : Fin 1024} {base : Nat} {s : State} :
    (arrayReady .exact s c grp lat dst base → exec (.amv c grp lat dst) s = .next (opIssued .exact c grp lat base s)) ∧
    (arrayReady .wide s c grp lat dst base → exec (.amvw c grp lat dst) s = .next (opIssued .wide c grp lat base s)) := by
  refine ⟨fun h => ?_, fun h => ?_⟩
  · rw [exec_amv, onSlot_of_issuing (issuing_of_arrayReady h) (slotAFree_issueArrayOp_of_ready h)]
  · rw [exec_amvw, onSlot_of_issuing (issuing_of_arrayReady h) (slotAFree_issueArrayOp_of_ready h)]

/-! ### Completion (R67, R74) -/

theorem takeFirst_eq_none {α : Type} {p : α → Bool} {l : List α} (h : ∀ x ∈ l, p x = false) : takeFirst p l = none := by
  induction l with
  | nil => rfl
  | cons x l ih => simp [takeFirst, h x (by simp), ih fun y hy => h y (by simp [hy])]

theorem takeFirst_append {α : Type} {p : α → Bool} {pre : List α} {x : α} (post : List α) (h : ∀ y ∈ pre, p y = false) (hx : p x = true) :
    takeFirst p (pre ++ x :: post) = some (x, pre ++ post) := by
  induction pre with
  | nil => simp [takeFirst, hx]
  | cons y pre ih => simp [takeFirst, h y (by simp), ih fun z hz => h z (by simp [hz])]

theorem mem_insertLine {l x : ResultLine} {ls : List ResultLine} : x ∈ insertLine l ls ↔ x = l ∨ x ∈ ls := by
  induction ls with
  | nil => simp [insertLine]
  | cons y ys ih =>
    unfold insertLine
    split
    · simp
    · rw [List.mem_cons, List.mem_cons, ih]
      exact or_left_comm

theorem mem_insertLines {x : ResultLine} (new ls : List ResultLine) :
    x ∈ new.foldl (fun acc l => insertLine l acc) ls ↔ x ∈ ls ∨ x ∈ new := by
  induction new generalizing ls with
  | nil => simp
  | cons l new ih =>
    rw [List.foldl_cons, ih, mem_insertLine, List.mem_cons, or_assoc]
    exact or_left_comm

theorem State.get_inc_by (s : State) (f : Fld) (ix : Ix) (n : Nat) :
    (s.inc f ix n).get f ix = min (s.get f ix + n) (2 ^ f.width - 1) := by
  have : 0 < 2 ^ f.width := Nat.two_pow_pos _
  rw [State.inc, State.get_set_same, satAdd]
  exact Nat.mod_eq_of_lt (by omega)

/-- The operation's result is due: test of `arrayOpComplete` on a core's operations. -/
def opDue (a : ArrId) (s : State) (o : ArrayOp) : Bool := decide (o.arr = a.arr.val) && decide (o.doneAt ≤ s.now)

/-- Operation o leaves the core's record, with `rest` staying, and its lines enter the buffer. -/
def opTaken (a : ArrId) (o : ArrayOp) (rest : List ArrayOp) (s : State) : State :=
  s.setCore a.coreId { s.core a.coreId with
    ops := rest, lines := o.lines.foldl (fun acc l => insertLine l acc) (s.core a.coreId).lines }

/-- Saturated conversions are counted and marked (R67). -/
def clipsRecorded (a : ArrId) (n : Nat) (s : State) : State :=
  if n = 0 then s else ((s.inc F.arrClip.count a.ix n).raise F.arrErr.sat a.ix).raise F.coreArrstat.sat a.coreId.ix

/-- The array leaves COMPUTE unless a following operation still converts (R93). -/
def computeLeft (a : ArrId) (s : State) : State :=
  if s.get F.arrState.state a.ix = aCompute ∧ (s.engine a).convEnd ≤ s.now then s.setArrState a aIdle else s

/-- Operation o of array a has completed. -/
def opCompleted (a : ArrId) (o : ArrayOp) (rest : List ArrayOp) (s : State) : State :=
  computeLeft a (clipsRecorded a o.clips (countOp a o (opTaken a o rest s)))

theorem arrayOpComplete_of_none {a : ArrId} {s : State} (h : ∀ x ∈ (s.core a.coreId).ops, x.arr = a.arr.val → s.now < x.doneAt) :
    arrayOpComplete a s = s := by
  have ht : takeFirst (opDue a s) (s.core a.coreId).ops = none :=
    takeFirst_eq_none fun x hx => by simpa [opDue] using h x hx
  unfold opDue at ht
  rw [arrayOpComplete]
  simp only [ht]

theorem arrayOpComplete_of_due {a : ArrId} {s : State} {pre post : List ArrayOp} {o : ArrayOp}
    (h : (s.core a.coreId).ops = pre ++ o :: post) (hpre : ∀ x ∈ pre, x.arr = a.arr.val → s.now < x.doneAt)
    (ho : o.arr = a.arr.val) (hd : o.doneAt ≤ s.now) :
    arrayOpComplete a s = opCompleted a o (pre ++ post) s := by
  have ht : takeFirst (opDue a s) (s.core a.coreId).ops = some (o, pre ++ post) := by
    rw [h]
    exact takeFirst_append post (fun x hx => by simpa [opDue] using hpre x hx) (by simp [opDue, ho, hd])
  unfold opDue at ht
  rw [arrayOpComplete]
  simp only [ht]
  rfl

theorem countOp_frame (a : ArrId) (o : ArrayOp) (s : State) : RegsBut [.arrOps] s (countOp a o s) ∧ Quiet s (countOp a o s) := by
  unfold countOp
  split
  · exact ⟨RegsBut.refl _ _, rfl, rfl, rfl, rfl, rfl, rfl⟩
  · exact ⟨(RegsBut.refl _ _).set _ _ _ (by decide), rfl, rfl, rfl, rfl, rfl, rfl⟩

theorem countOp_count (a : ArrId) (o : ArrayOp) (s : State) : (countOp a o s).get F.arrOps.count a.ix =
    if o.counted then s.get F.arrOps.count a.ix else (s.get F.arrOps.count a.ix + 1) % 2 ^ 32 := by
  unfold countOp
  split
  · rfl
  · exact State.get_set_same ..

theorem clipsRecorded_frame (a : ArrId) (n : Nat) (s : State) :
    RegsBut [.arrClip, .arrErr, .coreArrstat] s (clipsRecorded a n s) ∧ Quiet s (clipsRecorded a n s) := by
  unfold clipsRecorded
  split
  · exact ⟨RegsBut.refl _ _, rfl, rfl, rfl, rfl, rfl, rfl⟩
  · exact ⟨(((RegsBut.refl _ _).set _ _ _ (by decide)).raise _ _ (by decide)).raise _ _ (by decide), rfl, rfl, rfl, rfl, rfl, rfl⟩

theorem clipsRecorded_marks (a : ArrId) {n : Nat} (s : State) (h : n ≠ 0) :
    (clipsRecorded a n s).get F.arrClip.count a.ix = min (s.get F.arrClip.count a.ix + n) 0xFFFF ∧
      (clipsRecorded a n s).get F.arrErr.sat a.ix = 1 ∧ (clipsRecorded a n s).get F.coreArrstat.sat a.coreId.ix = 1 := by
  rw [clipsRecorded, if_neg h]
  simp only [State.raise_get]
  refine ⟨?_, ?_, State.get_set_same ..⟩
  · rw [State.get_set_reg _ _ _ _ _ _ (by decide), State.raise_get, State.get_set_reg _ _ _ _ _ _ (by decide)]
    exact State.get_inc_by ..
  · rw [State.get_set_reg _ _ _ _ _ _ (by decide), State.raise_get]
    exact State.get_set_same ..

theorem computeLeft_frame (a : ArrId) (s : State) : RegsBut [.arrState] s (computeLeft a s) ∧ Quiet s (computeLeft a s) := by
  unfold computeLeft
  split
  · exact ⟨(RegsBut.refl _ _).set _ _ _ (by decide), rfl, rfl, rfl, rfl, rfl, rfl⟩
  · exact ⟨RegsBut.refl _ _, rfl, rfl, rfl, rfl, rfl, rfl⟩

theorem computeLeft_idle {a : ArrId} {s : State} (h : s.get F.arrState.state a.ix = aCompute) (he : (s.engine a).convEnd ≤ s.now) :
    (computeLeft a s).get F.arrState.state a.ix = aIdle := by
  rw [computeLeft, if_pos ⟨h, he⟩]
  exact State.get_set_same ..

section
variable (a : ArrId) (o : ArrayOp) (rest : List ArrayOp) (s : State)

theorem opTaken_frame : (opTaken a o rest s).regs = s.regs ∧ CoresBut a.coreId s (opTaken a o rest s) ∧
    (opTaken a o rest s).engines = s.engines ∧ Still s (opTaken a o rest s) :=
  ⟨rfl, fun _ hd => State.core_setCore_ne _ _ _ _ hd.symm, rfl, Still.refl _⟩

theorem opCompleted_frame : RegsBut [.arrOps, .arrClip, .arrErr, .coreArrstat, .arrState] s (opCompleted a o rest s) ∧
    Quiet (opTaken a o rest s) (opCompleted a o rest s) := by
  obtain ⟨r1, q1⟩ := countOp_frame a o (opTaken a o rest s)
  obtain ⟨r2, q2⟩ := clipsRecorded_frame a o.clips (countOp a o (opTaken a o rest s))
  obtain ⟨r3, q3⟩ := computeLeft_frame a (clipsRecorded a o.clips (countOp a o (opTaken a o rest s)))
  have r0 : RegsBut [.arrOps] s (opTaken a o rest s) := fun _ _ _ => rfl
  exact ⟨(((r0.trans r1).mono (by simp)).trans (r2.mono (by simp))).trans (r3.mono (by simp)), (q1.trans q2).trans q3⟩

theorem opCompleted_ops_count : (opCompleted a o rest s).get F.arrOps.count a.ix =
    if o.counted then s.get F.arrOps.count a.ix else (s.get F.arrOps.count a.ix + 1) % 2 ^ 32 := by
  rw [opCompleted, (computeLeft_frame ..).1 _ _ (by decide), (clipsRecorded_frame ..).1 _ _ (by decide), countOp_count]
  rfl

theorem opCompleted_no_clips (h : o.clips = 0) : (opCompleted a o rest s).get F.arrClip.count a.ix = s.get F.arrClip.count a.ix := by
  rw [opCompleted, (computeLeft_frame ..).1 _ _ (by decide), clipsRecorded, if_pos h, (countOp_frame ..).1 _ _ (by decide)]
  rfl

theorem opCompleted_clips (h : o.clips ≠ 0) :
    (opCompleted a o rest s).get F.arrClip.count a.ix = min (s.get F.arrClip.count a.ix + o.clips) 0xFFFF ∧
      (opCompleted a o rest s).get F.arrErr.sat a.ix = 1 ∧ (opCompleted a o rest s).get F.coreArrstat.sat a.coreId.ix = 1 := by
  obtain ⟨hc, he, hs⟩ := clipsRecorded_marks a (countOp a o (opTaken a o rest s)) h
  obtain ⟨hr, -⟩ := computeLeft_frame a (clipsRecorded a o.clips (countOp a o (opTaken a o rest s)))
  rw [(countOp_frame ..).1 _ _ (by decide)] at hc
  exact ⟨(hr _ _ (by decide)).trans hc, (hr _ _ (by decide)).trans he, (hr _ _ (by decide)).trans hs⟩

theorem opCompleted_core : (opCompleted a o rest s).core a.coreId = { s.core a.coreId with
    ops := rest, lines := o.lines.foldl (fun acc l => insertLine l acc) (s.core a.coreId).lines } :=
  ((opCompleted_frame ..).2.core _).trans (State.core_setCore_same ..)

theorem opCompleted_idle (h : s.get F.arrState.state a.ix = aCompute) (he : (s.engine a).convEnd ≤ s.now) :
    (opCompleted a o rest s).get F.arrState.state a.ix = aIdle := by
  obtain ⟨r1, q1⟩ := countOp_frame a o (opTaken a o rest s)
  obtain ⟨r2, q2⟩ := clipsRecorded_frame a o.clips (countOp a o (opTaken a o rest s))
  have hq := q1.trans q2
  refine computeLeft_idle (((r2 _ _ (by decide)).trans (r1 _ _ (by decide))).trans h) ?_
  rw [State.engine, hq.engines, hq.still.now]
  exact he

end

end Sys2Proof.Machine

namespace Sys2Proof
open Sys2Proof.Machine

/-- Settles O6: the issue of AMV and AMVW, array by array and line by line, then the completion of the oldest due operation. -/
theorem arrayOperations : Obligations.ArrayOperations := by
  unfold Obligations.ArrayOperations
  refine ⟨fun s c grp lat dst base i m windows hi hr => ?_, fun s a pre post o => ⟨fun h => ?_, fun h hpre ho hd => ?_⟩⟩
  · have hexec : exec i s = .next (opIssued m c grp lat base s) ∧ windows = modeWindows m := by
      simp only [List.mem_cons, List.not_mem_nil, or_false, Prod.mk.injEq] at hi
      rcases hi with ⟨rfl, rfl, rfl⟩ | ⟨rfl, rfl, rfl⟩
      · exact ⟨exec_arrayOp_of_ready.1 hr, rfl⟩
      · exact ⟨exec_arrayOp_of_ready.2 hr, rfl⟩
    obtain ⟨hexec, rfl⟩ := hexec
    obtain ⟨hops, hlat⟩ := opIssued_core m c grp lat base s
    obtain ⟨hcores, hregs, hstill⟩ := opIssued_frame m c grp lat base s
    refine ⟨_, hexec, fun a ha => opIssued_startedOn m c grp lat base s ha, ?_, ?_, fun j hj => opIssued_pend m c grp lat base s hj,
      fun a ha => opIssued_engine_other m c grp lat base s ha, hcores, hregs, hstill⟩
    · rw [hops, List.map_append, groupOps_times]
      rfl
    · rw [hlat, Map.getD_put_same]
      rfl
  · rw [exec_arrayOpComplete, arrayOpComplete_of_none h]
  · have hcount := opCompleted_ops_count a o (pre ++ post) s
    have hcore := opCompleted_core a o (pre ++ post) s
    obtain ⟨hregs, hq⟩ := opCompleted_frame a o (pre ++ post) s
    obtain ⟨-, hcores, heng, hstill⟩ := opTaken_frame a o (pre ++ post) s
    refine ⟨opCompleted a o (pre ++ post) s, by rw [exec_arrayOpComplete, arrayOpComplete_of_due h hpre ho hd], congrArg Core.ops hcore,
      fun hc => ?_, fun hc => ?_, opCompleted_no_clips a o _ s, opCompleted_clips a o _ s, fun l => ?_, opCompleted_idle a o _ s, hregs,
      fun d hne => (hq.core d).trans (hcores d hne), hq.engines.trans heng, hstill.trans hq.still⟩
    · rw [hcount, if_neg (by simp [hc])]
    · rw [hcount, if_pos hc]
    · rw [hcore]
      exact mem_insertLines ..

end Sys2Proof
end

section
/-!
PROOFS. Input latches (chapters 02, 05 and 06): what the record of a core's first fault holds, the issue of LDL and XSET, the landing of a
latch load, the exchange of the latch sets, and the obligation on them.
-/

namespace Sys2Proof
open Sys2Proof.Machine

/-! ### Frames -/

theorem CoresBut.setCore (s : State) (c : CoreId) (k : Core) : CoresBut c s (s.setCore c k) :=
  fun _ hd => State.core_setCore_ne _ _ _ _ hd.symm

theorem CoresBut.trans {c : CoreId} {s t u : State} (h : CoresBut c s t) (k : CoresBut c t u) : CoresBut c s u :=
  fun d hd => (k d hd).trans (h d hd)

end Sys2Proof

namespace Sys2Proof.Machine
open Sys2Proof

/-! ### The commands' meanings -/

theorem exec_ldl (c : CoreId) (lat : Fin 8) (fmt : Fin 4) (src : Fin 2048) (s : State) :
    exec (.ldl c lat fmt src) s = .next (onSlot c 0 (ldlSlot c lat fmt src) s) := rfl
theorem exec_xset (c : CoreId) (idx : Fin 4) (s : State) : exec (.xset c idx) s = .next (onSlot c 0 (xsetSlot c idx) s) := rfl
theorem exec_latchLanding (c : CoreId) (s : State) : exec (.latchLanding c) s = .next (latchLanding c s) := rfl
theorem exec_setExchange (c : CoreId) (s : State) : exec (.setExchange c) s = .next (setExchange c s) := rfl

/-! ### Fields set one after another -/

/-- Fields set one after another leave alone every field that is not among them. -/
theorem State.get_sets_ne {g : Fld} (s : State) (ix jx : Ix) {l : List (Fld × Nat)} (h : ∀ p ∈ l, p.1.reg ≠ g.reg ∨ p.1.lo ≠ g.lo) :
    (s.sets ix l).get g jx = s.get g jx := by
  induction l generalizing s with
  | nil => rfl
  | cons p l ih =>
    refine (ih _ fun q hq => h q (by simp [hq])).trans ?_
    rcases h p (by simp) with hr | hl
    · exact State.get_set_reg _ _ _ _ _ _ hr
    · exact State.get_set_lo _ _ _ _ _ _ hl

/-- Of fields at distinct places, each reads the value set, cut to its width. -/
theorem State.get_sets_of_mem {g : Fld} {v : Nat} (s : State) (ix : Ix) {l : List (Fld × Nat)}
    (hl : l.Pairwise fun p q => q.1.reg ≠ p.1.reg ∨ q.1.lo ≠ p.1.lo) (hm : (g, v) ∈ l) : (s.sets ix l).get g ix = v % 2 ^ g.width := by
  induction l generalizing s with
  | nil => cases hm
  | cons p l ih =>
    obtain ⟨hp, hl⟩ := List.pairwise_cons.1 hl
    rcases List.mem_cons.1 hm with rfl | hm
    · exact (State.get_sets_ne _ _ _ hp).trans (State.get_set_same ..)
    · exact ih _ hl hm

theorem State.sets_frame (s : State) (ix : Ix) (l : List (Fld × Nat)) : (s.sets ix l).cores = s.cores ∧ Still s (s.sets ix l) := by
  induction l generalizing s with
  | nil => exact ⟨rfl, Still.refl s⟩
  | cons p l ih => exact ih _

/-! ### A core's first fault (R189, R190) -/

/-- What a first fault writes in CORE.SFLT. -/
def faultFields (c : CoreId) (src bundle : Nat) (f : SFault) (s : State) : List (Fld × Nat) :=
  [(F.coreSfltRec.valid, 1), (F.coreSfltRec.code, f.code), (F.coreSfltRec.src, src), (F.coreSfltRec.bundle, bundle),
    (F.coreSfltRec.detail, f.detail), (F.coreSfltRec.secondary, 0),
    (F.coreSfltCycle.cc, s.now - 16 * s.get F.coreSeqLaunch.stitch c.ix), (F.coreSfltStitch.stitch, s.stitch)]

/-- The fault is recorded and counted, and the core stops with the next stitch. -/
def faultNoted (c : CoreId) (src bundle : Nat) (f : SFault) (s : State) : State :=
  let t := (s.sets c.ix (faultFields c src bundle f s)).inc F.stwSchedCnt.faults (Ix.stw c.die)
  t.setCore c { t.core c with stopAt := some (16 * (t.stitch + 1)) }

/-- A first fault that is no uncorrectable word is noted; the halt line of the die's partition, if it has one, is asserted. -/
theorem State.schedFault_first {s : State} {c : CoreId} (src bundle : Nat) {f : SFault} (hue : f.ue = none)
    (hv : s.bit F.coreSfltRec.valid c.ix = false) :
    s.schedFault c src bundle f = faultNoted c src bundle f s ∨
      ∃ p k, s.schedFault c src bundle f = (faultNoted c src bundle f s).assertHalt p k true := by
  unfold State.schedFault
  simp only [hue, hv, Bool.false_eq_true, if_false]
  split
  · exact .inl rfl
  · exact .inr ⟨_, _, rfl⟩

/-- Asserting a halt line writes SECONDARY marks and the halt's own record alone. -/
theorem State.assertHalt_frame (s : State) (p : Nat) (k : FaultKey) (b : Bool) :
    (∀ (g : Fld) (ix : Ix), g.lo ≠ F.coreSfltRec.secondary.lo → (s.assertHalt p k b).get g ix = s.get g ix) ∧
      (s.assertHalt p k b).cores = s.cores ∧ Still s (s.assertHalt p k b) := by
  unfold State.assertHalt
  split
  · exact ⟨fun _ _ _ => rfl, rfl, Still.refl s⟩
  · dsimp only
    split
    · exact ⟨fun g ix hg => State.get_set_lo _ _ _ _ _ _ hg.symm, rfl, Still.refl s⟩
    · split
      · exact ⟨fun g ix hg => State.get_set_lo _ _ _ _ _ _ hg.symm, rfl, Still.refl s⟩
      · exact ⟨fun _ _ _ => rfl, rfl, Still.refl s⟩

/-- State t is s after the first fault of core c: its record, and what it leaves alone. -/
structure FirstFault (c : CoreId) (src bundle : Nat) (f : SFault) (s t : State) : Prop where
  code : t.get F.coreSfltRec.code c.ix = f.code % 2 ^ 6
  src : t.get F.coreSfltRec.src c.ix = src % 2 ^ 2
  bundle : t.get F.coreSfltRec.bundle c.ix = bundle % 2 ^ 11
  detail : t.get F.coreSfltRec.detail c.ix = f.detail % 2 ^ 8
  core : t.core c = { s.core c with stopAt := some (16 * (s.stitch + 1)) }
  still : Still s t

theorem faultNoted_get {g : Fld} {v : Nat} {c : CoreId} {src bundle : Nat} {f : SFault} {s : State}
    (hm : (g, v) ∈ faultFields c src bundle f s) (hg : g.reg = .coreSfltRec) :
    (faultNoted c src bundle f s).get g c.ix = v % 2 ^ g.width := by
  have hpw : (faultFields c src bundle f s).Pairwise fun p q => q.1.reg ≠ p.1.reg ∨ q.1.lo ≠ p.1.lo := by
    simp [faultFields, F.coreSfltRec.valid, F.coreSfltRec.code, F.coreSfltRec.src, F.coreSfltRec.bundle, F.coreSfltRec.detail,
      F.coreSfltRec.secondary, F.coreSfltCycle.cc, F.coreSfltStitch.stitch]
  rw [faultNoted, State.get_setCore, State.inc, State.get_set_reg _ _ _ _ _ _ (by rw [hg]; decide)]
  exact State.get_sets_of_mem s c.ix hpw hm

theorem faultNoted_firstFault (c : CoreId) (src bundle : Nat) (f : SFault) (s : State) :
    FirstFault c src bundle f s (faultNoted c src bundle f s) := by
  obtain ⟨hc, hs⟩ := s.sets_frame c.ix (faultFields c src bundle f s)
  refine ⟨faultNoted_get (by simp [faultFields]) rfl, faultNoted_get (by simp [faultFields]) rfl,
    faultNoted_get (by simp [faultFields]) rfl, faultNoted_get (by simp [faultFields]) rfl, ?_, hs.trans ⟨rfl, rfl, rfl, rfl⟩⟩
  have hcore : (s.sets c.ix (faultFields c src bundle f s)).core c = s.core c := by rw [State.core, hc, State.core]
  obtain ⟨-, hst, -⟩ := hs
  rw [faultNoted, State.core_setCore_same, ← hcore, ← hst]
  rfl

theorem FirstFault.of_assertHalt {c : CoreId} {src bundle : Nat} {f : SFault} {s t : State} (h : FirstFault c src bundle f s t)
    (p : Nat) (k : FaultKey) (b : Bool) : FirstFault c src bundle f s (t.assertHalt p k b) := by
  obtain ⟨hget, hcores, hstill⟩ := t.assertHalt_frame p k b
  exact ⟨(hget _ _ (by decide)).trans h.code, (hget _ _ (by decide)).trans h.src, (hget _ _ (by decide)).trans h.bundle,
    (hget _ _ (by decide)).trans h.detail, by rw [State.core, hcores]; exact h.core, h.still.trans hstill⟩

theorem State.schedFault_firstFault {s : State} {c : CoreId} (src bundle : Nat) {f : SFault} (hue : f.ue = none)
    (hv : s.bit F.coreSfltRec.valid c.ix = false) : FirstFault c src bundle f s (s.schedFault c src bundle f) := by
  have hn := faultNoted_firstFault c src bundle f s
  rcases s.schedFault_first src bundle hue hv with e | ⟨p, k, e⟩ <;> rw [e]
  · exact hn
  · exact hn.of_assertHalt p k true

/-! ### Slot A -/

theorem slotAFree_of_canA {s : State} {c : CoreId} (h : canA s c) (k : SlotRes) : slotAFree c s k = k :=
  need_of (decide_eq_true h.2) ..

theorem onSlot_of_fault {s : State} {c : CoreId} {f : State → SlotRes} {e : SFault} (src : Nat) (h : s.issuing c = true)
    (hf : f s = .error e) : onSlot c src f s = s.schedFault c src (s.get F.coreSeqPc.pc c.ix) e := by
  rw [onSlot, if_pos h, hf]
  rfl

/-! ### LDL (R203) -/

/-- The first cycle of a bank in a position lies within eight cycles (R259). -/
theorem nextSlot_spec (bank t : Nat) {pos : Nat} (hp : pos < 8) :
    t ≤ nextSlot bank pos t ∧ nextSlot bank pos t < t + 8 ∧ wheelPos bank (nextSlot bank pos t) = pos := by
  unfold wheelPos nextSlot
  omega

theorem State.located_eq {s : State} {c : CoreId} {k o n ofs : Nat} (h : s.located c k o n = .ok ofs) :
    s.before.get F.coreSeqBase.base (c.ix k) + o = ofs := by
  unfold State.located at h
  dsimp only at h
  split at h
  · cases h
  · exact Except.ok.inj h

/-- The cycle in which a load of an offset issued now lands. -/
def landCycle (s : State) (ofs : Nat) : Nat := nextSlot (bankOf ofs) 1 (s.now + 1)

/-- Core c holds the load that LDL has issued. -/
def ldlIssued (c : CoreId) (lat fmt ofs : Nat) (s : State) : State :=
  s.setCore c { s.core c with
    loads := (s.core c).loads ++ [⟨lat, fmt, ofs, landCycle s ofs, s.get F.coreSeqPc.pc c.ix⟩]
    nextA := s.now + 1 }

/-- LDL schedules its load when the source is in bounds and no other load takes its bank or its latch in the landing cycle. -/
theorem ldlSlot_of_free {s : State} {c : CoreId} {lat fmt src ofs : Nat} (hA : canA s c) (hsrc : fmt = 0 → src % 2 = 0)
    (hloc : s.located c 0 (src * 128) (latchBytes fmt) = .ok ofs)
    (hfree : ∀ l ∈ (s.core c).loads, l.landAt = landCycle s ofs → bankOf l.src ≠ bankOf ofs ∧ l.lat ≠ lat)
    (hclear : ∀ e, Map.find s.spadClear c.die.val = some e → e ≤ landCycle s ofs) :
    ldlSlot c lat fmt src s = .ok (ldlIssued c lat fmt ofs s) := by
  have heven : (decide (fmt ≠ 0) || decide (src % 2 = 0)) = true := by
    rw [Bool.or_eq_true, decide_eq_true_iff, decide_eq_true_iff]
    exact (Decidable.em (fmt = 0)).symm.imp_right hsrc
  have hbank : (!((s.core c).loads.any fun l => decide (bankOf l.src = bankOf ofs) && decide (l.landAt = landCycle s ofs)) &&
      (Map.find s.spadClear c.die).all fun t => decide (t ≤ landCycle s ofs)) = true := by
    rw [Bool.and_eq_true, Bool.not_eq_true', List.any_eq_false, Option.all_eq_true]
    refine ⟨fun l hl h => ?_, fun e he => decide_eq_true (hclear e he)⟩
    simp only [Bool.and_eq_true, decide_eq_true_eq] at h
    exact (hfree l hl h.2).1 h.1
  have hlatch : (!((s.core c).loads.any fun l => decide (l.lat = lat) && decide (l.landAt = landCycle s ofs))) = true := by
    rw [Bool.not_eq_true', List.any_eq_false]
    intro l hl h
    simp only [Bool.and_eq_true, decide_eq_true_eq] at h
    exact (hfree l hl h.2).2 h.1
  unfold landCycle at hbank hlatch
  unfold latchBytes at hloc
  unfold ldlSlot
  simp only [slotAFree_of_canA hA, need_of heven, State.located_eq hloc, need_of hbank, hloc, need_of hlatch]
  rfl

/-! ### XSET (R204) -/

/-- Core c has used slot A in this cycle. -/
def slotAUsed (c : CoreId) (s : State) : State := s.setCore c { s.core c with nextA := s.now + 1 }

/-- Core c has named stitch n for the exchange. -/
def exchangeNamed (c : CoreId) (n : Nat) (s : State) : State :=
  (slotAUsed c s).setCore c { (slotAUsed c s).core c with exchange := some n }

theorem xsetSlot_of_future {s : State} {c : CoreId} {idx : Nat} (hA : canA s c) (hs : s.bit F.coreArrstat.streaming c.ix = true)
    (ht : s.stitch < s.stReg c idx) : xsetSlot c idx s = .ok (exchangeNamed c (s.stReg c idx) s) := by
  unfold xsetSlot
  simp only [slotAFree_of_canA hA, hs, need_of (decide_eq_true ht), Bool.not_true, Bool.false_or, if_true]
  rfl

theorem xsetSlot_of_begun {s : State} {c : CoreId} {idx : Nat} (hA : canA s c) (hs : s.bit F.coreArrstat.streaming c.ix = true)
    (ht : s.stReg c idx ≤ s.stitch) : xsetSlot c idx s = .error { code := sStitchLate, detail := idx } := by
  unfold xsetSlot
  simp only [slotAFree_of_canA hA, hs, Bool.not_true, Bool.false_or, decide_eq_false (Nat.not_lt.2 ht)]
  rfl

theorem xsetSlot_of_spatial {s : State} {c : CoreId} (idx : Nat) (hA : canA s c) (hs : s.bit F.coreArrstat.streaming c.ix = false) :
    xsetSlot c idx s = .ok (slotAUsed c s) := by
  unfold xsetSlot
  simp only [slotAFree_of_canA hA, hs]
  rfl

theorem exchangeNamed_core (c : CoreId) (n : Nat) (s : State) :
    (exchangeNamed c n s).core c = { s.core c with exchange := some n, nextA := s.now + 1 } := by
  simp [exchangeNamed, slotAUsed]

theorem exchangeNamed_frame (c : CoreId) (n : Nat) (s : State) :
    CoresBut c s (exchangeNamed c n s) ∧ (exchangeNamed c n s).regs = s.regs ∧ Still s (exchangeNamed c n s) :=
  ⟨(CoresBut.setCore s c _).trans (CoresBut.setCore _ c _), rfl, Still.refl s⟩

/-! ### Latch landing (R80, R203) -/

theorem latchLanding_of_none_due {s : State} {c : CoreId} (h : ∀ l ∈ (s.core c).loads, s.now < l.landAt) : latchLanding c s = s := by
  have ht : takeFirst (fun l => decide (l.landAt ≤ s.now)) (s.core c).loads = none :=
    takeFirst_eq_none fun l hl => decide_eq_false (Nat.not_le.2 (h l hl))
  unfold latchLanding
  simp only [ht]

/-- Core c no longer waits for a load: `loads` are left. -/
def loadTaken (c : CoreId) (loads : List LatchLoad) (s : State) : State := s.setCore c { s.core c with loads := loads }

/-- What load l gives its latch. -/
def landedLatch (c : CoreId) (l : LatchLoad) (s : State) : Latch :=
  latchOf l.fmt (s.bytes (spadAddr c l.src) (latchBytes l.fmt)) (Map.getD (s.core c).latches l.lat {}).busyUntil s.now (bankOf l.src)

/-- Load l has landed in its latch; `loads` are left. -/
def loadLanded (c : CoreId) (l : LatchLoad) (loads : List LatchLoad) (s : State) : State :=
  (loadTaken c loads s).setCore c { s.core c with
    loads := loads, latches := Map.put (s.core c).latches l.lat (landedLatch c l s) }

theorem State.correctIn_of_no_upsets {s : State} (h : s.upsets = []) (ecc : Fld) (ix : Ix) (a n : Nat) : s.correctIn ecc ix a n = s := by
  simp [State.correctIn, State.correctWords, h]

section
variable {s : State} {c : CoreId} {pre rest : List LatchLoad} {l : LatchLoad} (hloads : (s.core c).loads = pre ++ l :: rest)
  (hpre : ∀ x ∈ pre, s.now < x.landAt) (hdue : l.landAt ≤ s.now) (hline : s.lineFault (spadAddr c l.src) (latchBytes l.fmt) = none)
include hloads hpre hdue

theorem takeFirst_due_load : takeFirst (fun l => decide (l.landAt ≤ s.now)) (s.core c).loads = some (l, pre ++ rest) := by
  rw [hloads]
  exact takeFirst_append rest (fun x hx => decide_eq_false (Nat.not_le.2 (hpre x hx))) (decide_eq_true hdue)

include hline

theorem latchLanding_of_idle_latch (hu : s.upsets = []) (hidle : (Map.getD (s.core c).latches l.lat {}).busyUntil ≤ s.now) :
    latchLanding c s = loadLanded c l (pre ++ rest) s := by
  unfold latchLanding
  simp only [takeFirst_due_load hloads hpre hdue, hline, if_neg (Nat.not_lt.2 hidle)]
  exact State.correctIn_of_no_upsets (s := loadLanded c l (pre ++ rest) s) hu ..

theorem latchLanding_of_busy_latch (hbusy : s.now < (Map.getD (s.core c).latches l.lat {}).busyUntil) :
    latchLanding c s = (loadTaken c (pre ++ rest) s).schedFault c 3 l.bundle { code := sLatch, detail := l.lat } := by
  unfold latchLanding
  simp only [takeFirst_due_load hloads hpre hdue, hline, if_pos hbusy]
  rfl

end

theorem loadLanded_core (c : CoreId) (l : LatchLoad) (loads : List LatchLoad) (s : State) : (loadLanded c l loads s).core c =
    { s.core c with loads := loads, latches := Map.put (s.core c).latches l.lat (landedLatch c l s) } := State.core_setCore_same ..

theorem loadLanded_latch (c : CoreId) (l : LatchLoad) (loads : List LatchLoad) (s : State) :
    Map.getD ((loadLanded c l loads s).core c).latches l.lat {} = landedLatch c l s := by
  rw [loadLanded_core]
  exact Map.getD_put_same ..

theorem loadLanded_latch_ne (c : CoreId) (l : LatchLoad) (loads : List LatchLoad) (s : State) {lat : Nat} (h : lat ≠ l.lat) :
    Map.find ((loadLanded c l loads s).core c).latches lat = Map.find (s.core c).latches lat := by
  rw [loadLanded_core]
  exact Map.find_put_ne _ _ _ _ h.symm

/-- The landed codes may be used from the next cycle on. -/
theorem loadLanded_latchLoading (c : CoreId) (l : LatchLoad) (loads : List LatchLoad) (s : State) :
    ((loadLanded c l loads s).core c).latchLoading l.lat s.now = true ∧
      ((∀ x ∈ loads, x.lat ≠ l.lat) → ((loadLanded c l loads s).core c).latchLoading l.lat (s.now + 1) = false) := by
  have husable : (Map.getD ((loadLanded c l loads s).core c).latches l.lat {}).usable = s.now + 1 := by rw [loadLanded_latch]; rfl
  have hloads : ((loadLanded c l loads s).core c).loads = loads := by rw [loadLanded_core]
  simp only [Core.latchLoading, husable, hloads]
  exact ⟨by simp, fun h => by simpa using h⟩

theorem loadLanded_frame (c : CoreId) (l : LatchLoad) (loads : List LatchLoad) (s : State) :
    CoresBut c s (loadLanded c l loads s) ∧ (loadLanded c l loads s).regs = s.regs ∧ Still s (loadLanded c l loads s) :=
  ⟨(CoresBut.setCore s c _).trans (CoresBut.setCore _ c _), rfl, Still.refl s⟩

/-! ### The exchange (R52) -/

theorem setExchange_of_not_due {s : State} {c : CoreId}
    (h : (s.core c).exchange = none ∨ ∃ n, (s.core c).exchange = some n ∧ s.now < 16 * n) : setExchange c s = s := by
  unfold setExchange
  rcases h with h | ⟨n, h, hn⟩
  · simp only [h]
  · simp only [h, if_neg (Nat.not_le.2 hn)]

/-- The sets of core c have exchanged roles, and the exchange has recorded it. -/
def exchanged (c : CoreId) (s : State) : State :=
  (s.setCore c { s.core c with exchange := none }).set F.coreArrstat.compute_set c.ix (s.computeSet c)

theorem setExchange_of_due {s : State} {c : CoreId} {n : Nat} (h : (s.core c).exchange = some n) (hn : 16 * n ≤ s.now) :
    setExchange c s = exchanged c s := by
  unfold setExchange
  simp only [h, if_pos hn]
  rfl

theorem State.computeSet_of_none {s : State} {c : CoreId} (h : (s.core c).exchange = none) :
    s.computeSet c = s.get F.coreArrstat.compute_set c.ix := by
  simp [State.computeSet, h]

theorem State.computeSet_of_spatial {s : State} {c : CoreId} (h : s.bit F.coreArrstat.streaming c.ix = false) :
    s.computeSet c = s.get F.coreArrstat.compute_set c.ix := by
  simp [State.computeSet, h]

theorem State.computeSet_of_due {s : State} {c : CoreId} {n : Nat} (hs : s.bit F.coreArrstat.streaming c.ix = true)
    (h : (s.core c).exchange = some n) (hn : 16 * n ≤ s.now) : s.computeSet c = 1 - s.get F.coreArrstat.compute_set c.ix := by
  simp [State.computeSet, hs, h, hn]

/-- In a streaming harness the arrays of the set that does not compute are being loaded. -/
theorem State.loading_arr_of_streaming {s : State} {c : CoreId} (h : s.bit F.coreArrstat.streaming c.ix = true) (a : Fin 64) :
    s.loading (c.arr a) = decide (s.computeSet c ≠ a.val / 32) := by
  change (s.bit F.coreArrstat.streaming c.ix && _) = _
  rw [h]
  rfl

theorem exchanged_core (c : CoreId) (s : State) : (exchanged c s).core c = { s.core c with exchange := none } :=
  State.core_setCore_same s c _

theorem exchanged_streaming (c : CoreId) (s : State) :
    (exchanged c s).bit F.coreArrstat.streaming c.ix = s.bit F.coreArrstat.streaming c.ix :=
  State.bit_congr (State.get_set_lo _ _ _ _ _ _ (by decide))

theorem exchanged_compute_set (c : CoreId) (s : State) : (exchanged c s).get F.coreArrstat.compute_set c.ix = s.computeSet c % 2 :=
  State.get_set_same ..

/-- Whether SET_EXCHANGE has run makes no difference to the set that computes once the named stitch has begun. -/
theorem exchanged_computeSet {s : State} {c : CoreId} {n : Nat} (hs : s.bit F.coreArrstat.streaming c.ix = true)
    (h : (s.core c).exchange = some n) (hn : 16 * n ≤ s.now) : (exchanged c s).computeSet c = s.computeSet c := by
  rw [State.computeSet_of_none (by rw [exchanged_core]), exchanged_compute_set, State.computeSet_of_due hs h hn]
  omega

/-- From the exchange on, the set that computed before it is the one being loaded (R84). -/
theorem exchanged_loading {s : State} {c : CoreId} {n : Nat} (hs : s.bit F.coreArrstat.streaming c.ix = true)
    (h : (s.core c).exchange = some n) (hn : 16 * n ≤ s.now) (a : Fin 64) :
    s.loading (c.arr a) = (exchanged c s).loading (c.arr a) ∧
      ((exchanged c s).loading (c.arr a) = true ↔ 1 - s.get F.coreArrstat.compute_set c.ix ≠ a.val / 32) := by
  have ht := (exchanged_streaming c s).trans hs
  rw [State.loading_arr_of_streaming hs, State.loading_arr_of_streaming ht, exchanged_computeSet hs h hn, State.computeSet_of_due hs h hn]
  exact ⟨rfl, decide_eq_true_iff⟩

theorem exchanged_frame (c : CoreId) (s : State) : RegsBut [.coreArrstat] s (exchanged c s) ∧ CoresBut c s (exchanged c s) ∧
    (exchanged c s).engines = s.engines ∧ Still s (exchanged c s) :=
  ⟨RegsBut.set (t := s.setCore c _) (fun _ _ _ => rfl) _ _ _ (by decide), CoresBut.setCore s c _, rfl, Still.refl s⟩

/-! ### What each command does -/

theorem exec_ldl_of_free {s : State} {c : CoreId} {lat : Fin 8} {fmt : Fin 4} {src : Fin 2048} {ofs : Nat} (hA : canA s c)
    (hsrc : fmt.val = 0 → src.val % 2 = 0) (hloc : s.located c 0 (src * 128) (latchBytes fmt) = .ok ofs)
    (hfree : ∀ l ∈ (s.core c).loads, l.landAt = landCycle s ofs → bankOf l.src ≠ bankOf ofs ∧ l.lat ≠ lat.val)
    (hclear : ∀ e, Map.find s.spadClear c.die.val = some e → e ≤ landCycle s ofs) :
    exec (.ldl c lat fmt src) s = .next (ldlIssued c lat fmt ofs s) := by
  rw [exec_ldl, onSlot_of_issuing hA.1 (ldlSlot_of_free hA hsrc hloc hfree hclear)]

/-- XSET of a stitch that has begun is STITCH_LATE and schedules nothing. -/
theorem exec_xset_of_begun {s : State} {c : CoreId} {idx : Fin 4} (hA : canA s c) (hs : s.bit F.coreArrstat.streaming c.ix = true)
    (ht : s.stReg c idx ≤ s.stitch) (hv : s.bit F.coreSfltRec.valid c.ix = false) :
    ∃ t, exec (.xset c idx) s = .next t ∧
      FirstFault c 0 (s.get F.coreSeqPc.pc c.ix) { code := sStitchLate, detail := idx } s t :=
  ⟨_, by rw [exec_xset, onSlot_of_fault 0 hA.1 (xsetSlot_of_begun hA hs ht)], State.schedFault_firstFault _ _ rfl hv⟩

end Sys2Proof.Machine

namespace Sys2Proof
open Sys2Proof.Machine

/-- Settles O8: the issue of LDL and XSET, then the landing of the oldest due load and the exchange of the sets. -/
theorem inputLatches : Obligations.InputLatches := by
  unfold Obligations.InputLatches
  refine ⟨fun s c hA => ⟨fun lat fmt src ofs hsrc hloc hfree hclear => ?_, fun idx => ⟨fun hs ht => ?_, fun hs ht hv => ?_, fun hs => ?_⟩⟩,
    fun s c => ⟨fun h => ?_, fun pre rest l hloads hpre hdue hline hu => ⟨fun hidle => ?_, fun hbusy hv => ?_⟩, fun h => ?_,
      fun n h hn => ?_⟩⟩
  · obtain ⟨hlo, hhi, hpos⟩ := nextSlot_spec (bankOf ofs) (s.now + 1) (pos := 1) (by decide)
    exact ⟨hlo, by omega, hpos, exec_ldl_of_free hA hsrc hloc hfree hclear⟩
  · refine ⟨_, by rw [exec_xset, onSlot_of_issuing hA.1 (xsetSlot_of_future hA hs ht)], exchangeNamed_core .., exchangeNamed_frame ..⟩
  · obtain ⟨t, he, hf⟩ := exec_xset_of_begun hA hs ht hv
    exact ⟨t, he, hf.code, hf.src, hf.detail.trans (Nat.mod_eq_of_lt (by dsimp only; omega)), by rw [hf.core], hf.still⟩
  · rw [exec_xset, onSlot_of_issuing hA.1 (xsetSlot_of_spatial idx hA hs)]
    rfl
  · rw [exec_latchLanding, latchLanding_of_none_due h]
  · have hlatch := loadLanded_latch c l (pre ++ rest) s
    obtain ⟨hnow, hnext⟩ := loadLanded_latchLoading c l (pre ++ rest) s
    exact ⟨_, by rw [exec_latchLanding, latchLanding_of_idle_latch hloads hpre hdue hline hu hidle],
      congrArg Core.loads (loadLanded_core ..), congrArg Latch.fmt hlatch, hnow, hnext, congrArg Latch.elts hlatch,
      fun lat hne => loadLanded_latch_ne c l _ s hne, loadLanded_frame ..⟩
  · have hf : FirstFault c 3 l.bundle { code := sLatch, detail := l.lat } (loadTaken c (pre ++ rest) s) _ :=
      State.schedFault_firstFault _ _ rfl hv
    refine ⟨_, by rw [exec_latchLanding, latchLanding_of_busy_latch hloads hpre hdue hline hbusy], hf.code, hf.src, hf.detail, ?_, hf.still⟩
    rw [hf.core, loadTaken, State.core_setCore_same]
  · rw [exec_setExchange, setExchange_of_not_due h]
  · refine ⟨exchanged c s, by rw [exec_setExchange, setExchange_of_due h hn], by rw [exchanged_core], fun hs => ?_, fun hs => ?_,
      exchanged_frame c s⟩
    · rw [exchanged_compute_set, State.computeSet_of_due hs h hn]
      exact ⟨by omega, exchanged_loading hs h hn⟩
    · rw [exchanged_compute_set, State.computeSet_of_spatial hs]

end Sys2Proof
end

section
/-!
PROOFS. Sync objects (chapter 09): what applying an update does to its object, the order and the cycles in which updates wait, what
settling the queue leaves alone, and the obligation on them.
-/

namespace Sys2Proof
open Sys2Proof.Machine

theorem Quiet.refl (s : State) : Quiet s s := ⟨rfl, rfl, rfl, rfl, rfl, rfl⟩

end Sys2Proof

namespace Sys2Proof.Machine
open Sys2Proof

/-! ### The commands' meanings -/

theorem exec_sigl (c : CoreId) (obj : Fin 128) (inc : Fin 256) (s : State) :
    exec (.sigl c obj inc) s = .next (onSlot c 2 (siglSlot c obj inc) s) := rfl
theorem exec_srst (c : CoreId) (obj : Fin 128) (s : State) : exec (.srst c obj) s = .next (onSlot c 2 (srstSlot c obj) s) := rfl
theorem exec_hsigWrite (k : CluId) (obj : Fin 128) (inc : Fin 256) (rst : Bool) (s : State) :
    exec (.hsigWrite k obj inc rst) s = .next (hsigWrite k obj inc rst s) := rfl

/-! ### Applying an update (R306, R307) -/

section
variable (u : SyncUpd) (v : Nat) (s : State)

/-- The object before the update's increment is added: a reset applies first. -/
def syncBase : State := if u.reset then s.set F.cluSynObj.count (u.clu.ix u.obj) 0 else s

/-- The update's signal is counted, and its object holds v. -/
def syncSummed : State := (s.inc F.cluSynStat.signals u.clu.ix).set F.cluSynObj.count (u.clu.ix u.obj) v

/-- The update's object stands at its maximum and has overflowed. -/
def syncSaturated : State := ((syncSummed u 65535 s).raise F.cluSynObj.ovf (u.clu.ix u.obj)).inc F.cluSynStat.ovf u.clu.ix

/-- An update resets, then adds: to the sum, or to the maximum with its overflow. -/
theorem applySync_eq : applySync s u =
    if u.inc = 0 then syncBase u s
    else if 65535 < (syncBase u s).get F.cluSynObj.count (u.clu.ix u.obj) + u.inc then syncSaturated u (syncBase u s)
    else syncSummed u ((syncBase u s).get F.cluSynObj.count (u.clu.ix u.obj) + u.inc) (syncBase u s) := rfl

@[simp] theorem syncBase_count : (syncBase u s).get F.cluSynObj.count (u.clu.ix u.obj) =
    if u.reset then 0 else s.get F.cluSynObj.count (u.clu.ix u.obj) := by
  unfold syncBase
  split
  · exact State.get_set_same ..
  · rfl

@[simp] theorem syncBase_ovf : (syncBase u s).get F.cluSynObj.ovf (u.clu.ix u.obj) = s.get F.cluSynObj.ovf (u.clu.ix u.obj) := by
  unfold syncBase
  split
  · exact State.get_set_lo _ _ _ _ _ _ (by decide)
  · rfl

@[simp] theorem syncBase_stat_ovf : (syncBase u s).get F.cluSynStat.ovf u.clu.ix = s.get F.cluSynStat.ovf u.clu.ix := by
  unfold syncBase
  split
  · exact State.get_set_reg _ _ _ _ _ _ (by decide)
  · rfl

@[simp] theorem syncSummed_count : (syncSummed u v s).get F.cluSynObj.count (u.clu.ix u.obj) = v % 65536 := State.get_set_same ..

@[simp] theorem syncSummed_ovf : (syncSummed u v s).get F.cluSynObj.ovf (u.clu.ix u.obj) = s.get F.cluSynObj.ovf (u.clu.ix u.obj) :=
  (State.get_set_lo _ _ _ _ _ _ (by decide)).trans (State.get_set_reg _ _ _ _ _ _ (by decide))

@[simp] theorem syncSummed_stat_ovf : (syncSummed u v s).get F.cluSynStat.ovf u.clu.ix = s.get F.cluSynStat.ovf u.clu.ix :=
  (State.get_set_reg _ _ _ _ _ _ (by decide)).trans (State.get_set_lo _ _ _ _ _ _ (by decide))

@[simp] theorem syncSaturated_count : (syncSaturated u s).get F.cluSynObj.count (u.clu.ix u.obj) = 65535 := by
  rw [syncSaturated, State.inc, State.get_set_reg _ _ _ _ _ _ (by decide), State.raise_get, State.get_set_lo _ _ _ _ _ _ (by decide),
    syncSummed_count]

@[simp] theorem syncSaturated_ovf : (syncSaturated u s).get F.cluSynObj.ovf (u.clu.ix u.obj) = 1 := by
  rw [syncSaturated, State.inc, State.get_set_reg _ _ _ _ _ _ (by decide), State.raise_get, State.get_set_same]
  rfl

@[simp] theorem syncSaturated_stat_ovf :
    (syncSaturated u s).get F.cluSynStat.ovf u.clu.ix = min (s.get F.cluSynStat.ovf u.clu.ix + 1) 65535 := by
  rw [syncSaturated, State.get_inc_same, State.raise_get, State.get_set_reg _ _ _ _ _ _ (by decide), syncSummed_stat_ovf]
  rfl

theorem applySync_quiet : Quiet s (applySync s u) := by
  have hbase : Quiet s (syncBase u s) := by
    unfold syncBase
    split <;> exact ⟨rfl, rfl, rfl, rfl, rfl, rfl⟩
  rw [applySync_eq]
  split
  · exact hbase
  · split <;> exact hbase.trans ⟨rfl, rfl, rfl, rfl, rfl, rfl⟩

end

/-- R307: the count stops at 0xFFFF, and only a sum above it sets OVF and is counted. -/
theorem applySync_reads {u : SyncUpd} {s : State} {v : Nat} (hu : 0 < u.inc ∨ u.reset = true)
    (hv : (if u.reset then 0 else s.get F.cluSynObj.count (u.clu.ix u.obj)) + u.inc = v) :
    (applySync s u).get F.cluSynObj.count (u.clu.ix u.obj) = min v 0xFFFF ∧
    (applySync s u).get F.cluSynObj.ovf (u.clu.ix u.obj) = (if 0xFFFF < v then 1 else s.get F.cluSynObj.ovf (u.clu.ix u.obj)) ∧
    (applySync s u).get F.cluSynStat.ovf u.clu.ix =
      (if 0xFFFF < v then min (s.get F.cluSynStat.ovf u.clu.ix + 1) 0xFFFF else s.get F.cluSynStat.ovf u.clu.ix) := by
  rw [applySync_eq, syncBase_count, hv]
  split
  · rename_i hinc
    have hr : u.reset = true := hu.resolve_left (by omega)
    have hv0 : v = 0 := by simpa [hr, hinc] using hv.symm
    simp [hr, hv0]
  · split
    · rename_i hover
      simp only [syncSaturated_count, syncSaturated_ovf, syncSaturated_stat_ovf, syncBase_stat_ovf, and_self, and_true]
      omega
    · rename_i hfits
      simp only [syncSummed_count, syncSummed_ovf, syncSummed_stat_ovf, syncBase_ovf, syncBase_stat_ovf, and_self, and_true]
      omega

/-! ### Settling the queue -/

theorem foldl_applySync_quiet (l : List SyncUpd) (s : State) : Quiet s (l.foldl applySync s) := by
  induction l generalizing s with
  | nil => exact Quiet.refl s
  | cons u l ih => exact (applySync_quiet u s).trans (ih _)

theorem settleSync_quiet (s : State) : Quiet s s.settleSync := by
  unfold State.settleSync
  dsimp only
  split
  · exact Quiet.refl s
  · exact Quiet.trans ⟨rfl, rfl, rfl, rfl, rfl, rfl⟩ (foldl_applySync_quiet ..)

/-- A test or read of an update's own cycle does not see it. -/
theorem settleSync_of_not_due {s : State} {u : SyncUpd} (h : s.syncQ = [u]) (hd : s.now ≤ u.due) : s.settleSync = s := by
  simp [State.settleSync, h, Nat.not_lt.2 hd]

/-- From the next cycle on the update stands. -/
theorem settleSync_of_due {s : State} {u : SyncUpd} (h : s.syncQ = [u]) (hd : u.due < s.now) :
    s.settleSync = applySync { s with syncQ := [] } u := by
  simp [State.settleSync, h, hd]

/-! ### Presenting an update (R305, R306) -/

theorem Quiet.addSync (s : State) (u : SyncUpd) : Quiet s (s.addSync u) := ⟨rfl, rfl, rfl, rfl, rfl, rfl⟩

/-- An update waits at an input port for cycle t. -/
def portTaken (q : List SyncUpd) (c : CluId) (port t : Nat) : Prop := ∃ x ∈ q, x.clu = c ∧ x.port = port ∧ x.due = t

theorem portFree_of_taken {q : List SyncUpd} {c : CluId} {port t : Nat} (h : portTaken q c port t) (fuel : Nat) :
    portFree q c port (fuel + 1) t = portFree q c port fuel (t + 1) := if_pos (by simpa [portTaken] using h)

theorem portFree_of_free {q : List SyncUpd} {c : CluId} {port t : Nat} (h : ¬ portTaken q c port t) (fuel : Nat) :
    portFree q c port fuel t = t := by
  cases fuel with
  | zero => rfl
  | succ fuel => exact if_neg (by simpa [portTaken] using h)

/-- The search passes over taken cycles only, and stops at a free one unless every cycle it may look at is taken. -/
theorem portFree_spec (q : List SyncUpd) (c : CluId) (port fuel t : Nat) :
    t ≤ portFree q c port fuel t ∧
      (¬ portTaken q c port (portFree q c port fuel t) ∨
        portFree q c port fuel t = t + fuel ∧ ∀ i < fuel, portTaken q c port (t + i)) := by
  induction fuel generalizing t with
  | zero => exact ⟨Nat.le_refl _, .inr ⟨rfl, by simp⟩⟩
  | succ fuel ih =>
    by_cases h : portTaken q c port t
    · rw [portFree_of_taken h]
      obtain ⟨hle, hfree⟩ := ih (t + 1)
      refine ⟨by omega, hfree.imp_right fun ⟨he, ht⟩ => ⟨by omega, fun i hi => ?_⟩⟩
      cases i with
      | zero => exact h
      | succ i => exact Nat.add_right_comm t 1 i ▸ ht i (by omega)
    · rw [portFree_of_free h]
      exact ⟨Nat.le_refl _, .inl h⟩

/-- Some cycle among the first n + 1 is free when n updates wait: each cycle taken is the due cycle of a waiting update. -/
theorem exists_not_portTaken (q : List SyncUpd) (c : CluId) (port t : Nat) : ∃ i ≤ q.length, ¬ portTaken q c port (t + i) := by
  refine Classical.byContradiction fun hnone => ?_
  have htaken (i : Nat) (hi : i ≤ q.length) : portTaken q c port (t + i) :=
    Classical.byContradiction fun hfree => hnone ⟨i, hi, hfree⟩
  have hsub : List.range' t (q.length + 1) ⊆ q.map SyncUpd.due := fun d hd => by
    obtain ⟨i, hi, rfl⟩ := List.mem_range'.1 hd
    obtain ⟨x, hx, -, -, hdue⟩ := htaken i (by omega)
    exact List.mem_map.2 ⟨x, hx, by omega⟩
  have hlen := List.Nodup.length_le_of_subset List.nodup_range' hsub
  rw [List.length_range', List.length_map] at hlen
  omega

/-- R305: the search ends at a cycle in which the port takes no other update. -/
theorem portFree_not_taken (q : List SyncUpd) (c : CluId) (port t : Nat) : ¬ portTaken q c port (portFree q c port q.length t) := by
  obtain ⟨-, hfree | ⟨hlast, htaken⟩⟩ := portFree_spec q c port q.length t
  · exact hfree
  · obtain ⟨i, hi, hfree⟩ := exists_not_portTaken q c port t
    have hi' : i = q.length := Nat.le_antisymm hi (Nat.not_lt.1 fun hlt => hfree (htaken i hlt))
    rwa [hlast, ← hi']

theorem addSync_of_free {s : State} {u : SyncUpd} (h : ¬ portTaken s.syncQ u.clu u.port u.due) :
    s.addSync u = { s with syncQ := insertUpd u s.syncQ } := by
  rw [State.addSync, portFree_of_free h]

/-! ### What each command does -/

/-- The core has issued an update that is presented in the next cycle. -/
theorem onSlot_syncSlot_of_canT {s : State} {c : CoreId} (h : canT s c) (obj : Nat) (rst : Bool) (inc : Nat) :
    onSlot c 2 (syncSlot c obj rst inc) s = (s.settleSync.addSync ⟨s.now + 1, c.cluId, obj, rst, inc, c.core⟩).setCore c
      { s.core c with nextT := s.now + 1 } := by
  obtain ⟨hissuing, hfree⟩ := h
  have hq := (settleSync_quiet s).trans (Quiet.addSync s.settleSync ⟨s.now + 1, c.cluId, obj, rst, inc, c.core⟩)
  refine onSlot_of_issuing hissuing ?_
  rw [syncSlot, tSlot, need_of (decide_eq_true hfree)]
  dsimp only
  rw [hq.core, hq.still.now]

theorem siglSlot_of_inc (c : CoreId) (obj : Nat) {inc : Nat} (h : inc ≠ 0) : siglSlot c obj inc = syncSlot c obj false inc :=
  funext fun _ => if_neg h

theorem hsigWrite_of_nothing (k : CluId) (obj : Nat) (s : State) : hsigWrite k obj 0 false s = s := rfl

theorem hsigWrite_of_update (k : CluId) (obj : Nat) {inc : Nat} {rst : Bool} (h : rst = true ∨ inc ≠ 0) (s : State) :
    hsigWrite k obj inc rst s = s.settleSync.addSync ⟨s.now, k, obj, rst, inc, 6⟩ :=
  if_neg fun ⟨hinc, hrst⟩ => h.elim hrst (· hinc)

/-- R306: a reset comes before an increment of its cycle, whichever is presented first. -/
theorem insertUpd_reset_first {a b : SyncUpd} (hd : a.due = b.due) (ha : a.reset = true) (hb : b.reset = false) :
    insertUpd a [b] = [a, b] ∧ insertUpd b [a] = [a, b] := by
  simp [insertUpd, hd, ha, hb]

end Sys2Proof.Machine

namespace Sys2Proof
open Sys2Proof.Machine

/-- Settles O19: what the three commands present, the cycle an update is presented in, when it is seen, what it does to its object, and
the order of a reset and an increment of one cycle. -/
theorem syncObjects : Obligations.SyncObjects := by
  unfold Obligations.SyncObjects
  refine ⟨fun s c obj inc hT => ⟨fun hinc => ?_, ?_⟩, fun s k obj inc rst => ⟨?_, fun h => ?_⟩, fun s u => ⟨fun h => ?_, ?_⟩,
    fun s u h => ⟨settleSync_of_not_due h, settleSync_of_due h⟩, fun s k obj inc port rst h => ?_,
    fun a b => insertUpd_reset_first⟩
  · rw [exec_sigl, siglSlot_of_inc c obj (Fin.val_ne_zero_iff.2 hinc), onSlot_syncSlot_of_canT hT]
  · exact congrArg _ (onSlot_syncSlot_of_canT hT obj true 0)
  · rintro ⟨rfl, rfl⟩
    exact congrArg _ (hsigWrite_of_nothing k obj s)
  · rw [exec_hsigWrite, hsigWrite_of_update k obj (h.imp_right Fin.val_ne_zero_iff.2)]
  · exact addSync_of_free fun ⟨x, hx, htaken⟩ => h x hx htaken
  · refine ⟨portFree s.syncQ u.clu u.port s.syncQ.length u.due, (portFree_spec ..).1, fun x hx hclu hport hdue => ?_, rfl⟩
    exact portFree_not_taken s.syncQ u.clu u.port u.due ⟨x, hx, hclu, hport, hdue⟩
  · exact applySync_reads (u := ⟨0, k, obj, rst, inc, port⟩) h rfl

end Sys2Proof
end
